-- ==== Sys2Proof/Word.lean ====
section
/-! DEFINITION. The word types of the KJ9: byte, half, word and double word. -/

namespace Sys2Proof

/-- A byte of memory. -/
abbrev Byte := BitVec 8

/-- A 16-bit value. -/
abbrev Half := BitVec 16

/-- A lane register: 32 bits (R130). -/
abbrev Word := BitVec 32

/-- A lead register, a special register, a clause word: 64 bits (R96, R99, R38). -/
abbrev DWord := BitVec 64

end Sys2Proof
end

