-- ==== Sys2Proof/Machine/Bits.lean ====
section
/-! DEFINITION. Bit fields, extension, saturation and byte order (R6, R13). -/

namespace Sys2Proof

/-- `bits(x, h, l)` of R13: bits h:l of x as a natural number. -/
def bits (x h l : Nat) : Nat := x / 2 ^ l % 2 ^ (h + 1 - l)

/-- Bit `i` of x. -/
def bit (x i : Nat) : Bool := x / 2 ^ i % 2 == 1

/-- `sext(x, n)` of R13, as an integer. -/
def sext (x n : Nat) : Int :=
  let y := x % 2 ^ n
  if y < 2 ^ (n - 1) then (y : Int) else (y : Int) - (2 ^ n : Nat)

/-- `sat(x, lo, hi)` of R13. -/
def satInt (x lo hi : Int) : Int := if x < lo then lo else if hi < x then hi else x

/-- An integer modulo 2^n as a natural number. -/
def wrap (x : Int) (n : Nat) : Nat := (x % ((2 ^ n : Nat) : Int)).toNat

/-- Bits h:l of x replaced by the low bits of v. -/
def putBits (x h l v : Nat) : Nat :=
  x - bits x h l * 2 ^ l + v % 2 ^ (h + 1 - l) * 2 ^ l

/-- A truth value as 1 or 0. -/
def b2n (b : Bool) : Nat := if b then 1 else 0

/-- The smaller of a count and its saturation value. -/
def satNat (x hi : Nat) : Nat := if hi < x then hi else x

/-- The n low bytes of x, least significant first (R6). -/
def bytesOf : Nat → Nat → List Byte
  | 0, _ => []
  | n + 1, x => BitVec.ofNat 8 x :: bytesOf n (x / 256)

/-- The natural number of a little-endian list of bytes (R6). -/
def natOf : List Byte → Nat
  | [] => 0
  | b :: bs => b.toNat + 256 * natOf bs

/-- `count` numbers from `start`. -/
def upFrom (start : Nat) : Nat → List Nat
  | 0 => []
  | n + 1 => start :: upFrom (start + 1) n

/-- The set bits of x below n, ascending. -/
def setBits (x n : Nat) : List Nat := (upFrom 0 n).filter (fun i => bit x i)

/-- The word with exactly the listed bits set. -/
def maskOf (l : List Nat) : Nat := l.foldl (fun acc i => if bit acc i then acc else acc + 2 ^ i) 0

/-- Number of set bits of x below n. -/
def popcount (x n : Nat) : Nat := (setBits x n).length

/-- x rounded up to a multiple of m. -/
def roundUp (x m : Nat) : Nat := (x + m - 1) / m * m

end Sys2Proof
end

