-- ==== Sys2Proof/Machine/Store.lean ====
section
/-! DEFINITION. Finite tables with natural keys in one canonical form: keys strictly rising, and, for tables with a
default, no entry equal to the default. Memory and register files are such tables, so equal contents are equal data. -/

namespace Sys2Proof

/-- A table: pairs of a key and a value, keys strictly rising. -/
abbrev Tab (α : Type) := List (Nat × α)

namespace Tab

variable {α : Type}

/-- The value listed at a key. -/
def look : Tab α → Nat → Option α
  | [], _ => none
  | (k, v) :: t, q => if q = k then some v else look t q

/-- The value at a key, or the default where none is listed. -/
def get (t : Tab α) (d : α) (q : Nat) : α := (look t q).getD d

/-- List a value at a key. -/
def put : Tab α → Nat → α → Tab α
  | [], q, x => [(q, x)]
  | (k, v) :: t, q, x =>
    if q < k then (q, x) :: (k, v) :: t
    else if q = k then (q, x) :: t
    else (k, v) :: put t q x

/-- Remove a key. -/
def del : Tab α → Nat → Tab α
  | [], _ => []
  | (k, v) :: t, q => if q = k then t else if q < k then (k, v) :: t else (k, v) :: del t q

/-- Set the value at a key of a table with a default: a default value removes the entry. -/
def set [DecidableEq α] (t : Tab α) (d : α) (q : Nat) (x : α) : Tab α :=
  if x = d then del t q else put t q x

/-- Change the value listed at a key, if one is. -/
def upd : Tab α → Nat → (α → α) → Tab α
  | [], _, _ => []
  | (k, v) :: t, q, f => if q = k then (k, f v) :: t else (k, v) :: upd t q f

/-- Every key is above the bound. -/
def above (n : Nat) : Tab α → Bool
  | [] => true
  | (k, _) :: t => n < k && above n t

/-- Keys strictly rise. -/
def rising : Tab α → Bool
  | [] => true
  | (k, _) :: t => above k t && rising t

/-- No entry equals the default. -/
def noDefault [DecidableEq α] (d : α) : Tab α → Bool
  | [] => true
  | (_, v) :: t => !(decide (v = d)) && noDefault d t

/-- The canonical form of a table with a default. -/
def wf [DecidableEq α] (d : α) (t : Tab α) : Bool := rising t && noDefault d t

/-- The values, in key order. -/
def vals (t : Tab α) : List α := t.map (fun p => p.2)

/-- The keys, ascending. -/
def keys (t : Tab α) : List Nat := t.map (fun p => p.1)

end Tab

/-- A set of natural numbers: strictly rising, no repeats. -/
abbrev NatSet := List Nat

namespace NatSet

/-- Add a number. -/
def ins : NatSet → Nat → NatSet
  | [], q => [q]
  | k :: t, q => if q < k then q :: k :: t else if q = k then k :: t else k :: ins t q

/-- Remove a number. -/
def rem : NatSet → Nat → NatSet
  | [], _ => []
  | k :: t, q => if q = k then t else if q < k then k :: t else k :: rem t q

/-- Membership. -/
def has : NatSet → Nat → Bool
  | [], _ => false
  | k :: t, q => q = k || has t q

end NatSet

end Sys2Proof
end

