-- ==== Sys2Proof/Machine/Kinds.lean ====
section
/-! DEFINITION. The names the rest of the model uses for parties, classes, streams and the data that steps carry. -/

namespace Sys2Proof

/-- Who executes an instruction: a lead thread, a formed warp, a microcode handler of a Saddle port, an Awl, or nobody
(a step of an engine). The model's own bookkeeping (log entry 7). -/
inductive Party where
  | nobody
  | lead (tid : Nat)
  | warp (tid fid : Nat)
  | handler (port ctx : Nat)
  | awl (n : Nat)
  deriving DecidableEq, Repr

/-- The clause classes of R45. -/
inductive Cls where
  | lead | lane | grp | mem | mtx | far | sched | sys
  deriving DecidableEq, Repr

/-- CLASS of a clause header (R45); 8 to 15 are no class (R46). -/
def Cls.ofCode : Nat → Option Cls
  | 0 => some .lead | 1 => some .lane | 2 => some .grp | 3 => some .mem
  | 4 => some .mtx | 5 => some .far | 6 => some .sched | 7 => some .sys
  | _ => none

/-- The number of a class (R45). -/
def Cls.code : Cls → Nat
  | .lead => 0 | .lane => 1 | .grp => 2 | .mem => 3 | .mtx => 4 | .far => 5 | .sched => 6 | .sys => 7

/-- The operands of a step that no word encodes: numbers, an optional number, and bytes from outside. Which of them a
step uses, and for what, stands at its constructor of Instr. -/
structure Arg where
  a : Nat := 0
  b : Nat := 0
  c : Nat := 0
  d : Nat := 0
  opt : Option Nat := none
  data : List Byte := []
  /-- The poisoned 32-byte sectors of `data`, as bits (R29, R420). -/
  poison : Nat := 0
  deriving DecidableEq, Repr

end Sys2Proof
end

