-- ==== Sys2Proof/Machine/TeamState.lean ====
section
/-! DEFINITION. The state of a team: its lead thread, threads, home warps, formed warps, queues, traps and memory
(03_lead.md, 05_grouping.md, 02_issue.md, 01_engines.md R18). -/

namespace Sys2Proof.Machine

/-- The bytes of one memory level with the marks the spec keeps beside them (R18, R24, R29, R230). -/
structure Space where
  /-- Bytes; an unlisted byte reads 0. -/
  cells : Tab Byte := []
  /-- 128-byte lines whose presence bit is clear (R24). -/
  absent : NatSet := []
  /-- Poisoned 32-byte sectors (R29). -/
  poison : NatSet := []
  /-- Declared scope of each barrier object, by its address (R230). -/
  scopes : Tab Nat := []
  /-- Barrier objects to which an engine has credited bytes since their BINIT (R259). -/
  credited : NatSet := []
  deriving DecidableEq, Repr

/-- A timer (R126). -/
structure Timer where
  remain : Nat := 0
  cut : Bool := false
  fired : Bool := false
  armed : Bool := false
  deriving DecidableEq, Repr

/-- An entry of an outstanding counter (R26): the operation, and whether it has completed. Entries leave in order. -/
structure OcEntry where
  op : Nat
  done : Bool
  deriving DecidableEq, Repr

/-- Eight outstanding counters: the entries of each in issue order (R26). -/
abbrev Counters := Tab (List OcEntry)

/-- An entry of a broadcast queue and the core clock of its push; it is visible from the next clock (R107, R111). -/
structure QEntry where
  val : DWord
  clock : Nat
  /-- Accesses of the lead thread that the push releases and that are not yet performed (R109). -/
  after : List Nat := []
  deriving DecidableEq, Repr

/-- A broadcast queue: the number of entries retired, and the entries not yet retired (R107, R108). -/
structure Queue where
  base : Nat := 0
  ents : List QEntry := []
  deriving DecidableEq, Repr

/-- Why a formed warp or a lead thread does not issue (R63, R73, R117, R182). -/
inductive Why where
  /-- The queue is empty at a pop for one of these threads (0 the decision queue, 1 + n for aq n; R110). -/
  | queueEmpty (q : Nat) (ths : List Nat)
  /-- The queue is full at a lead push: the queue, the value pushed, and the register that AQSTEP then changes with its
  new value. -/
  | queueFull (q val : Nat) (reg : Option (Nat × Nat))
  /-- The counter of the instruction's class stands at 63 in one of these home warps (R27). -/
  | counterFull (c : Nat) (hws : List Nat)
  /-- WAITC: until the counter is at most n in each of these home warps (R235). -/
  | counterWait (c n : Nat) (hws : List Nat)
  /-- Parked by the operation with this number: an access, a wait, or a request to the lead engine (R117). -/
  | access (op : Nat)
  /-- Parked on a translation walk before the instruction has any effect: the walk, and the lanes and address of the
  fault that a fail reply raises (R331, R470). -/
  | walk (req lanes addr : Nat)
  /-- Parked by a precise trap (R73). -/
  | trap
  /-- Waiting for room in a queue of another engine. -/
  | room
  deriving DecidableEq, Repr

/-- State of a thread (R174). A thread in a formed warp is issuing; it is parked while that warp is blocked (R182). -/
inductive ThreadRun where
  | ready | issuing | held | reforming | exited
  deriving DecidableEq, Repr

/-- A thread (R174, R130, R18). Positions are those of R108: the decision queue, then aq0 to aq3. -/
structure Thread where
  pc : Nat := 0
  idx : Nat := 0
  meet : Nat := 0
  done : Bool := false
  run : ThreadRun := .ready
  /-- Core clock in which it last became ready (R178). -/
  since : Nat := 0
  holdcnt : Nat := 0
  pos : List Nat := [0, 0, 0, 0, 0]
  /-- Accesses of the lead thread that come before this thread's, by the entries that it has popped, each with the number of
  the first operation after the pop (R109). -/
  after : List (Nat × Nat) := []
  regs : Tab Word := []
  /-- The operation number that was next when a register was last written, by other than a matrix instruction and by one (R40,
  R292). -/
  wrote : Tab Nat := []
  wroteMx : Tab Nat := []
  priv : Space := {}
  deriving DecidableEq, Repr

/-- A home warp: its masks, counters, timer and its count of STEPs (R176, R26, R126, R388). -/
structure HomeWarp where
  /-- Its quarter; 4 to 7 on the partner core of a pair (R5, R369). -/
  quarter : Nat := 0
  masks : Tab DWord := []
  oc : Counters := []
  timer : Timer := {}
  steps : Nat := 0
  deriving DecidableEq, Repr

/-- Phase of a clause at a port (R60 to R63). -/
inductive ClauseRun where
  /-- Formed; the header has not been fetched. -/
  | unfetched
  /-- Header fetched; not begun, or a continuation that is waiting. -/
  | waiting
  /-- Holds the port, mid-clause. -/
  | issuing
  /-- Suspended or parked. -/
  | blocked (why : Why)
  deriving DecidableEq, Repr

/-- A formed warp (R177): the threads in ascending home-lane order, its quarter (4 to 7 on the partner core of a pair),
the clause it executes, the next index, its ready stamp (R61). -/
structure Warp where
  threads : List Nat
  quarter : Nat
  pc : Nat
  header : DWord := 0
  /-- Instruction words of the fetched clause. -/
  words : List DWord := []
  idx : Nat := 0
  stamp : Option Nat := none
  run : ClauseRun := .unfetched
  /-- Formed at the end of the wait of R185, or outside its participants; the clause is known to need no other. -/
  reformed : Bool := false
  /-- Participants missing from this group of a split reforming wait (R186). -/
  split : List Nat := []
  deriving DecidableEq, Repr

/-- A trap, delivered or queued (R82, R84, R86). -/
structure TrapRec where
  code : Nat := 0
  kind : Nat := 0
  pclass : Nat := 0
  index : Nat := 0
  cls : Nat := 0
  leadf : Bool := false
  clause : Nat := 0
  homewarp : Nat := 0
  quarter : Nat := 0
  partner : Bool := false
  active : Nat := 0
  lanes : Nat := 0
  addr : Nat := 0
  info : Nat := 0
  elog : Nat := 0
  elogNone : Bool := false
  /-- COUNT of the faulting clause, and the clock of the fault. -/
  count : Nat := 0
  clock : Nat := 0
  /-- The parked formed warp, for a precise fault of a warp. -/
  fid : Option Nat := none
  deriving DecidableEq, Repr

/-- Run state of a lead thread (R97, R120, R85). -/
inductive LeadRun where
  | running (c : ClauseRun)
  /-- HALT has issued; its counters are not yet empty (R120). -/
  | halting
  | ended
  deriving DecidableEq, Repr

/-- The lead thread of a team (R96, R97) with its trap registers (R86). -/
structure Lead where
  regs : Tab DWord := []
  /-- The operation number that was next when a register was last written (R40). -/
  wrote : Tab Nat := []
  /-- Instructions that the lead thread has issued (log entry 7). -/
  issued : Nat := 0
  pc : Nat := 0
  idx : Nat := 0
  header : DWord := 0
  /-- Instruction words of the fetched clause. -/
  words : List DWord := []
  stamp : Option Nat := none
  run : LeadRun := .running .unfetched
  oc : Counters := []
  timer : Timer := {}
  /-- Handler mode (R82). -/
  hmode : Bool := false
  /-- The lead thread had ended when the trap arrived (R85). -/
  revived : Bool := false
  /-- The trap being handled, as R86 shows it. -/
  trap : TrapRec := {}
  resume : DWord := 0
  retPc : Nat := 0
  retIdx : Nat := 0
  /-- The park that the lead thread goes back to after the handler, if it is one that was not abandoned. -/
  retWhy : Option Why := none
  /-- LEAD_TRAP_SAVE0 to 7. -/
  saves : Tab DWord := []
  /-- Traps queued in handler mode (R84). -/
  queue : List TrapRec := []
  /-- Clocks stalled at one push (R110). -/
  stall : Nat := 0
  deriving DecidableEq, Repr

/-- The kick status registers of a team (R282). -/
structure KickStatus where
  kseal : Nat := 0
  rseal : Nat := 0
  code : Nat := 0
  cause : Nat := 0
  count : Nat := 0
  addr : Nat := 0
  deriving DecidableEq, Repr

/-- Where a team is (R369 to R381): on its core; saved in a slot; or retired, with copy requests or accesses that have not
yet ended. -/
inductive Residence where
  | resident
  | saved (slot : Nat)
  | retired
  deriving DecidableEq, Repr

/-- A kick in a core's queue (R269). -/
structure Kick where
  tid : Nat
  off : Nat
  sealByte : Nat
  /-- The KICK operation that appended it. -/
  op : Nat
  deriving DecidableEq, Repr

/-- A team: resident, or saved and waiting to be restored. -/
structure Team where
  /-- Its launch, by the model's launch number. -/
  launch : Nat
  ctx : Nat
  /-- Team number within the launch. -/
  number : Nat
  /-- Virtual die. -/
  vdie : Nat
  /-- The core that holds the lead thread, numbered die × 20 + core. -/
  core : Nat
  slot : Nat
  /-- Runs on a pair (R5). -/
  paired : Bool
  place : Residence := .resident
  width : Nat
  size : Nat
  /-- Declared registers per thread (R132). -/
  nregs : Nat
  privBytes : Nat
  scratchBytes : Nat
  clusterBytes : Nat
  /-- The gang whose cluster memory the team uses. -/
  gang : Nat := 0
  lead : Lead
  threads : Tab Thread
  warps : Tab HomeWarp
  formed : Tab Warp := []
  nextFid : Nat := 0
  /-- The decision queue (0) and aq0 to aq3 (1 to 4). -/
  queues : Tab Queue := []
  scratch : Space := {}
  kick : KickStatus := {}
  /-- Core clocks of the quantum still to run, whether it has expired, and how often the team was saved (R372, R377). -/
  quantum : Nat := 0
  expired : Bool := false
  /-- The launch and team number of the waiting team that won the place at the expiry (R371, R372). -/
  behind : Option (Nat × Nat) := none
  /-- A move was declined for want of a forwarding entry since the last quantum expiry (R379). -/
  declined : Bool := false
  saves : Nat := 0
  /-- Kicks saved with the team (R281), and the bytes that its save slot was given (R377). -/
  kicks : List Kick := []
  slotBytes : List Byte := []
  /-- Declared inputs not yet accepted: source, destination, bytes (R279). -/
  inputs : List (Nat × Nat × Nat) := []
  /-- Elastic steps: boundaries arrived at by the team, and whether it has been withdrawn (R380, R388). -/
  arrived : Nat := 0
  withdrawn : Bool := false
  /-- OPSRC 2 lines read without a pin (R305). -/
  unpinned : Nat := 0
  deriving DecidableEq, Repr

end Sys2Proof.Machine
end

