-- ==== Sys2Proof/Machine/MemState.lean ====
section
/-! DEFINITION. The state of accesses in flight, of a core, of the copy and matrix engines and of the memory side
(06_loadstore.md, 07_copy.md, 08_matrix.md, 09_memside.md). -/

namespace Sys2Proof.Machine

/-- A hardware upset met by the next clause instruction that issues (R69, R136): lanes in which two copies differ, lanes
in which all three differ, lanes and register of an uncorrectable or corrected register read; and, of the lowest lane that differs, which
of its 32-bit words differs first, and how that word of copy 1 and of copy 2 differs from the true one. An input from outside the
architecture (log entry 8). -/
structure Upset where
  diff : Nat := 0
  vote : Nat := 0
  ecc : Nat := 0
  eccFixed : Nat := 0
  reg : Nat := 0
  word : Nat := 0
  flipA : Nat := 0
  flipB : Nat := 0
  deriving DecidableEq, Repr

/-- A home of bytes: which memory holds them, and where their coherence order is made (R21, R246). -/
inductive Home where
  /-- The lane-private slice of a thread. -/
  | priv (tid thread : Nat)
  /-- The scratchpad footprint of a team. -/
  | scratch (tid : Nat)
  /-- The cluster memory of a gang. -/
  | cluster (gang : Nat)
  /-- A carved slice, numbered base die × 64 + slice. -/
  | chip (slice : Nat)
  /-- Global memory homed in this package, by place in DRAM (R336). -/
  | glob
  /-- Global memory homed in another package (R334). -/
  | remote (pkg : Nat)
  deriving DecidableEq, Repr

/-- What an operation does (R215 to R239, R269, R293 to R304, R319). -/
inductive OpKind where
  | ld | st | ldq | stq | prsq
  | atom | acas | red
  | binit | barr | barrx | bexp | bwait | btest | bdrop
  | waita | fence | cctl
  | kick
  | mma | mmas | mmax | mzero | mpin | munpin
  | racc | raccx | rfold | rclr
  | spawn | step | svc | irq | timrd | timarm
  deriving DecidableEq, Repr

/-- Where one lane's access stands. -/
inductive Phase where
  /-- Waits for the walk with this number (R221). -/
  | walk (req : Nat)
  /-- Issued; not yet performed at its home. -/
  | ready
  /-- Parked on an absent line (R219). -/
  | absent
  /-- BWAIT or WAITA: waits for its condition. -/
  | watching
  /-- Sent to its home in another package (R421), or answered with retry and not yet sent again (R354). -/
  | away
  /-- Performed at its home; the answer has not reached the core. -/
  | applied
  /-- Complete in this lane. -/
  | done
  deriving DecidableEq, Repr

/-- One lane's access of an operation. -/
structure Acc where
  /-- Home lane (0 for a lead thread). -/
  lane : Nat
  /-- Thread number within the team; `leadThread` for the lead thread. -/
  thread : Nat
  /-- The space reached, after decoding a SPACE 5 entry (R211). -/
  space : Nat
  /-- Virtual address, or offset in the space. -/
  addr : Nat
  /-- The home and the address there, once known. -/
  home : Option (Home × Nat) := none
  phase : Phase := .ready
  /-- Operand, comparand or token. -/
  data : Nat := 0
  /-- Second operand: the new value of ACAS, the participants of a BINIT. -/
  data2 : Nat := 0
  /-- The value returned. -/
  result : Nat := 0
  /-- The value returned is poisoned; before the access is performed, the payload of the request (R352). -/
  poisoned : Bool := false
  /-- A value has been read. -/
  read : Bool := false
  /-- The bytes of a weak access that have been performed, as bits (R244). -/
  part : Nat := 0
  /-- A line monitor is armed (R237), and whether it has seen a write. -/
  monitor : Bool := false
  seen : Bool := false
  /-- The core clock of the next poll of a lane without a monitor (R237). -/
  poll : Nat := 0
  /-- Retry answers received in a row (R354). -/
  retries : Nat := 0
  /-- Its packets over links of the package network (R351): 1 once its request has gone to the router of its home, 2 once the answer has
  come from there. -/
  net : Nat := 0
  /-- Translated through an alias page: multicast, reduce or gather, with its collective (R326). -/
  alias_ : Nat := 0
  coll : Nat := 0
  /-- What else its leaf says: where lines are kept, whether the page is tracked for replay, its protection mode (R326). -/
  cache : Nat := 0
  snap : Bool := false
  prot : Option Nat := none
  deriving DecidableEq, Repr

/-- A 32-byte granule of a matrix operand: its home, and its bytes with poison once the tile fetch unit has read them
(R299). -/
structure Gran where
  home : Home
  addr : Nat
  data : Option (List Byte × Bool) := none
  /-- The protection mode of its page, and what it says of where lines are kept (R326, R338). -/
  prot : Option Nat := none
  cache : Nat := 0
  deriving DecidableEq, Repr

/-- The fields of a matrix instruction, read at its issue (R285 to R295). -/
structure Mtx where
  src : Nat := 0
  sparse : Nat := 0
  fmt : Nat := 0
  /-- N of SHAPE. -/
  n : Nat := 0
  base : Nat := 0
  win : Nat := 0
  /-- Column stride in bytes. -/
  step : Nat := 0
  /-- Offset of the barrier object; none with NOBAR. -/
  bar : Option Nat := none
  /-- MMAS; the accumulator enters the sum. -/
  scaled : Bool := false
  accIn : Bool := true
  /-- The operand pages have been translated and checked; the metadata too. -/
  checked : Bool := false
  metaOk : Bool := false
  /-- Granules by their address divided by 32. -/
  grans : Tab Gran := []
  /-- The accumulators as the earlier matrix instructions of its threads left them, by thread (R292). -/
  accs : Tab (List Nat) := []
  deriving DecidableEq, Repr

/-- An operation in flight. -/
structure Op where
  kind : OpKind
  tid : Nat
  /-- The formed warp that issued it; none for the lead thread. -/
  fid : Option Nat
  /-- Core of the issue. -/
  core : Nat
  /-- Home warps counted (R27), and the counter it entered. -/
  hws : List Nat
  counter : Option Nat
  /-- Clause header, index, class and protection class, for a fault record. -/
  clause : Nat
  index : Nat
  cls : Nat
  pclass : Nat
  size : Nat := 0
  scope : Nat := 0
  ord : Nat := 0
  evict : Nat := 0
  /-- DATA register, or DST. -/
  data : Nat := 0
  aop : Nat := 0
  atype : Nat := 0
  /-- X128 exponent field (R54). -/
  e : Nat := 0
  /-- Further fields: MOD, the matrix fields, the operands of a request. -/
  args : List Nat := []
  lanes : List Acc := []
  /-- The issuing party is parked until this operation completes. -/
  parks : Bool := false
  /-- Matrix runs done, and runs to do; started (R283, R308). -/
  runs : Nat := 0
  started : Bool := false
  /-- The threads of the formed warp that issued it (R123, R124). -/
  party : List Nat := []
  /-- What its copies meet at the comparison of their accumulators (R68). -/
  upset : Option Upset := none
  /-- The register writes of a matrix instruction that is at its writeback, by thread (R40). -/
  outs : List (Nat × List (Nat × Nat)) := []
  mtx : Mtx := {}
  /-- Clock of the issue at the core, and the instructions that the lead thread had issued, this one among them (log entry 7). -/
  clock : Nat := 0
  issued : Nat := 0
  deriving DecidableEq, Repr

/-- The number that stands for the lead thread among the threads of a team. -/
def leadThread : Nat := 2048

/-- A leaf translation of one 2 MiB page (R326). -/
structure Leaf where
  frame : Nat
  w : Bool
  x : Bool
  alias_ : Nat
  prot : Nat
  snap : Bool
  cache : Nat
  coll : Nat
  deriving DecidableEq, Repr

/-- A line of an L1 data cache: its bytes and poisoned sectors (R254). -/
structure L1Line where
  cells : Tab Byte := []
  poison : NatSet := []
  /-- 1 for a first candidate for replacement, 2 for a line replaced after the normal ones (R214). -/
  mark : Nat := 0
  deriving DecidableEq, Repr

/-- The kind of a delta line (R314). -/
structure DeltaKind where
  aop : Nat
  atype : Nat
  size : Nat
  e : Nat
  deriving DecidableEq, Repr

/-- A delta line: its kind and the words that differ from the identity, by byte offset in the line (R314). -/
structure Delta where
  kind : DeltaKind
  /-- The protection mode of the leaf that its REDs go through (R340), and the team of the first of them. -/
  mode : Option Nat := none
  tid : Nat := 0
  words : Tab Nat
  deriving DecidableEq, Repr

/-- A core of a compute die. -/
structure Core where
  /-- Clocks since it left reset (R125). -/
  clock : Nat := 0
  reread : Nat := 0
  polled : Nat := 0
  budget : Nat := 1024
  next : Nat := 1024
  used : Nat := 0
  /-- The window of the last boundary that the governor has taken: the clock count divided by 256 (R308). -/
  window : Nat := 0
  stall : Nat := 0
  l1 : Tab L1Line := []
  /-- Keep marks: the teams that keep each line (R214). -/
  kept : Tab NatSet := []
  deltas : Tab Delta := []
  /-- Instruction words held, by package-local physical address. -/
  icache : Tab DWord := []
  /-- Words of code of other packages that arrived poisoned, by physical address (R30). -/
  ipoison : NatSet := []
  /-- Translations held, by context × 2^31 + page (R328). -/
  xlat : Tab Leaf := []
  kicks : List Kick := []
  /-- The clock after the one in which the copy engine last decided a kick (R270). -/
  decided : Nat := 0
  /-- Ports that have had their turn in this clock (R111). -/
  acted : NatSet := []
  /-- Quarter arrays: operations in each queue, in order (R283). -/
  arrays : Tab (List Nat) := []
  /-- Clocks for which an array is still busy. -/
  busy : Tab Nat := []
  /-- The party that holds each port mid-clause (ports 0 to 3, and 4 for the lead port): team and formed warp. -/
  ports : Tab (Nat × Nat) := []
  /-- Clocks for which a port is occupied (R64). -/
  portBusy : Tab Nat := []
  deriving DecidableEq, Repr

/-- A translation walk, or the fault record it led to (R327 to R331). -/
structure Walk where
  ctx : Nat
  /-- Virtual address of the first faulting byte. -/
  va : Nat
  core : Nat
  agent : Nat
  access : Nat
  launch : Nat
  vdie : Nat
  /-- Cause and entry of a faulting walk; none while walking. -/
  failed : Option (Nat × Nat) := none
  /-- TAG of the posted record. -/
  tag : Option Nat := none
  deriving DecidableEq, Repr

/-- A shape record as the engine read it (R265), with the box origin of the request: extents of the dimensions below DIMS,
strides of dimensions 1 and up, bounds and origin. -/
structure Shape where
  elem : Nat := 1
  ext : List Nat := []
  ss : List Int := []
  ds : List Int := []
  bound : List Nat := []
  origin : List Int := []
  fill : Nat := 0
  deriving DecidableEq, Repr

/-- A destination line of a copy request (R24, R272): its home, its number, and the bytes still to be written into it. -/
structure LineLeft where
  home : Home
  line : Nat
  left : Nat
  deriving DecidableEq, Repr

/-- A credit of a copy request, made and not yet applied (R273): the target team, the bytes (0 for an ERR mark alone, R271), and the
POISON and ERR marks. -/
structure Owed where
  tid : Nat
  bytes : Nat
  poisoned : Bool
  err : Bool
  deriving DecidableEq, Repr

/-- A copy request, from acceptance to its end (R263 to R279). -/
structure Copy where
  tid : Nat
  core : Nat
  /-- Record offset; none for a declared input (R279). -/
  record : Option Nat
  mode : Nat
  scope : Nat
  credit : Bool
  srcSpace : Nat
  dstSpace : Nat
  barSpace : Nat
  evict : Nat
  src : Nat
  dst : Nat
  bar : Nat
  shape : Shape := {}
  /-- Gather index words, each with whether it was poisoned (R277). -/
  index : List (Nat × Bool) := []
  /-- Teams that a multicast goes to, by rank; none where the rank holds no team (R274). -/
  targets : List (Option Nat) := []
  total : Nat
  /-- Canonical ranges not yet written, or for a multicast not yet read; ascending. -/
  gaps : List (Nat × Nat)
  lines : List LineLeft := []
  /-- STATE of R264: 1 active, 2 stopped. -/
  state : Nat := 1
  poison : Bool := false
  dropped : Bool := false
  /-- The walk it waits for, the faulting virtual address, and whether it is the walk of BAR (R273). -/
  wait : Option (Nat × Nat × Bool) := none
  /-- A multicast that waits for a slot (R275). -/
  queued : Bool := false
  /-- A multicast that fails once its slots have drained: the code, the faulting address, and whether the rest of its
  bytes is credited. -/
  doomed : Option (Nat × Nat × Bool) := none
  /-- The clock of its acceptance, counted alike for every core (R275; log entry 7). -/
  accepted : Nat := 0
  /-- Credits that wait for their object to be reached (R271, R273), in order. -/
  owed : List Owed := []
  /-- The request has ended; what it owes is still to be applied. -/
  closed : Bool := false
  /-- Pieces sent to another package and not yet acknowledged (R260): by canonical offset, the bytes and their POISON mark. -/
  flying : Tab (Nat × Bool) := []
  /-- Translations that it keeps while bytes before a piece that it moved early are still to be written (R276). -/
  leaves : Tab Leaf := []
  deriving DecidableEq, Repr

/-- A forwarding entry of a core (R280, R375): the team it serves, whether the team left by a save, and the number below which lie the
requests accepted before. -/
structure Forward where
  core : Nat
  tid : Nat
  saved : Bool := false
  since : Nat := 0
  deriving DecidableEq, Repr

/-- A slot of a cluster's holding buffer (R275): the request, its bytes with poison, canonical offset, targets left. -/
structure Slot where
  cluster : Nat
  req : Nat
  off : Nat
  data : List (Byte × Bool)
  targets : List (Option Nat)
  deriving DecidableEq, Repr

/-- A gang placed on a cluster (R369): its launch, gang number, cluster (die × 5 + cluster) and memory. -/
structure Gang where
  launch : Nat
  number : Nat
  cluster : Nat
  mem : Space := {}
  deriving DecidableEq, Repr

/-- A region of a launch's declared writes (R361): the space, base and length in bytes. -/
structure Region where
  chip : Bool
  base : Nat
  bytes : Nat
  deriving DecidableEq, Repr

/-- A launch from acceptance to its end (R360 to R383). -/
structure Launch where
  ctx : Nat
  queue : Nat
  slot : Nat
  /-- The 256 bytes of its record, as numbers by offset. -/
  image : List Byte
  ident : Nat
  /-- STATE of R361. -/
  state : Nat := 1
  replays : Nat := 0
  /-- Virtual dies bound (R368), 0 before the first dispatch. -/
  dies : Nat := 0
  /-- Teams in all; the next gang to dispatch on each virtual die, where it is not the die's first; teams below `floor`
  belong to dies that were filled before the launch grew (R380). -/
  teams : Nat := 0
  next : Tab Nat := []
  floor : Nat := 0
  /-- The count word has been read (R365). -/
  counted : Bool := false
  /-- Boundaries of an elastic launch that have completed (R380). -/
  boundaries : Nat := 0
  /-- Sync table entries: chip scratchpad or not, and the address (R362). -/
  sync : List (Bool × Nat) := []
  /-- Granules copied to the snapshot area: region × 2^16 + granule (R348). -/
  copied : NatSet := []
  /-- Granules that cannot be saved (R350), and the walk that a copy waits for with its granule. -/
  lost : NatSet := []
  snapWait : Option (Nat × Nat) := none
  /-- A kill in progress: its code; and whether its regions are being restored for a replay (R383). -/
  killing : Option Nat := none
  restoring : Bool := false
  deriving DecidableEq, Repr

/-- The registers of a queue (R391). -/
structure QueueRegs where
  cfg : Nat := 0
  write : Nat := 0
  disp : Nat := 0
  done : Nat := 0
  eprio : Nat := 0
  bypass : Nat := 0
  deriving DecidableEq, Repr

/-- An entry of CTX_CHIP_MAP (R346). -/
structure ChipMap where
  die : Nat := 0
  slice : Nat := 0
  valid : Bool := false
  ready : Bool := false
  conflict : Bool := false
  deriving DecidableEq, Repr

/-- The registers of a context (R80, R81, R121, R241, R333, R346, R350, R391). -/
structure Ctx where
  trapBase : Nat := 0
  elogBase : Nat := 0
  elogHead : Nat := 0
  elogTail : Nat := 0
  elogLost : Nat := 0
  elogThresh : Nat := 0
  elogMsien : Bool := false
  svcBase : Nat := 0
  svcHead : Nat := 0
  svcTail : Nat := 0
  /-- Index of the next slot SVC reserves (R123), and slots written but not yet passed by HEAD. -/
  svcReserved : Nat := 0
  svcWritten : NatSet := []
  irqCount : Nat := 0
  mixtrap : Bool := false
  chipGranules : Nat := 0
  chipMap : Tab ChipMap := []
  snapCopied : Nat := 0
  snapRestored : Nat := 0
  quantum : Nat := 2000
  target : Nat := 8
  schedEn : Bool := false
  saves : Nat := 0
  moves : Nat := 0
  kills : Nat := 0
  evt : Tab DWord := []
  queues : Tab QueueRegs := []
  /-- CTX_VDIE_MAPv, bits 3:0. -/
  vdieMap : Tab Nat := []
  /-- CTX_VDIE_CORESv; an unlisted one is 0xF_FFFF. -/
  vdieCores : Tab Nat := []
  saveCfg : Nat := 0
  ptRoot : Nat := 0
  nextIdent : Nat := 1
  /-- MSI table entries 0 to 1 + COUNT, 17 bits each (R461). -/
  msi : Tab Nat := []
  deriving DecidableEq, Repr

/-- An entry of the region table (R337). -/
structure RegionRegs where
  a : Nat := 0
  b : Nat := 0
  deriving DecidableEq, Repr

/-- An access of an engine that a home slice has applied and not yet acknowledged (R257): its home, its bytes, the virtual address of the
first, the team for which the engine made it, and the base die of the slice. -/
structure EngineAcc where
  home : Home
  addr : Nat
  len : Nat
  va : Nat
  tid : Option Nat
  die : Nat
  deriving DecidableEq, Repr

/-- A strong access that is not yet acknowledged: its operation and lane, if it is one's, the team that made it, if one did, and the bytes
of a range that it shares (R257). -/
structure Clash where
  op : Option (Nat × Nat)
  tid : Option Nat
  ctx : Option Nat := none
  /-- The virtual address of the first shared byte; the shared bytes at the home, from lo below hi. -/
  addr : Nat
  lo : Nat
  hi : Nat
  deriving DecidableEq, Repr

/-- A read that an engine has sent to another package (R421): the requester, the package, the package-local address and the bytes asked for;
and the answer, with its poisoned 32-byte sectors as bits. -/
structure Ask where
  who : Nat
  pkg : Nat
  addr : Nat
  len : Nat
  answer : Option (List Byte × Nat) := none
  deriving DecidableEq, Repr

/-- A line pinned by a team in its home slice (R302): the core that pinned it, the context and virtual line, and the line at its home;
a line with a home in another package names that package's slices as one (log entry 137). -/
structure Pin where
  tid : Nat
  core : Nat := 0
  ctx : Nat
  vline : Nat
  line : Nat
  slice : Nat
  deriving DecidableEq, Repr

/-- The memory side of the package (R333, R337, R343, R356). -/
structure MemSide where
  xfqBase : Nat := 0
  xfqHead : Nat := 0
  xfqTail : Nat := 0
  nextTag : Nat := 0
  invalVa : Nat := 0
  invalCtx : Nat := 0
  invalPages : Nat := 0
  invalBusy : Bool := false
  /-- The range of the invalidation that runs: VA, CONTEXT and PAGES as its START found them (R332). -/
  runVa : Nat := 0
  runCtx : Nat := 0
  runPages : Nat := 0
  invalDone : Bool := false
  invalMsien : Bool := false
  /-- Operations that used an old entry when the invalidation began. -/
  invalOps : List Nat := []
  regions : Tab RegionRegs := []
  /-- LINEGAP, CORR and UNCORR per base die. -/
  linegap : Tab Nat := []
  corr : Tab Nat := []
  uncorr : Tab Nat := []
  scrubPos : Tab Nat := []
  /-- Base-die clocks (R8, R343). -/
  clocks : Tab Nat := []
  /-- Links that are down: base die × 4 + (1 XOR 1, 2 XOR 2, 3 Saddle). -/
  down : NatSet := []
  rerouted : Tab Nat := []
  retried : Tab Nat := []
  /-- Failed retransmissions in a row, by link number. -/
  fails : Tab Nat := []
  /-- Retry answers in a row of requesters other than accesses of cores, and when each sends again (R354). -/
  retry : Tab (Nat × Nat) := []
  /-- Requesters whose next answer arrives with its payload poisoned (R352). -/
  tainted : NatSet := []
  /-- Reads sent to other packages by engines, until the engine takes their answers (R421). -/
  asks : List Ask := []
  /-- Lines that the L2 holds, with the marks of `L1Line`, and those in the adder buffers, by place in DRAM divided by 128 (R311, R320). -/
  l2 : Tab Nat := []
  adder : NatSet := []
  /-- Accesses of engines that their slices have not acknowledged, and meetings of combined REDs with strong accesses of another size
  whose traps are due: the team of the RED, its place, and what it met (R257). -/
  engine : List EngineAcc := []
  overlaps : List (Nat × Nat × Clash) := []
  /-- Shared translations per base die, and those of the Saddle ports (by 4 + port), with keys as in `Core.xlat`. -/
  xlat : Tab (Tab Leaf) := []
  walks : Tab Walk := []
  nextWalk : Nat := 0
  /-- Cores that hold a delta line, in order of registration, by line (R314). -/
  holders : Tab (List Nat) := []
  /-- Lines pinned (R302, R303). -/
  pins : List Pin := []
  deriving DecidableEq, Repr

end Sys2Proof.Machine
end

