-- ==== Sys2Proof/Machine/SaddleState.lean ====
section
/-! DEFINITION. The state of the Saddle: packets, the nodes of the fixed tree, port engines, collectives and the rounds of
their tiles, receive counters, triggered sends and key slots (11_saddle.md). -/

namespace Sys2Proof.Machine

/-- What an access of the Saddle or of an Awl waits for: nothing, or a walk with this number; true once the access has been
denied (R331, R414). -/
abbrev Wait := Option (Nat × Bool)

/-- A packet between Saddles (R420). MISSING and the NaN index stand in it for kinds 5 and 6. -/
structure Packet where
  kind : Nat
  /-- FLAGS: INCOMPLETE, BACKUP, CREDIT, ERR. -/
  flags : Nat := 0
  job : Nat := 0
  src : Nat := 0
  coll : Nat := 0
  tile : Nat := 0
  chunk : Nat := 0
  fmt : Nat := 0
  lo : Nat := 0
  hi : Nat := 0
  round : Nat := 0
  /-- Poisoned 32-byte sectors of the payload. -/
  poison : Nat := 0
  addr : Nat := 0
  data : List Byte := []
  missing : Nat := 0
  dbar : Nat := 0
  dctr : Nat := 0
  /-- The triggered send of a put and of its acknowledgement (log entry 7). -/
  send : Nat := 0
  /-- An acknowledgement that its send has counted (R417). -/
  seen : Bool := false
  deriving DecidableEq, Repr

/-- A node of the fixed tree with its value (R401, R402): 256 F32 elements, or none where it is absent; poison by 32-byte
sector; absent contributors; the lowest contributor that supplied a NaN; INCOMPLETE and BACKUP. -/
structure Node where
  lo : Nat
  hi : Nat
  vals : Option (List Nat) := none
  poison : Nat := 0
  missing : Nat := 0
  nan : Nat := 0xFFFF
  incomplete : Bool := false
  backup : Bool := false
  deriving DecidableEq, Repr

/-- A tile table entry and peer map as read at a round's first event (R398 to R400). -/
structure TileEntry where
  op : Nat
  fmt : Nat
  ncontrib : Nat
  myidx : Nat
  timeout : Nat
  result : Nat
  barrier : Nat
  bkfor : Nat
  bkto : Nat
  bksrc : Nat
  pkgs : List Nat
  sites : List Nat
  deriving DecidableEq, Repr

/-- A chunk context of a port (R405, R407, R408). -/
structure Chunk where
  coll : Nat
  tile : Nat
  chunk : Nat
  round : Nat
  /-- The entry as its round read it (R398). -/
  entry : TileEntry
  /-- Port clock of its deadline, if it has one, and whether the timer event has been raised. -/
  deadline : Option Nat := none
  raised : Bool := false
  tomb : Bool := false
  nodes : List Node := []
  backups : List Node := []
  /-- Contributors of the nodes that were inserted, and those whose range TMO has filled or marked absent. -/
  covered : NatSet := []
  gone : NatSet := []
  deriving DecidableEq, Repr

/-- A packet context that executes a handler (R404 to R406). -/
structure Handler where
  pc : Nat
  regs : Tab DWord := []
  pkt : Packet
  /-- A timer event, and the chunk context it is about. -/
  timer : Bool := false
  /-- The packet that the last COMB or TMO formed (R406). -/
  formed : Option Packet := none
  count : Nat := 0
  disposed : Bool := false
  wait : Wait := none
  /-- A counted put that is refused or has failed, and one whose bytes have been counted (R415). -/
  err : Bool := false
  counted : Bool := false
  deriving DecidableEq, Repr

/-- A Saddle port with its engine (R392 to R394, R404, R424). -/
structure SadPort where
  clock : Nat := 0
  run : Bool := false
  /-- Microcode store and match table. -/
  store : Tab Word := []
  table : Tab DWord := []
  unmatched : Nat := 0
  ucerr : Nat := 0
  dup : Nat := 0
  /-- Frames of an unsupported delivery mode, dropped (R420). -/
  badFrames : Nat := 0
  /-- Packets that have arrived, or were sent by this package to itself, and have no packet context yet. -/
  inbox : List Packet := []
  handlers : Tab Handler := []
  /-- The packet context that issued last (R394), and clocks for which the combining lanes are occupied. -/
  last : Nat := 0
  busy : Nat := 0
  chunks : Tab Chunk := []
  /-- It has issued in this clock (R394). -/
  acted : Bool := false
  /-- Bytes put in the current window (R440), and puts that wait to leave. -/
  used : Nat := 0
  puts : List (Nat × Packet) := []
  deriving DecidableEq, Repr

/-- The registers of a collective (R424). -/
structure Coll where
  cfg : Nat := 0
  win : Nat := 0
  tab : Nat := 0
  late : Nat := 0
  errs : Nat := 0
  deriving DecidableEq, Repr

/-- The rounds of a tile at this package (R397 to R399, R412). -/
structure Tile where
  /-- Its entry has been read in some round, so that `round` is the current one. -/
  known : Bool := false
  round : Nat := 0
  /-- The entry of the round in progress, once its first event has read it. -/
  entry : Option TileEntry := none
  wait : Wait := none
  fired : Bool := false
  /-- Port clock of the firing (of the tile's port). -/
  firedAt : Nat := 0
  /-- Bytes of the local tile, their poisoned 32-byte sectors (R29), and the elements contributed. -/
  bytes : Tab Byte := []
  bad : NatSet := []
  got : NatSet := []
  /-- Result chunks written, answers still due, and whether the wait for answers is over. -/
  written : NatSet := []
  answers : Nat := 0
  expired : Bool := false
  /-- Where the entry of the round in progress stands in this package, and CTL as it was read; an agent other than the Saddle has written to
  bytes 0x38 to 0x7F of it in the round (R445). -/
  place : Option (Home × Nat) := none
  ctl : Nat := 0
  touched : Bool := false
  sflags : Nat := 0
  missing : Nat := 0
  nan : Nat := 0xFFFF
  incomplete : Bool := false
  /-- Rounds that have ended as a collective error; and the address of an error whose writes to the entry still wait (R414). -/
  failed : NatSet := []
  erring : Option Nat := none
  deriving DecidableEq, Repr

/-- A packet in a chunk buffer reservation (R410), with the mode of its HOLD and what h5 held there, which its condition compares. -/
structure Held where
  pkt : Packet
  fired : Bool
  h5 : Nat
  deriving DecidableEq, Repr

/-- A credit of a completion that is still to be applied (R412, R414). -/
structure SadCredit where
  coll : Nat
  tile : Nat
  ctx : Nat
  va : Nat
  bytes : Nat
  err : Bool
  sflags : Nat
  wait : Wait := none
  /-- It was not applied, and the entry has still to say so. -/
  lost : Bool := false
  deriving DecidableEq, Repr

/-- A backup whose bytes are still to be read (R409), with the entry of its round. -/
structure SadBackup where
  coll : Nat
  tile : Nat
  chunk : Nat
  round : Nat
  entry : TileEntry
  wait : Wait := none
  deriving DecidableEq, Repr

/-- A receive counter (R415, R424). -/
structure RCtr where
  val : DWord := 0
  job : Nat := 0
  owner : Nat := 0
  en : Bool := false
  deriving DecidableEq, Repr

/-- A triggered send (R416): its image without CTL, and CTL; the puts to come (R417). -/
structure Send where
  image : List Byte := []
  arm : Bool := false
  credit : Bool := false
  fired : Bool := false
  done : Bool := false
  err : Bool := false
  /-- Clock of its owner's port when it fired. -/
  stamp : Nat := 0
  /-- Fired; the source has not been read. -/
  reading : Bool := false
  wait : Wait := none
  /-- Puts not yet acknowledged. -/
  left : Nat := 0
  failed : Bool := false
  deriving DecidableEq, Repr

/-- A key slot (R418, R424, R456). -/
structure KeySlot where
  job : Nat := 0
  valid : Bool := false
  key : List Byte := []
  deriving DecidableEq, Repr

/-- The Saddle (R392). -/
structure Saddle where
  ports : Tab SadPort := []
  colls : Tab Coll := []
  /-- By collective × 2^16 + tile. -/
  tiles : Tab Tile := []
  held : Tab Held := []
  nextHeld : Nat := 0
  credits : List SadCredit := []
  backups : List SadBackup := []
  ctrs : Tab RCtr := []
  sends : Tab Send := []
  keys : Tab KeySlot := []
  /-- TRUST and PATH words, by slot × 8 + word. -/
  trust : Tab Nat := []
  path : Tab Nat := []
  /-- External ports (R420): retransmissions of a frame that have failed in a row, and links that are declared down. -/
  extFails : Tab Nat := []
  extDown : NatSet := []
  deriving DecidableEq, Repr

end Sys2Proof.Machine
end

