-- ==== Sys2Proof/Machine/AwlState.lean ====
section
/-! DEFINITION. The state of an Awl: the hart, its local memory, its registers (12_awl.md). -/

namespace Sys2Proof.Machine

/-- What an Awl waits in (R436). -/
inductive AwlWait where
  | no
  /-- `awl.waitev` with this mask, and its destination register. -/
  | events (mask rd : Nat)
  /-- `awl.waitev` with mask 0: until RUN goes from 0 back to 1; the destination register, and whether RUN has been 0. -/
  | halt (rd : Nat) (stopped : Bool)
  deriving DecidableEq, Repr

/-- A context access of an Awl in progress (R429, R431): none; begun, so that it waits for its translation or an answer; a store that another
package has not acknowledged yet. -/
inductive AwlAccess where
  | none
  | begun
  | sent
  deriving DecidableEq, Repr

/-- The vector state (R425): 32 registers of 512 bits, and the vector CSRs. -/
structure VState where
  regs : Tab (BitVec 512) := []
  /-- vtype as a value of 64 bits; vill is bit 63. -/
  vtype : DWord := 0x8000000000000000
  vl : Nat := 0
  vstart : Nat := 0
  vxrm : Nat := 0
  vxsat : Bool := false
  deriving DecidableEq, Repr

/-- An Awl. -/
structure Awl where
  x : Tab DWord := []
  pc : DWord := 0
  mtvec : DWord := 0
  mepc : DWord := 0
  mcause : DWord := 0
  mtval : DWord := 0
  mscratch : DWord := 0
  /-- mstatus.MIE and MPIE; VS. -/
  mie : Bool := false
  mpie : Bool := false
  vs : Nat := 0
  mcycle : DWord := 0
  minstret : DWord := 0
  vec : VState := {}
  /-- The reservation of LR: the 8-byte local word. -/
  reserved : Option Nat := none
  /-- Local memory, 256 KiB; an unlisted byte reads 0. -/
  mem : Tab Byte := []
  /-- Instruction bytes as the fetch sees them: stores since the last FENCE.I, with the bytes before them (R428). -/
  stale : Tab Byte := []
  /-- 64-bit words with an uncorrectable error, and errors corrected (R428). -/
  ecc : NatSet := []
  corrected : Nat := 0
  /-- AWLn_CTL.RUN; halted by R427; STAT.POISON and CAUSE. -/
  run : Bool := false
  fault : Bool := false
  poison : Bool := false
  cause : Nat := 0
  waiting : AwlWait := .no
  /-- A context access parked on a translation (STAT.XLATE), with its walk. -/
  wait : Wait := none
  access : AwlAccess := .none
  /-- AWLn_LOAD. -/
  loadStatus : Nat := 0
  loadAddr : Nat := 0
  /-- ENTRY of the last loaded image. -/
  entry : Nat := 0
  /-- The image last loaded, for measurement 5 (R455). -/
  image : List Byte := []
  ctx : Nat := 0
  lock : Bool := false
  rate : Nat := 0
  rangeBase : Nat := 0
  rangeCount : Nat := 0
  doorbell : DWord := 0
  timer : Nat := 0
  egress : Nat := 0
  minVer : DWord := 0
  allow : Tab DWord := []
  /-- The pending event set (R436). -/
  pend : Nat := 0
  deriving DecidableEq, Repr

end Sys2Proof.Machine
end

