-- ==== Sys2Proof/Machine/HostState.lean ====
section
/-! DEFINITION. The state of the host complex: its registers, the management harts' private memory, the root port, the
attestation responder (13_host.md). -/

namespace Sys2Proof.Machine

/-- A credit that GO has asked for (R463). -/
structure CreditReq where
  va : Nat
  ctx : Nat
  bytes : Nat
  err : Bool
  deriving DecidableEq, Repr

/-- HOST_CREDITh (R463); BUSY while a credit is going. -/
structure HostCredit where
  va : DWord := 0
  ctx : Nat := 0
  bytes : Nat := 0
  err : Bool := false
  going : Option CreditReq := none
  failed : Bool := false
  /-- The credit has gone to another package, whose answer has not come. -/
  away : Bool := false
  deriving DecidableEq, Repr

/-- Privilege modes of a hart (R447). -/
inductive Priv where
  | u
  | vu
  | vs
  | hs
  | m
  deriving DecidableEq, Repr

/-- A host hart (R447): its pc, integer registers, CSRs and mode; the bytes of a load-reserved; stores to other packages that have not been
acknowledged. Its instructions are RISC-V's, and come from outside (log entry 124). -/
structure Hart where
  pc : DWord := 0
  regs : Tab DWord := []
  csrs : Tab DWord := []
  mode : Priv := .m
  reserved : Option (Nat × List Byte) := none
  unacked : Nat := 0
  deriving DecidableEq, Repr

/-- An interrupt file of an incoming MSI controller (R460): identities 1 to 2,047. -/
structure IntFile where
  pending : NatSet := []
  enabled : NatSet := []
  threshold : Nat := 0
  delivery : Bool := false
  deriving DecidableEq, Repr

/-- A wired source of the APLIC (R460): the management hart and the identity that it is forwarded as. -/
structure WiredSrc where
  hart : Nat := 8
  eiid : Nat := 0
  on : Bool := false
  deriving DecidableEq, Repr

/-- A read that the root port has sent (R458, R459): its 10-bit tag, the hart and register that it is for, its bytes. -/
structure OutRead where
  tag : Nat
  who : Nat
  len : Nat
  deriving DecidableEq, Repr

/-- HOST_PCIE_INWINi (R459). -/
structure InWin where
  bus : Nat := 0
  pages : Nat := 0
  rd : Bool := false
  wr : Bool := false
  phys : Nat := 0
  deriving DecidableEq, Repr

/-- What the package is fused with (R453, R454): SHA-384 digests of the two keys of each image kind (management firmware,
application firmware, Tchitas) and the lowest SECVER of the two host kinds. -/
structure Fuses where
  rsa : List (BitVec 384) := []
  slh : List (BitVec 384) := []
  secver : List Nat := []
  deriving DecidableEq, Repr

/-- An SPDM connection and its session, as far as the responder's answers depend on it (R455, R456). -/
structure Spdm where
  /-- Steps of the connection reached: 1 version, 2 capabilities, 3 algorithms. -/
  stage : Nat := 0
  /-- KEY_EXCHANGE done; FINISH done. -/
  exchanged : Bool := false
  secured : Bool := false
  /-- Sequence numbers of the session's secured messages, in and out (R455). -/
  seqIn : Nat := 0
  seqOut : Nat := 0
  deriving DecidableEq, Repr

/-- The host complex. -/
structure HostCx where
  /-- mtime, in timer ticks. -/
  mtime : DWord := 0
  /-- Fields of R452 and R454. -/
  stage : Nat := 0
  fail : Bool := false
  bootDest : Nat := 0
  lock : Bool := false
  mgmtPages : Nat := 0
  mgmtBase : Nat := 0
  dumpBase : Nat := 0
  stopped : Bool := false
  dumped : Bool := false
  fatalCause : Nat := 0
  /-- mtime at the fatal error (R468). -/
  fatalTime : Nat := 0
  /-- HOST_WDOG.REMAIN; it runs once the boot ROM has started management firmware. -/
  wdog : Nat := 2 ^ 28
  started : Bool := false
  /-- HOST_FEAT_ACK0 and 1; HOST_FEAT_CTL.STATUS. -/
  ack0 : DWord := 0
  ack1 : DWord := 0
  featStatus : Nat := 0
  /-- HOST_PWR_LIMIT and HOST_PWR_STAT. -/
  limit : Nat := 3000
  floor : Nat := 256
  watts : Nat := 0
  clamp : Bool := false
  /-- Consecutive timer ticks with the package over its limit (R466). -/
  hotTicks : Nat := 0
  tmax : Nat := 0
  /-- A sensor has read 110 °C or more: the reading, and the ticks left until the core clocks stop (R466). -/
  trip : Option (Nat × Nat) := none
  credits : Tab HostCredit := []
  inwin : Tab InWin := []
  pcieBase : Nat := 0
  pcieLog2 : Nat := 0
  ur : Nat := 0
  intx : Nat := 0
  plock : Bool := false
  /-- The root port's error state (R458): errors that AER has logged, containment enabled and triggered, IDE streams enabled, reads out. -/
  aer : NatSet := []
  dpcOn : Bool := false
  dpc : Bool := false
  ide : NatSet := []
  outReads : List OutRead := []
  /-- Private memory of the management harts (R448). -/
  sram : Tab Byte := []
  /-- 64-bit words of it with an uncorrectable error (R467). -/
  sramEcc : NatSet := []
  fuses : Fuses := {}
  /-- Digests of measurements 1 to 3 (R455), taken at bring-up. -/
  measured : List (BitVec 384) := []
  /-- By interface: 0 the management interface, 1 + p external port p. -/
  spdm : Tab Spdm := []
  /-- The application image verified in step 4 of bring-up (R454). -/
  app : List Byte := []
  /-- Application harts released from reset (R454). -/
  released : NatSet := []
  /-- Physical address of the firmware's device description (R454). -/
  devDesc : Nat := 0
  /-- Harts, their interrupt files (8 × hart + FILE of R461), and the wired sources (R447, R460). -/
  harts : Tab Hart := []
  files : Tab IntFile := []
  wired : Tab WiredSrc := []
  /-- Accesses of harts that wait for the package network or for another package, in order (R354, R421). -/
  waits : List Arg := []
  /-- Requests of the root port that wait so. -/
  inWaits : List Arg := []
  deriving DecidableEq, Repr

end Sys2Proof.Machine
end

