-- ==== Sys2Proof/Syntax.lean ====
section
/-! DEFINITION. The instruction set: the formats of an instruction word (R47, R48) and one constructor for every row of
the opcode table: the encodings of the eight clause classes (R58), the microcode words (R406), the custom Awl words
(R432 to R436), and the steps of the engines, which no word encodes and whose operands carry what the outside supplies. -/

namespace Sys2Proof

/-- Format A (R48), with the low fields of R47. -/
structure FmtA where
  md : BitVec 7
  zsel : BitVec 3
  retain : BitVec 2
  c : BitVec 9
  b : BitVec 9
  a : BitVec 9
  dst : BitVec 9
  msel : BitVec 4
  pclass : BitVec 2
  deriving DecidableEq, Repr

/-- Format I (R48). -/
structure FmtI where
  imm : BitVec 30
  a : BitVec 9
  dst : BitVec 9
  msel : BitVec 4
  pclass : BitVec 2
  deriving DecidableEq, Repr

/-- Format M, plain tail (R48). -/
structure FmtM where
  offset : BitVec 16
  size : BitVec 3
  space : BitVec 3
  evict : BitVec 3
  scope : BitVec 3
  ord : BitVec 2
  addr : BitVec 9
  data : BitVec 9
  msel : BitVec 4
  pclass : BitVec 2
  deriving DecidableEq, Repr

/-- Format M, atomic tail (R48). -/
structure FmtT where
  aop : BitVec 4
  atype : BitVec 3
  offset : BitVec 9
  size : BitVec 3
  space : BitVec 3
  evict : BitVec 3
  scope : BitVec 3
  ord : BitVec 2
  addr : BitVec 9
  data : BitVec 9
  msel : BitVec 4
  pclass : BitVec 2
  deriving DecidableEq, Repr

/-- Format B (R48, R55). -/
structure FmtB where
  target : BitVec 36
  kind : BitVec 3
  reg : BitVec 9
  msel : BitVec 4
  pclass : BitVec 2
  deriving DecidableEq, Repr

/-- Format X (R48, R56). -/
structure FmtX where
  opsrc : BitVec 2
  sparse : BitVec 2
  nobar : BitVec 1
  fmt : BitVec 5
  shape : BitVec 2
  bar : BitVec 9
  bdesc : BitVec 9
  arow : BitVec 9
  acc : BitVec 9
  msel : BitVec 4
  pclass : BitVec 2
  deriving DecidableEq, Repr

/-- One constructor per row of the opcode table. -/
inductive Instr where
  -- LEAD class
  | sadd (f : FmtA)  -- R102
  | saddImm (f : FmtI)  -- R102
  | ssub (f : FmtA)  -- R102
  | ssubImm (f : FmtI)  -- R102
  | smul (f : FmtA)  -- R102
  | smulImm (f : FmtI)  -- R102
  | smulh (f : FmtA)  -- R102
  | sdiv (f : FmtA)  -- R102
  | srem (f : FmtA)  -- R102
  | sand (f : FmtA)  -- R102
  | sandImm (f : FmtI)  -- R102
  | sor (f : FmtA)  -- R102
  | sorImm (f : FmtI)  -- R102
  | sxor (f : FmtA)  -- R102
  | sxorImm (f : FmtI)  -- R102
  | sshl (f : FmtA)  -- R102
  | sshlImm (f : FmtI)  -- R102
  | sshr (f : FmtA)  -- R102
  | sshrImm (f : FmtI)  -- R102
  | ssar (f : FmtA)  -- R102
  | ssarImm (f : FmtI)  -- R102
  | smin (f : FmtA)  -- R102
  | smax (f : FmtA)  -- R102
  | scmp (f : FmtA)  -- R102
  | smov (f : FmtA)  -- R102
  | sli (f : FmtI)  -- R102
  | slih (f : FmtI)  -- R103
  | ssel (f : FmtA)  -- R102
  | sbr (f : FmtB)  -- R105
  | sjmp (f : FmtB)  -- R105
  | scall (f : FmtB)  -- R105
  | sret (f : FmtA)  -- R105
  | sloop (f : FmtB)  -- R105
  | dqpush (f : FmtA)  -- R112
  | aqpush (f : FmtA)  -- R112
  | aqstep (f : FmtI)  -- R112
  | qstat (f : FmtA)  -- R113
  | sld (f : FmtM)  -- R104
  | sst (f : FmtM)  -- R104
  | srd (f : FmtI)  -- R99
  | swr (f : FmtI)  -- R99
  -- LANE class
  | iadd (f : FmtA)  -- R154
  | iaddImm (f : FmtI)  -- R154
  | isub (f : FmtA)  -- R154
  | isubImm (f : FmtI)  -- R154
  | imul (f : FmtA)  -- R154
  | imulImm (f : FmtI)  -- R154
  | imulh (f : FmtA)  -- R154
  | imad (f : FmtA)  -- R154
  | imin (f : FmtA)  -- R154
  | imax (f : FmtA)  -- R154
  | iabs (f : FmtA)  -- R154
  | ineg (f : FmtA)  -- R154
  | iand (f : FmtA)  -- R154
  | iandImm (f : FmtI)  -- R154
  | ior (f : FmtA)  -- R154
  | iorImm (f : FmtI)  -- R154
  | ixor (f : FmtA)  -- R154
  | ixorImm (f : FmtI)  -- R154
  | inot (f : FmtA)  -- R154
  | ishl (f : FmtA)  -- R154
  | ishlImm (f : FmtI)  -- R154
  | ishr (f : FmtA)  -- R154
  | ishrImm (f : FmtI)  -- R154
  | isar (f : FmtA)  -- R154
  | isarImm (f : FmtI)  -- R154
  | ifunl (f : FmtA)  -- R156
  | ipopc (f : FmtA)  -- R154
  | iclz (f : FmtA)  -- R154
  | ibrev (f : FmtA)  -- R154
  | ibfx (f : FmtA)  -- R156
  | ibfi (f : FmtA)  -- R156
  | icmp (f : FmtA)  -- R154
  | isel (f : FmtA)  -- R154
  | iaddc (f : FmtA)  -- R156
  | idot4 (f : FmtA)  -- R157
  | bperm (f : FmtA)  -- R159
  | bpermImm (f : FmtI)  -- R159
  | fadd (f : FmtA)  -- R161
  | fsub (f : FmtA)  -- R161
  | fmul (f : FmtA)  -- R161
  | ffma (f : FmtA)  -- R161
  | fmin (f : FmtA)  -- R162
  | fmax (f : FmtA)  -- R162
  | fabs (f : FmtA)  -- R162
  | fneg (f : FmtA)  -- R162
  | fcmp (f : FmtA)  -- R162
  | fdiv (f : FmtA)  -- R163
  | frcp (f : FmtA)  -- R163
  | frsq (f : FmtA)  -- R163
  | fsqrt (f : FmtA)  -- R163
  | fexp2 (f : FmtA)  -- R163
  | flog2 (f : FmtA)  -- R163
  | fsin (f : FmtA)  -- R163
  | fcos (f : FmtA)  -- R163
  | ftanh (f : FmtA)  -- R163
  | fclass (f : FmtA)  -- R162
  | fdot2 (f : FmtA)  -- R164
  | cvt (f : FmtA)  -- R167
  | cvtsc (f : FmtA)  -- R168
  | pack (f : FmtA)  -- R169
  | unpk (f : FmtA)  -- R169
  | rng (f : FmtA)  -- R170
  | mov (f : FmtA)  -- R171
  | movi (f : FmtI)  -- R171
  | movh (f : FmtI)  -- R171
  | vrd (f : FmtI)  -- R172
  -- GRP class
  | bra (f : FmtB)  -- R191
  | bru (f : FmtB)  -- R191
  | call (f : FmtB)  -- R191
  | ret (f : FmtA)  -- R191
  | jmpr (f : FmtA)  -- R191
  | exit (f : FmtA)  -- R192
  | meet (f : FmtB)  -- R193
  | join (f : FmtB)  -- R193
  | leave (f : FmtA)  -- R193
  | waitm (f : FmtA)  -- R194
  | maskop (f : FmtA)  -- R195
  | maskmv (f : FmtA)  -- R196
  | maskpc (f : FmtA)  -- R197
  | vote (f : FmtA)  -- R199
  | shfl (f : FmtA)  -- R200
  | bcast (f : FmtA)  -- R201
  | redx (f : FmtA)  -- R202
  | scanx (f : FmtA)  -- R202
  | matchx (f : FmtA)  -- R203
  | sample (f : FmtA)  -- R204
  | dqpop (f : FmtA)  -- R206
  | aqpop (f : FmtA)  -- R206
  -- MEM class
  | ld (f : FmtM)  -- R215
  | st (f : FmtM)  -- R215
  | ldq (f : FmtM)  -- R216
  | stq (f : FmtM)  -- R216
  | pref (f : FmtM)  -- R217
  | prsq (f : FmtM)  -- R218
  | kick (f : FmtM)  -- R269
  | atom (f : FmtT)  -- R225
  | acas (f : FmtT)  -- R226
  | red (f : FmtT)  -- R227
  | binit (f : FmtM)  -- R232
  | barr (f : FmtM)  -- R232
  | barrx (f : FmtM)  -- R232
  | bexp (f : FmtM)  -- R232
  | bwait (f : FmtM)  -- R233
  | btest (f : FmtM)  -- R233
  | bdrop (f : FmtM)  -- R232
  | fence (f : FmtM)  -- R238
  | waitc (f : FmtI)  -- R235
  | waita (f : FmtM)  -- R236
  | cctl (f : FmtM)  -- R239
  -- MTX class
  | mma (f : FmtX)  -- R293
  | mmas (f : FmtX)  -- R293
  | mmax (f : FmtX)  -- R293
  | mzero (f : FmtA)  -- R304
  | mpin (f : FmtA)  -- R302
  | munpin (f : FmtA)  -- R302
  | mstat (f : FmtA)  -- R305
  -- FAR class
  | racc (f : FmtT)  -- R321
  | raccx (f : FmtT)  -- R321
  | rfold (f : FmtT)  -- R321
  | rclr (f : FmtT)  -- R321
  -- SCHED class
  | spawn (f : FmtA)  -- R387
  | step (f : FmtA)  -- R388
  | yield (f : FmtA)  -- R389
  | dieq (f : FmtA)  -- R390
  | hops (f : FmtA)  -- R390
  -- SYS class
  | nop (f : FmtA)  -- R118
  | trap (f : FmtI)  -- R118
  | svc (f : FmtA)  -- R123
  | irq (f : FmtA)  -- R124
  | eret (f : FmtA)  -- R87
  | timrd (f : FmtA)  -- R125
  | timarm (f : FmtA)  -- R126
  | halt (f : FmtA)  -- R120
  -- Microcode of the Saddle port engines (R406)
  | ucLdh (d : BitVec 4) (s : BitVec 8)  -- R406
  | ucSeth (d : BitVec 4) (i : BitVec 20)  -- R406
  | ucAddh (d : BitVec 4) (a : BitVec 4) (i : BitVec 16)  -- R406
  | ucCmpj (a : BitVec 4) (b : BitVec 4) (c : BitVec 3) (t : BitVec 12)  -- R406
  | ucJmp (t : BitVec 12)  -- R406
  | ucComb (c : BitVec 4)  -- R407
  | ucHold (m : BitVec 1)  -- R410
  | ucFwd (p : BitVec 4)  -- R406
  | ucMcst  -- R406
  | ucGath (a : BitVec 4)  -- R406
  | ucDone  -- R412
  | ucDrop (k : BitVec 4)  -- R406
  | ucTmo (c : BitVec 4)  -- R408
  | ucBkup (c : BitVec 4)  -- R409
  | ucCnta (n : BitVec 4) (b : BitVec 4)  -- R415
  | ucEnd  -- R406
  -- Custom instructions of an Awl (R432 to R436)
  | awlGld (s : BitVec 2) (a : BitVec 5) (d : BitVec 5)  -- R432
  | awlGst (s : BitVec 2) (b : BitVec 5) (a : BitVec 5)  -- R432
  | awlBget (l : BitVec 5) (a : BitVec 5)  -- R432
  | awlBput (l : BitVec 5) (a : BitVec 5)  -- R432
  | awlTswr (e : BitVec 5) (i : BitVec 5) (d : BitVec 5)  -- R434
  | awlTsrd (e : BitVec 5) (d : BitVec 5)  -- R435
  | awlRcrd (c : BitVec 5) (d : BitVec 5)  -- R435
  | awlRcwr (v : BitVec 5) (c : BitVec 5)  -- R435
  | awlRcadd (v : BitVec 5) (c : BitVec 5)  -- R435
  | awlWaitev (m : BitVec 5) (d : BitVec 5)  -- R436
  -- Steps of the engines
  /-- R46: Fetches and checks a clause header when threads stand ready at it. Operands: tid (a), port (opt), pc (b). -/
  | clauseFetch
  /-- R181: Releases the held threads of a home warp once every other sibling is held, parked or exited. Operands: tid (a), hw (b), meet (c). -/
  | meetRelease
  /-- R183: A held thread's HOLDCNT reaches 65,536 and its siblings held there are released. Operands: tid (a), hw (b), meet (c). -/
  | holdcntExpiry
  /-- R185: Ends a reforming wait when every participant has arrived or exited and forms one warp. Operands: tid (a), hw (b). -/
  | reformRelease
  /-- R63: A suspended clause becomes ready as a continuation when its lasting condition clears. Operands: tid (a), fid (opt). -/
  | clauseResume
  /-- R82: The lead thread enters the trap handler for a delivered or queued trap. Operands: tid (a). -/
  | trapEntry
  /-- R79: Write of the error-log tail, ignored when it would exceed 4,096 outstanding. Operands: ctx (a), v (b). -/
  | ctxElogTailWrite
  /-- R80: Clears the LOST count of the context error log. Operands: ctx (a). -/
  | ctxElogStatClr
  /-- R120: The lead thread ends after HALT once its outstanding counters are empty. Operands: tid (a). -/
  | haltComplete
  /-- R97: A team retires when its lead thread has ended and all threads exited. Operands: tid (a). -/
  | teamRetire
  /-- R110: A lead push stalled for 2^20 resident clocks raises 0x15. Operands: tid (a). -/
  | queueDisciplineTimeout
  /-- R127: A warp or lead timer reaches 0, sets FIRED and ends eligible parks. Operands: tid (a), hw (opt). -/
  | timerExpiry
  /-- R123: Writes the service record after earlier accesses complete, advances HEAD and raises the service MSI. Operands: op (a). -/
  | svcRecordWrite
  /-- R124: Posts the IRQ's MSI after earlier accesses complete. Operands: op (a). -/
  | irqMsiPost
  /-- R121: Write of the service-area tail, ignored when it would exceed the area size. Operands: ctx (a), v (b). -/
  | ctxSvcTailWrite
  /-- R26: Returned load data is written to every destination copy and the load leaves oc0. Operands: op (a). -/
  | loadComplete
  /-- R255: The home acknowledges a store, which leaves oc1. Operands: op (a). -/
  | storeAck
  /-- R246: A home applies an arriving access in coherence order. Operands: op (a), lane (b). -/
  | homeAccessApply
  /-- R224: An atomic's result returns and is written, leaving oc2. Operands: op (a). -/
  | atomicComplete
  /-- R219: Performs a parked access in the clock after its last absent line becomes present. Operands: op (a), lane (b). -/
  | presenceParkRelease
  /-- R327: A walker completes a page-table walk, filling caches or faulting. Operands: req (a). -/
  | translationWalk
  /-- R329: Posts a translation fault record to the package fault queue and raises the translation MSI, waiting for room. Operands: req (a). -/
  | faultRecordPost
  /-- R331: Host retry reply: the page is walked again and joined accesses re-execute. Operands: tag (a). -/
  | xlatReplyRetry
  /-- R331: Host fail reply: joined accesses receive translation fault 0x08. Operands: tag (a). -/
  | xlatReplyFail
  /-- R232: Applies a barrier-object update indivisibly at its home. Operands: op (a), lane (b). -/
  | barrierUpdateApply
  /-- R233: Writes a parked BWAIT lane's status when the phase changes or ERR or ABANDON sets. Operands: op (a), lane (b). -/
  | bwaitWake
  /-- R237: A line monitor sees a write and the WAITA lane re-reads its location. Operands: op (a), lane (b). -/
  | waitaMonitorWake
  /-- R237: A lane without a monitor re-reads every 256 core clocks. Operands: op (a), lane (b). -/
  | waitaPollReread
  /-- R238: A parked fence completes once its acknowledgements and completions have arrived. Operands: op (a). -/
  | fenceComplete
  /-- R239: A cache control operation finishes and leaves oc1. Operands: op (a). -/
  | cctlComplete
  /-- R314: A core's first RED to a line registers it in the home's holder set, or is refused when full. Operands: op (a), lane (b). -/
  | updateOnlyRegistration
  /-- R317: The home recalls and combines every holder's deltas before an access. Operands: line (a). -/
  | updateOnlyRecall
  /-- R241: Clears REREAD and POLLED. Operands: core (a). -/
  | coreLsStatClr
  /-- R270: The copy engine takes the next kick, checks seal and record, and accepts it. Operands: core (a). -/
  | acceptance
  /-- R260: A piece of a copy request lands, setting presence and applying credits. Operands: req (a), offset (b), most (c). -/
  | copyPiece
  /-- R275: A multicast holding-buffer slot drains to its targets and is released. Operands: slot (a). -/
  | holdingBufferDrain
  /-- R282: Clears the team's kick rejection fields. Operands: tid (a). -/
  | coreKickStatusClr
  /-- R296: The tile fetch unit reads an operand granule, waiting on presence. Operands: op (a). -/
  | tileFetchRead
  /-- R308: The governor lets a queued matrix run start when USED < BUDGET. Operands: core (a), quarter (b). -/
  | matrixRunStart
  /-- R293: A matrix instruction's accumulators are compared and written back, leaving oc4. Operands: op (a). -/
  | matrixWriteback
  /-- R308: Every 256 core clocks USED is reduced and BUDGET loaded from NEXT. Operands: core (a). -/
  | governorWindowBoundary
  /-- R309: Clears the governor stall count. Operands: core (a). -/
  | coreMtxStallClr
  /-- R320: The stack controller applies a far operation in its adder buffer and acknowledges it. Operands: op (a), lane (b). -/
  | farOperationApply
  /-- R332: Write of START begins an invalidation of a context's range. Operands: v (a). -/
  | invalStart
  /-- R332: The invalidation completes after caches, accesses, deltas, pins and alias stores drain. -/
  | invalDone
  /-- R333: Write of the fault-queue tail, ignored when beyond capacity. Operands: v (a). -/
  | msideXfqTailWrite
  /-- R335: Write of a region table entry, reaching all four copies before acknowledgement. Operands: i (a), half (b), v (c). -/
  | msideRegionWrite
  /-- R343: A stack controller scrubs its next line after LINEGAP clocks. Operands: stack (a), outcome (b). -/
  | scrubRead
  /-- R345: Setting VALID in a chip map entry starts carving a slice, or sets CONFLICT. Operands: ctx (a), i (b), v (c). -/
  | carve
  /-- R345: Carving finishes and READY sets. Operands: ctx (a), i (b). -/
  | carveComplete
  /-- R345: Clearing VALID returns the slice to L2 after its accesses complete. Operands: ctx (a), i (b). -/
  | uncarve
  /-- R348: The owner engine copies a tracked granule to the snapshot area before a waiting write. Operands: lid (a), granule (b). -/
  | snapshotCopy
  /-- R349: Copies saved granules back for a replay. Operands: lid (a). -/
  | snapshotRestore
  /-- R350: Clears COPIED and RESTORED. Operands: ctx (a). -/
  | ctxSnapStatClr
  /-- R352: A flit arrives with a CRC error and retransmission is requested. Operands: link (a), failed (b), header check and destination (c), op (d), lane (opt). -/
  | linkRetransmit
  /-- R354: A requester re-sends after 1,024 clocks following a retry answer, failing after 64. Operands: op (a), lane (b). -/
  | retryResend
  /-- R356: Clears REROUTED and RETRIED. Operands: die (a). -/
  | msideNetStatClr
  /-- R359: Host write of CTX_Qq_WRITE, ignored if backward or beyond capacity. Operands: ctx (a), q (b), v (c). -/
  | queueWrite
  /-- R360: The scheduler reads and accepts the record at DISP, or marks it invalid. Operands: ctx (a), q (b). -/
  | launchAccept
  /-- R360: A waiting launch becomes ready when its event counters meet thresholds. Operands: lid (a). -/
  | launchReady
  /-- R369: The scheduler places a waiting team on a core that fits. Operands: lid (a), core (b). -/
  | teamDispatch
  /-- R372: A team's quantum counter reaches 0. Operands: tid (a). -/
  | quantumExpiry
  /-- R373: Saves a team into a save slot at its preemption point. Operands: tid (a). -/
  | teamSave
  /-- R378: Restores a saved team onto an allowed core. Operands: tid (a), core (b). -/
  | teamRestore
  /-- R379: Moves a resident team to another core through the copy engine. Operands: tid (a), core (b). -/
  | teamMove
  /-- R380: An elastic step boundary completes and dies are added or teams withdrawn. Operands: lid (a). -/
  | stepBoundaryComplete
  /-- R381: A launch retires, signals its event counter and lets DONE pass. Operands: lid (a). -/
  | launchRetire
  /-- R383: Kills a launch, withdraws its accesses, marks ABANDON and replays where permitted. Operands: lid (a), code (b). -/
  | launchKill
  /-- R382: Writing an identifier to CTX_KILL kills that launch. Operands: ctx (a), id (b). -/
  | ctxKillLaunch
  /-- R382: Writing ALL kills every live launch of the context. Operands: ctx (a). -/
  | ctxKillAll
  /-- R391: Clears SAVES, MOVES and KILLS. Operands: ctx (a). -/
  | ctxSchedStatClr
  /-- R391: Management write of a virtual die entry, ignored for a harvested die. Operands: ctx (a), i (b), v (c). -/
  | ctxVdieMapWrite
  /-- R396: A Saddle port accepts or discards an alias-window store into its chunk context. Operands: op (a), lane (b). -/
  | aliasStoreAccept
  /-- R398: A tile fires on READY or AUTO, reading its entry and sending leaves and backups. Operands: coll (a), tile (b). -/
  | tileFire
  /-- R393: A packet for another package is routed onward undecrypted. Operands: port (a), destination package (b), bytes (data). -/
  | packetForward
  /-- R404: A packet for this package is matched to a microcode handler, or dropped. Operands: port (a), an arriving packet (data, or empty). -/
  | packetMatch
  /-- R408: A chunk context's deadline raises a timer event at its home port. Operands: port (a), chunk context (b). -/
  | chunkDeadline
  /-- R410: A held packet is presented again when its round condition holds. Operands: held (a). -/
  | heldPacketRelease
  /-- R411: A late notice reaches fixed logic and sets SFLAGS.LATE. Operands: port (a), an arriving packet (data). -/
  | lateNotice
  /-- R411: An acceptance answers a leaf contribution at fixed logic. Operands: port (a), an arriving packet (data). -/
  | leafAcceptance
  /-- R412: A tile completes at a package: status written, round advanced, barrier credited. Operands: coll (a), tile (b). -/
  | tileComplete
  /-- R412: The answer wait expires after TIMEOUT times the root's height plus one. Operands: coll (a), tile (b). -/
  | answerWaitExpiry
  /-- R421: A remote read, write or atomic is performed at this package's home. Operands: package-local address (a), code (b), SIZE + 16 AOP + 256 ATYPE + 4096 E (c), package (d), tag (opt), bytes (data). -/
  | remoteOperation
  /-- R421: A remote read response returns data to the requester. Operands: op (a), lane (b), poisoned (c), bytes (data); or core (a), code address (opt). -/
  | readResponse
  /-- R422: The transport exhausts its retransmissions of an operation. Operands: what was lost (a), its number (b), lane (c). -/
  | transportExhausted
  /-- R417: An armed send fires when its counter meets THRESH. Operands: send (a). -/
  | triggeredSendFire
  /-- R440: A counted put leaves when the port's window allowance covers it. Operands: port (a). -/
  | putInject
  /-- R417: A put acknowledgement arrives; DONE, or DONE with ERR, sets when all are in. Operands: port (a), an arriving packet (data). -/
  | putAcknowledgement
  /-- R424: Write of a collective's configuration, ignored where CBUF or feature rules forbid. Operands: coll (a), v (b). -/
  | saddleCollCfgWrite
  /-- R424: Clears LATE and ERRS. Operands: coll (a). -/
  | saddleCollStatClr
  /-- R424: Clears the port's counts. Operands: port (a). -/
  | saddlePortStatClr
  /-- R423: Write of a receive counter, firing sends whose threshold it meets. Operands: ctr (a), v (b). -/
  | rctrWrite
  /-- R429: Writing RUN starts or stops the Awl hart. Operands: n (a), v (b). -/
  | awlRun
  /-- R429: Resets a stopped Awl hart, clears LOCK and disarms unfired sends. Operands: n (a). -/
  | awlReset
  /-- R443: Starts loading a Tchitas image into a stopped Awl. Operands: n (a), v (b). -/
  | awlLoadGo
  /-- R443: Image verification ends, local memory is written and STATUS set. Operands: n (a). -/
  | awlLoadComplete
  /-- R429: Writing LOCK 1 freezes the Awl's bounds until RESET. Operands: n (a), v (b). -/
  | awlCtxLock
  /-- R429: System software writes the doorbell value and sets the DOORBELL event. Operands: n (a), v (b). -/
  | awlDoorbell
  /-- R429: AWLn_TIMER reaches 0 and sets the TIMER event. Operands: n (a). -/
  | awlTimerExpiry
  /-- R436: A waiting awl.waitev returns when a masked event is pending. Operands: n (a). -/
  | awlWaitevWake
  /-- R427: An Awl exception traps to mtvec, or halts the hart with FAULT. Operands: n (a), cause (b), tval (c). -/
  | awlException
  /-- R454: Power-on or package reset runs bring-up through its five steps. Operands: step (a), failed (b), harvested die (opt), bytes (data). -/
  | packageReset
  /-- R454: Writing LOCK 1 locks every locked field until reset. Operands: v (a), hart (b). -/
  | hostLockWrite
  /-- R467: Writing REQ raises a fatal error with cause 5. Operands: v (a). -/
  | hostFatalReq
  /-- R452: Management firmware sets DUMPED; writes of 0 are ignored. Operands: v (a), hart (b). -/
  | hostFatalDumped
  /-- R452: Management write of SERVICE reloads the watchdog. Operands: v (a), hart (b). -/
  | watchdogService
  /-- R467: The management watchdog reaches 0 and raises fatal cause 3. -/
  | watchdogExpiry
  /-- R466: A sensor at 110 C stops core clocks and raises fatal cause 1. Operands: die (a), reading in 0.125 degrees (b). -/
  | thermalTrip
  /-- R466: Power over limit by 5% for 10,000 ticks loads FLOOR into every NEXT and sets CLAMP. -/
  | powerClamp
  /-- R452: Clears the dropped-MSI count. -/
  | hostMsiStatClr
  /-- R463: Writing GO requests a host credit to a barrier object. Operands: i (a), v (b). -/
  | hostCreditGo
  /-- R463: The host credit is applied after the hart's ordered stores, or FAILED sets. Operands: i (a). -/
  | hostCreditApply
  /-- R464: Writes feature acknowledgements, ignoring unoffered bits. Operands: v (a), word (b). -/
  | hostFeatAckWrite
  /-- R464: Commits acknowledged features, or refuses without bit 0. -/
  | hostFeatCommit
  /-- R459: A device memory request is mapped through an inbound window or refused. Operands: bus address (a), kind (b), length or identity (c), bytes (data). -/
  | pcieInboundRequest
  /-- R458: An INTx message is dropped and counted. -/
  | pcieIntx
  /-- R459: A host access in the outbound range reaches the link. Operands: address (a), bytes (data). -/
  | pcieOutbound
  /-- R455: SPDM GET_VERSION request answered by management firmware. Operands: interface (a), request (data). -/
  | getVersion
  /-- R455: SPDM GET_CAPABILITIES request. Operands: interface (a), request (data). -/
  | getCapabilities
  /-- R455: SPDM NEGOTIATE_ALGORITHMS request. Operands: interface (a), request (data). -/
  | negotiateAlgorithms
  /-- R455: SPDM GET_DIGESTS request. Operands: interface (a), request (data). -/
  | getDigests
  /-- R455: SPDM GET_CERTIFICATE request. Operands: interface (a), request (data). -/
  | getCertificate
  /-- R455: SPDM CHALLENGE request. Operands: interface (a), request (data). -/
  | challenge
  /-- R455: SPDM GET_MEASUREMENTS request answered with dual-signed measurements. Operands: interface (a), index (b), request (data). -/
  | getMeasurements
  /-- R455: SPDM KEY_EXCHANGE request. Operands: interface (a), request (data). -/
  | keyExchange
  /-- R455: SPDM FINISH request. Operands: interface (a), request (data). -/
  | finish
  /-- R455: SPDM END_SESSION request. Operands: interface (a), request (data). -/
  | endSession
  /-- R456: Secured request provisioning a job key into a Saddle key slot. Operands: interface (a), slot (b), job (c), key and digest (data). -/
  | vendorDefinedRequest
  /-- R457: Secured request clearing a key slot. Operands: interface (a), slot (b). -/
  | erase
  /-- R449: Window write of a register field without behaviour of its own. Operands: address (a), v (b), hart (c). -/
  | registerWrite
  /-- R425: An Awl hart executes one standard RV64IMAC, Zicsr, Zifencei or V instruction on its local memory and CSRs. Operands: w (a). -/
  | awlStandardInstruction
  /-- R465: A host hart's physical load or store is checked against its bounds, the register windows, package reachability and its private SRAM before it takes effect. Operands: address (a), bytes of a load (b), hart (c), Awl (opt), bytes of a store (data). -/
  | hostHartAccess
  deriving DecidableEq, Repr

end Sys2Proof
end

