-- ==== Sys2Proof/Machine/State.lean ====
section
/-! DEFINITION. The state of a KJ9 package, the faults and refusals of a step, and the state after reset. -/

namespace Sys2Proof.Machine

/-- What happens next: the model's agenda (log entry 7). It says which party acts and carries what comes from outside. -/
inductive Turn where
  /-- A core's issue port takes its clock: 0 to 3 the quarters, 4 the lead port (R62). -/
  | port (core p : Nat)
  /-- A Saddle port engine issues one microcode instruction (R394). -/
  | handler (p : Nat)
  /-- An Awl executes its next instruction. -/
  | awl (n : Nat)
  /-- A step of an engine. -/
  | event (i : Instr) (x : Arg)
  /-- Steps that fall in one clock, with the Awls and the port engines that act in it, to be taken in the spec's order (R23, R36, R223, R313,
  R385, R423, R435). -/
  | together (l : List (Instr × Arg)) (awls : List Nat := []) (handlers : List Nat := [])
  /-- One clock of a core, of a base die, of a Saddle port, of the host timer (R8). -/
  | tickCore (core : Nat)
  | tickDie (die : Nat)
  | tickPort (p : Nat)
  | tickHost
  /-- A hardware upset for the next instruction. -/
  | upset (u : Upset)
  /-- A memory upset in n bytes from an address of a home, global memory by place in DRAM, with the bits that are wrong: 0 one bit, 1 at
  most one in each 64-bit word, 2 several of one 16-bit symbol, 3 others (R31, R338, R341). -/
  | memUpset (h : Home) (a n bits : Nat)
  /-- An upset in a 32-byte sector of a line of a core's L1, with the context whose data it is (R31, R32). -/
  | l1Upset (core line sector bits ctx : Nat)
  /-- An upset in a 32-byte sector of a node in a chunk context of a Saddle port (R31, R32). -/
  | chunkUpset (port chunk node sector bits : Nat)
  /-- An upset in a 64-bit word of an Awl's local memory (R428). -/
  | awlUpset (n word : Nat) (fixed : Bool)
  /-- An uncorrectable error in a 64-bit word of the management harts' memory (R467). -/
  | sramUpset (word : Nat)
  /-- What the power and temperature sensors read (R466). -/
  | sensors (watts tmax : Nat)
  /-- A cache drops a line, an instruction word or a translation of its own accord (R214, R328); translation caches are those of the cores,
  then those of the base dies and of the Saddle ports. -/
  | evictL1 (core line : Nat)
  | evictInstr (core addr : Nat)
  | evictXlat (core key : Nat)
  /-- The L2 or an adder buffer evicts a line, by place in DRAM divided by 128 (R311, R320). -/
  | evictL2 (line : Nat)
  | evictAdder (line : Nat)
  deriving DecidableEq, Repr

/-- What leaves the package or reaches a host hart, in order (log entry 7). -/
inductive Sent where
  /-- An MSI delivered to an interrupt file of a hart: hart, file, identity (R460, R461). -/
  | msi (hart file eiid : Nat)
  /-- A read, write or atomic for another package: package, operation of the model, lane (R421). -/
  | remoteOp (pkg op lane : Nat)
  /-- A read for another package by an engine (R421): package, package-local address, bytes, and the number of the requester. -/
  | remoteRead (pkg addr len who : Nat)
  /-- Bytes that a copy request writes in another package: package, package-local address, bytes, and which of them are
  poisoned (R33, R242, R420, R421). -/
  | remoteBytes (pkg addr : Nat) (data : List Byte) (poisoned : List Bool)
  /-- A credit of a host hart to a barrier object in another package, which its answer completes (R463): the hart, package, address, bytes,
  ERR. -/
  | hostCredit (hart pkg addr k : Nat) (err : Bool)
  /-- A store or an atomic of a host hart in another package (R421, R448): hart, package, address, code and operation as in REMOTE_OPERATION,
  operand bytes. -/
  | hartOp (hart pkg addr code op : Nat) (data : List Byte)
  /-- A store of an Awl in another package (R421, R432): the Awl, package, package-local address, bytes, and whether they are poisoned. -/
  | awlStore (awl pkg addr : Nat) (data : List Byte) (poisoned : Bool)
  /-- A credit to a barrier object in another package: package, address, bytes, and the POISON and ERR marks. -/
  | remoteCredit (pkg addr k : Nat) (poisoned err : Bool)
  /-- An ABANDON mark for a barrier object in another package. -/
  | remoteAbandon (pkg addr : Nat)
  /-- A packet for another package (R420). -/
  | packet (dst : Nat) (p : Packet)
  /-- A packet of other packages that this Saddle forwards undecrypted (R393, R419): its bytes. -/
  | forward (dst : Nat) (data : List Byte)
  /-- The answer to a remote read or atomic, or the acknowledgement of a remote write, with the requester's tag, and the poisoned
  32-byte sectors of its bytes as bits (R420, R421). -/
  | response (pkg tag : Nat) (data : List Byte) (poison : Nat)
  /-- An answer of the SPDM responder: its code, and what the answer carries (R455, R456); in a secured message, with its interface and its
  sequence number. -/
  | spdm (code : Nat) (data : List Byte)
  | spdmSecured (interface seq code : Nat) (data : List Byte)
  /-- What the root port sends (R459): a write, or a read of so many bytes with a tag, of a host hart, to memory or configuration space; a
  completion of a device's read, with its poisoned 32-byte sectors; a completion as an unsupported request. -/
  | pcieOut (config : Bool) (addr : Nat) (data : List Byte)
  | pcieRead (config : Bool) (addr len tag : Nat)
  | pcieData (data : List Byte) (poison : Nat)
  | pcieUr
  /-- The value of a host hart's load, and an access fault on the hart: load or store (R448, R449, R465, R469). -/
  | hartData (hart : Nat) (data : List Byte)
  | hartFault (hart : Nat) (store : Bool)
  deriving DecidableEq, Repr

/-- The state of the package. -/
structure State where
  /-- The party whose instruction executes (log entry 7). -/
  who : Party := .nobody
  /-- The operands of the step of an engine that executes (log entry 7). -/
  arg : Arg := {}
  agenda : List Turn := []
  /-- Rounds of steps begun, in each of which every working core has a clock (log entry 7). -/
  rounds : Nat := 0
  upset : Option Upset := none
  /-- Free values drawn so far (log entry 9). -/
  free : Nat := 0
  /-- The next number for a team, launch, operation, request or gang of the model (log entry 7). -/
  nextId : Nat := 0
  teams : Tab Team := []
  launches : Tab Launch := []
  gangs : Tab Gang := []
  ctxs : Tab Ctx := []
  /-- Cores, numbered physical die × 20 + core; an unlisted core is at reset. -/
  cores : Tab Core := []
  ops : Tab Op := []
  copies : Tab Copy := []
  forwards : List Forward := []
  slots : Tab Slot := []
  /-- Global memory of the package by place in DRAM (R336): stack × 2^36 + stack-local address. -/
  glob : Space := {}
  /-- The protection mode under which each of its bytes was last written, for those written through a leaf (R340). -/
  modes : Tab Nat := []
  /-- The protection mode of the leaf through which the access that executes goes (log entry 130). -/
  via : Option Nat := none
  /-- The scope declared by the last BINIT of this package for each object in another one, by physical address (R230). -/
  farScopes : Tab Nat := []
  /-- Carved slices (base die × 64 + slice), and the context and granule each serves (R344). -/
  chips : Tab Space := []
  ms : MemSide := {}
  /-- The Saddle's routing table: the external ports that carry a route to a package (R469). -/
  routes : Tab (List Nat) := []
  /-- HOST_PKGID.PKG (R454). -/
  pkg : Nat := 0
  /-- The harvested compute die of a KJ9-7; none on a KJ9-8 (R2, HOST_PKGID MODEL and HDIE). -/
  hdie : Option Nat := none
  /-- The package error log registers, with the fields of R80 (R468). -/
  elogBase : Nat := 0
  elogHead : Nat := 0
  elogTail : Nat := 0
  elogLost : Nat := 0
  elogThresh : Nat := 0
  elogMsien : Bool := false
  /-- The package MSI table (R461), and messages dropped (R452). -/
  msiTab : Tab Nat := []
  msiDropped : Nat := 0
  sad : Saddle := {}
  /-- Awls 0 to 21; an unlisted one is at reset. -/
  awls : Tab Awl := []
  host : HostCx := {}
  sent : List Sent := []
  deriving DecidableEq, Repr

/-- Faults of a step. Nothing raises one: every fault of the spec is taken as the spec describes it, in a next state. -/
inductive Fault where
  /-- Never raised; a machine with no fault of its own. Safe. -/
  | none
  deriving DecidableEq, Repr

/-- Refusals of a step. -/
inductive Refusal where
  /-- Raised by an arm of `exec` whose instruction has no meaning yet. Safe: the machine stops. -/
  | notModelled (mnemonic : String)
  deriving DecidableEq, Repr

/-- The package after reset: every register at the value the spec gives; where it gives none, the value of the log
entry that INVENTORY.md names. -/
def State.reset : State := {}

end Sys2Proof.Machine
end

