-- ==== Sys2Proof/Machine/Access.lean ====
section
/-! DEFINITION. Reading and changing one part of the state: teams, threads, home warps, registers, masks, counters. -/

namespace Sys2Proof.Machine

/-- The number of free values drawn rises by one; the value is that of the opaque constant of Config (log entry 9). -/
def State.drawn (s : State) : State := { s with free := s.free + 1 }

/-- Change a team. -/
def State.updTeam (s : State) (tid : Nat) (f : Team → Team) : State := { s with teams := s.teams.upd tid f }

/-- Change a launch. -/
def State.updLaunch (s : State) (lid : Nat) (f : Launch → Launch) : State := { s with launches := s.launches.upd lid f }

/-- A context; one that was never written is at reset. -/
def State.ctx (s : State) (c : Nat) : Ctx := s.ctxs.get {} c

/-- Change a context. -/
def State.updCtx (s : State) (c : Nat) (f : Ctx → Ctx) : State := { s with ctxs := s.ctxs.put c (f (s.ctx c)) }

/-- A core; one that was never changed is at reset. -/
def State.core (s : State) (c : Nat) : Core := s.cores.get {} c

/-- Change a core. -/
def State.updCore (s : State) (c : Nat) (f : Core → Core) : State := { s with cores := s.cores.put c (f (s.core c)) }

/-- Change an operation in flight. -/
def State.updOp (s : State) (id : Nat) (f : Op → Op) : State := { s with ops := s.ops.upd id f }

/-- Change one lane's access of an operation. -/
def State.updAcc (s : State) (id lane : Nat) (f : Acc → Acc) : State :=
  s.updOp id (fun o => { o with lanes := o.lanes.map (fun a => if a.lane = lane then f a else a) })

/-- A feature that system software has acknowledged (R464). -/
def State.feature (s : State) (n : Nat) : Bool := bit s.host.ack0.toNat n

/-- Change the memory-side state. -/
def State.updMs (s : State) (f : MemSide → MemSide) : State := { s with ms := f s.ms }

/-- Put turns at the front of the agenda. -/
def State.soon (s : State) (l : List Turn) : State := { s with agenda := l ++ s.agenda }

/-! ## Teams -/

/-- Change the lead thread of a team. -/
def State.updLead (s : State) (tid : Nat) (f : Lead → Lead) : State := s.updTeam tid (fun t => { t with lead := f t.lead })

/-- Change a thread of a team. -/
def State.updThread (s : State) (tid th : Nat) (f : Thread → Thread) : State :=
  s.updTeam tid (fun t => { t with threads := t.threads.upd th f })

/-- Change a home warp of a team. -/
def State.updHw (s : State) (tid hw : Nat) (f : HomeWarp → HomeWarp) : State :=
  s.updTeam tid (fun t => { t with warps := t.warps.upd hw f })

/-- Change a formed warp of a team. -/
def State.updWarp (s : State) (tid fid : Nat) (f : Warp → Warp) : State :=
  s.updTeam tid (fun t => { t with formed := t.formed.upd fid f })

/-- Home warp of a thread (R172 THREAD). -/
def Team.hwOf (t : Team) (th : Nat) : Nat := th / t.width

/-- Home lane of a thread (R172 THREAD). -/
def Team.laneOf (t : Team) (th : Nat) : Nat := th % t.width

/-- A thread that has not exited. -/
def Thread.live (th : Thread) : Bool := th.run != .exited

/-- Threads that have not exited (LEAD_STATUS.LIVE, R100). -/
def Team.liveCount (t : Team) : Nat := (t.threads.vals.filter Thread.live).length

/-- A lead register (R96). -/
def Team.sreg (t : Team) (n : Nat) : Nat := (t.lead.regs.get 0 n).toNat

/-- Write a lead register, modulo 2^64. -/
def State.setS (s : State) (tid n v : Nat) : State :=
  s.updLead tid (fun l => { l with regs := l.regs.set 0 n (BitVec.ofNat 64 v), wrote := l.wrote.put n s.nextId })

/-- A thread register (R130). -/
def Thread.vreg (t : Thread) (n : Nat) : Nat := (t.regs.get 0 n).toNat

/-- The 64-bit value of a register pair (R134). -/
def Thread.vpair (t : Thread) (n : Nat) : Nat := t.vreg n + 2 ^ 32 * t.vreg (n + 1)

/-- Write registers of one thread: a list of register numbers and 32-bit values; the writes are marked with the operation number that is
next. -/
def Thread.setRegs (t : Thread) (next : Nat) (w : List (Nat × Nat)) : Thread :=
  { t with regs := w.foldl (fun r p => r.set 0 p.1 (BitVec.ofNat 32 p.2)) t.regs, wrote := w.foldl (fun m p => m.put p.1 next) t.wrote }

/-- The same for the accumulators that a matrix instruction writes. -/
def Thread.setAccs (t : Thread) (next : Nat) (w : List (Nat × Nat)) : Thread :=
  { t with regs := w.foldl (fun r p => r.set 0 p.1 (BitVec.ofNat 32 p.2)) t.regs, wroteMx := w.foldl (fun m p => m.put p.1 next) t.wroteMx }

/-- The two register writes of a 64-bit value (R134). -/
def pairWrites (n v : Nat) : List (Nat × Nat) := [(n, v % 2 ^ 32), (n + 1, v / 2 ^ 32 % 2 ^ 32)]

/-- Write registers of several threads of a team. -/
def State.setV (s : State) (tid : Nat) (w : List (Nat × List (Nat × Nat))) : State :=
  s.updTeam tid (fun t => { t with threads := w.foldl (fun ts p => ts.upd p.1 (fun th => th.setRegs s.nextId p.2)) t.threads })

/-- A mask register of a home warp (R176). -/
def HomeWarp.mask (h : HomeWarp) (k : Nat) : Nat := (h.masks.get 0 k).toNat

/-- Write a mask register; bits at or above the width stay 0 (R176). -/
def State.setMask (s : State) (tid hw k v : Nat) : State :=
  s.updTeam tid (fun t => { t with
    warps := t.warps.upd hw (fun h => { h with masks := h.masks.set 0 k (BitVec.ofNat 64 (v % 2 ^ t.width)) }) })

/-- The thread is enabled by the mask an instruction selects (R176). -/
def Team.enabled (t : Team) (msel th : Nat) : Bool :=
  if msel = 0 then true
  else match t.warps.look (t.hwOf th) with
    | some h => bit (h.mask (msel - 1)) (t.laneOf th)
    | none => false

/-- `lanes_active` of R13: the threads of a formed warp enabled by the mask, in ascending home lane. -/
def Team.active (t : Team) (w : Warp) (msel : Nat) : List Nat := w.threads.filter (fun th => t.enabled msel th)

/-- The home warps that have a thread in a list, ascending. -/
def Team.hwsOf (t : Team) (l : List Nat) : List Nat := l.foldl (fun acc th => NatSet.ins acc (t.hwOf th)) []

/-- A set of threads as a word, bit h for home lane h (R76). -/
def Team.laneMask (t : Team) (l : List Nat) : Nat := maskOf (l.map t.laneOf)

/-- A thread of a team; an exited dummy where there is none. -/
def Team.thread (t : Team) (th : Nat) : Thread := t.threads.get { run := .exited } th

/-! ## Outstanding counters (R26, R27) -/

/-- The value of a counter. -/
def countOf (o : Counters) (c : Nat) : Nat := (o.get [] c).length

/-- An operation enters a counter. -/
def enter (o : Counters) (c op : Nat) : Counters := o.set [] c (o.get [] c ++ [{ op := op, done := false }])

/-- Drop completed operations from the head: they leave in issue order (R26). -/
def leaveHead : List OcEntry → List OcEntry
  | [] => []
  | e :: t => if e.done then leaveHead t else e :: t

/-- An operation has completed. -/
def finish (o : Counters) (c op : Nat) : Counters :=
  o.set [] c (leaveHead ((o.get [] c).map (fun e => if e.op = op then { e with done := true } else e)))

/-- The counter of a lead thread or of the home warps of a formed warp is at most n for every one of them (R27). -/
def Team.countLe (t : Team) (hws : List Nat) (lead : Bool) (c n : Nat) : Bool :=
  if lead then decide (countOf t.lead.oc c ≤ n)
  else hws.all (fun h => decide (countOf (t.warps.get {} h).oc c ≤ n))

/-- The counter stands at 63 in some home warp concerned, or for the lead thread (R27, R63). -/
def Team.countFull (t : Team) (hws : List Nat) (lead : Bool) (c : Nat) : Bool := !t.countLe hws lead c 62

/-- An operation enters its counter in each home warp concerned, or in the lead thread's own set (R26, R27). -/
def State.enterOc (s : State) (tid : Nat) (lead : Bool) (hws : List Nat) (c op : Nat) : State :=
  if lead then s.updLead tid (fun l => { l with oc := enter l.oc c op })
  else hws.foldl (fun s h => s.updHw tid h (fun w => { w with oc := enter w.oc c op })) s

/-- An operation completes in its counter. -/
def State.leaveOc (s : State) (tid : Nat) (lead : Bool) (hws : List Nat) (c op : Nat) : State :=
  if lead then s.updLead tid (fun l => { l with oc := finish l.oc c op })
  else hws.foldl (fun s h => s.updHw tid h (fun w => { w with oc := finish w.oc c op })) s

/-- Remove an operation; it leaves its counters. -/
def State.endOp (s : State) (id : Nat) : State :=
  match s.ops.look id with
  | none => s
  | some o =>
    let s := { s with ops := s.ops.del id }
    match o.counter with
    | none => s
    | some c => s.leaveOc o.tid o.fid.isNone o.hws c id

/-! ## Dies and cores -/

/-- Physical die of a core. -/
def dieOf (core : Nat) : Nat := core / 20

/-- Base die of a compute die (R14). -/
def baseOf (die : Nat) : Nat := die / 2

/-- Cluster of a core, numbered die × 5 + cluster (R3). -/
def clusterOf (core : Nat) : Nat := core / 20 * 5 + core % 20 / 4

/-- Partner core of a pair (R3): cores 0 and 1, and 2 and 3, of a cluster. -/
def partnerOf (core : Nat) : Nat := if core % 2 = 0 then core + 1 else core - 1

/-- The core a formed warp runs on: quarters 4 to 7 are the partner's. -/
def Team.coreOf (t : Team) (quarter : Nat) : Nat := if 4 ≤ quarter then t.core + 1 else t.core

/-- A resident team of a live launch that is not being killed may issue (R383), once its declared inputs are accepted (R279). -/
def State.mayIssue (s : State) (t : Team) : Bool :=
  t.place == .resident && t.inputs.isEmpty && (match s.launches.look t.launch with
    | some l => l.killing.isNone
    | none => true)

end Sys2Proof.Machine
end

