-- ==== Sys2Proof/WellFormed.lean ====
section
/-! DEFINITION. Which instruction words are legal: every check of the encoding chapters that depends on the word and the
fetching stream alone. A word that fails one is illegal encoding (0x01). The checks that need the declared register
count (R132), the mode or the position in the clause (R41) are made at issue. -/

namespace Sys2Proof

/-- Why a word is illegal encoding. -/
inductive Illegal where
  | opcode | pclass | msel | reserved | register | zsel | retain | variant | kind
  | ord | scope | evict | space | size | aop | atype | offset | immediate | number | stream
  deriving DecidableEq, Repr

/-- The first failed check of a list of checks. -/
def firstBad : List (Bool × Illegal) → Option Illegal
  | [] => none
  | (ok, e) :: t => if ok then firstBad t else some e

/-- How format A fields are used by an instruction: whether A, B and C are operands, the limits of each field, and the
MOD values allowed. -/
structure UseA where
  a : Bool := false
  b : Bool := false
  c : Bool := false
  d : Bool := false
  /-- A multiple that each register field must keep: 1, or 2 for a pair, or more for a group. -/
  ma : Nat := 1
  mb : Nat := 1
  mc : Nat := 1
  md : Nat := 1
  /-- Largest value of each field. -/
  la : Nat := 511
  lb : Nat := 511
  lc : Nat := 511
  ld : Nat := 511
  mdOk : Bool := true
  deriving DecidableEq, Repr

/-- A source field of format A: used and in range, replaced by a literal zero (R51), or reserved (R50). -/
def srcOk (used : Bool) (z : Bool) (v mult lim : Nat) : List (Bool × Illegal) :=
  [ (used || !z, .zsel), (!z || v == 0, .zsel), (used || v == 0, .reserved),
    (!used || (v % mult == 0 && decide (v ≤ lim)), .register) ]

/-- The checks of PCLASS and MSEL (R47). -/
def lowOk (lead : Bool) (msel pclass : Nat) : List (Bool × Illegal) :=
  [ (pclass != 3, .pclass), (decide (msel ≤ 12), .msel), (!lead || msel == 0, .msel) ]

/-- Largest register number of a stream (R57). -/
def regMax (lead : Bool) : Nat := if lead then 127 else 511

/-- The checks of a format A word (R50 to R52, R57). -/
def chkA (lead : Bool) (u : UseA) (f : FmtA) : List (Bool × Illegal) :=
  let za := f.zsel.toNat % 2 == 1
  let zb := f.zsel.toNat / 2 % 2 == 1
  let zc := f.zsel.toNat / 4 == 1
  let r := f.retain.toNat
  let m := regMax lead
  lowOk lead f.msel.toNat f.pclass.toNat ++ [(u.mdOk, .variant)]
    ++ srcOk u.a za f.a.toNat u.ma (min u.la m)
    ++ srcOk u.b zb f.b.toNat u.mb (min u.lb m)
    ++ srcOk u.c zc f.c.toNat u.mc (min u.lc m)
    ++ [ (if u.d then f.dst.toNat % u.md == 0 && decide (f.dst.toNat ≤ min u.ld m) else f.dst.toNat == 0,
          if u.d then .register else .reserved),
         (r == 0 || (r == 1 && u.a && !za) || (r == 2 && u.b && !zb) || (r == 3 && u.c && !zc), .retain) ]

/-- The checks of a format I word: which of A and DST are registers, and whether IMM is in range. -/
def chkI (lead usesA usesD immOk : Bool) (f : FmtI) : List (Bool × Illegal) :=
  lowOk lead f.msel.toNat f.pclass.toNat
    ++ [ (if usesA then decide (f.a.toNat ≤ regMax lead) else f.a.toNat == 0, .register),
         (if usesD then decide (f.dst.toNat ≤ regMax lead) else f.dst.toNat == 0, .register),
         (immOk, .immediate) ]

/-- The checks of a format B word: the KINDs allowed, and the register field. -/
def chkB (lead : Bool) (kinds : Nat) (usesReg : Bool) (mult : Nat) (f : FmtB) : List (Bool × Illegal) :=
  lowOk lead f.msel.toNat f.pclass.toNat
    ++ [ (decide (f.kind.toNat < kinds), .kind),
         (if usesReg then f.reg.toNat % mult == 0 && decide (f.reg.toNat ≤ regMax lead) else f.reg.toNat == 0,
          .register) ]

/-- Registers in a DATA group (R212). -/
def groupRegs (size : Nat) : Nat := if size ≤ 2 then 1 else 2 ^ (size - 2)

/-- The checks common to format M: registers, evenness of a lane address pair (R209), EVICT by space (R214). -/
def chkM (lead : Bool) (space evict addr data mult msel pclass : Nat) : List (Bool × Illegal) :=
  lowOk lead msel pclass
    ++ [ (decide (evict ≤ 6) && (evict == 0 || space == 0 || space == 4 || space == 5), .evict),
         (decide (addr ≤ regMax lead) && (lead || space != 0 || addr % 2 == 0), .register),
         (decide (data ≤ regMax lead) && (lead || data % mult == 0), .register) ]

/-- A strong access by its fields (R244). -/
def strongFields (scope ord : Nat) : Bool := decide (1 ≤ scope) || ord != 0

/-- LD, ST, LDQ, STQ, SLD, SST (R53, R104, R215, R216). -/
def chkAccess (lead store strip : Bool) (f : FmtM) : List (Bool × Illegal) :=
  let sp := f.space.toNat
  let sz := f.size.toNat
  chkM lead sp f.evict.toNat f.addr.toNat f.data.toNat (groupRegs sz) f.msel.toNat f.pclass.toNat
    ++ [ (if lead || strip then sp == 0 || sp == 2 || sp == 3 || sp == 4 else decide (sp ≤ 5), .space),
         (if lead then decide (sz ≤ 4) else decide (sz ≤ 6), .size),
         (decide (sz ≤ 4) || !strongFields f.scope.toNat f.ord.toNat, .size),
         (f.ord.toNat != (if store then 1 else 2), .ord),
         (!lead || sz != 4 || f.data.toNat != 127, .register) ]

/-- PREF (R217), PRSQ (R218), KICK (R269): fixed fields. -/
def chkPref (f : FmtM) : List (Bool × Illegal) :=
  chkM false f.space.toNat f.evict.toNat f.addr.toNat f.data.toNat 1 f.msel.toNat f.pclass.toNat
    ++ [ (f.ord.toNat == 0, .ord), (f.scope.toNat == 0, .scope), (f.size.toNat == 0, .size), (f.data.toNat == 0, .reserved),
         (f.space.toNat == 0 || f.space.toNat == 4 || f.space.toNat == 5, .space) ]

def chkPrsq (f : FmtM) : List (Bool × Illegal) :=
  chkM false f.space.toNat f.evict.toNat f.addr.toNat f.data.toNat 1 f.msel.toNat f.pclass.toNat
    ++ [ (f.ord.toNat == 0, .ord), (f.scope.toNat == 0, .scope), (f.size.toNat == 2, .size), (f.evict.toNat == 0, .evict),
         (f.space.toNat == 2 || f.space.toNat == 3, .space) ]

def chkKick (lead : Bool) (f : FmtM) : List (Bool × Illegal) :=
  chkM lead f.space.toNat f.evict.toNat f.addr.toNat f.data.toNat 1 f.msel.toNat f.pclass.toNat
    ++ [ (f.ord.toNat == 0, .ord), (f.scope.toNat == 0, .scope), (f.size.toNat == 2, .size), (f.evict.toNat == 0, .evict),
         (f.space.toNat == 2, .space) ]

/-- A space that an atomic, a barrier object or a wait may name (R224, R229, R236). -/
def plainSpace (sp : Nat) : Bool := sp == 0 || sp == 2 || sp == 3 || sp == 4

/-- ATOM, ACAS, RED (R54, R224 to R228). -/
def chkAtom (f : FmtT) (ops types sizes : List Nat) (ords : List Nat) (mult : Nat) : List (Bool × Illegal) :=
  chkM false f.space.toNat f.evict.toNat f.addr.toNat f.data.toNat mult f.msel.toNat f.pclass.toNat
    ++ [ (plainSpace f.space.toNat, .space), (decide (1 ≤ f.scope.toNat), .scope), (ords.contains f.ord.toNat, .ord),
         (ops.contains f.aop.toNat, .aop), (types.contains f.atype.toNat, .atype), (sizes.contains f.size.toNat, .size),
         (f.atype.toNat != 4 || f.offset.toNat % 4 == 0, .offset) ]

def chkRed (f : FmtT) : List (Bool × Illegal) :=
  match f.atype.toNat with
  | 2 => chkAtom f [0] [2] [2] [0, 2] 1
  | 4 => chkAtom f [0] [4] [4] [0, 2] 1
  | _ => chkAtom f [0, 1, 2, 3, 4, 5] [0, 1] [2, 3] [0, 2] (groupRegs f.size.toNat)

/-- Barrier-object instructions (R231). -/
def chkBar (lead init : Bool) (f : FmtM) : List (Bool × Illegal) :=
  chkM lead f.space.toNat f.evict.toNat f.addr.toNat f.data.toNat 1 f.msel.toNat f.pclass.toNat
    ++ [ (plainSpace f.space.toNat, .space), (f.size.toNat == 4, .size), (f.evict.toNat == 0, .evict), (f.ord.toNat == 0, .ord),
         (if init then decide (1 ≤ f.scope.toNat) else f.scope.toNat == 0, .scope) ]

/-- WAITA (R236): EVICT holds COND. -/
def chkWaita (lead : Bool) (f : FmtM) : List (Bool × Illegal) :=
  chkM lead f.space.toNat 0 f.addr.toNat f.data.toNat (groupRegs f.size.toNat) f.msel.toNat f.pclass.toNat
    ++ [ (plainSpace f.space.toNat, .space), (f.size.toNat == 2 || f.size.toNat == 3, .size),
         (decide (1 ≤ f.scope.toNat), .scope), (decide (f.ord.toNat ≤ 1), .ord), (decide (f.evict.toNat ≤ 1), .evict) ]

/-- FENCE (R238). -/
def chkFence (lead : Bool) (f : FmtM) : List (Bool × Illegal) :=
  lowOk lead f.msel.toNat f.pclass.toNat
    ++ [ (f.ord.toNat != 0, .ord), (decide (1 ≤ f.scope.toNat), .scope), (f.data.toNat == 0 && f.addr.toNat == 0, .reserved),
         (f.evict.toNat == 0, .evict), (f.space.toNat == 0, .space), (f.size.toNat == 0, .size), (f.offset.toNat == 0, .offset) ]

/-- CCTL (R239). -/
def chkCctl (f : FmtM) : List (Bool × Illegal) :=
  lowOk false f.msel.toNat f.pclass.toNat
    ++ [ (decide (f.data.toNat ≤ 3), .variant), (f.ord.toNat == 0, .ord), (f.scope.toNat == 0, .scope), (f.evict.toNat == 0, .evict),
         (f.space.toNat == 0, .space), (f.size.toNat == 0, .size),
         (f.data.toNat == 2 || (f.addr.toNat == 0 && f.offset.toNat == 0), .reserved), (f.addr.toNat % 2 == 0, .register) ]

/-- The far operations (R319). -/
def chkFar (f : FmtT) (types sizes : List Nat) (mult : Nat) (offsetOk dataOk : Bool) : List (Bool × Illegal) :=
  chkM false f.space.toNat f.evict.toNat f.addr.toNat f.data.toNat mult f.msel.toNat f.pclass.toNat
    ++ [ (f.space.toNat == 0, .space), (f.evict.toNat == 0, .evict), (f.ord.toNat == 0, .ord), (decide (5 ≤ f.scope.toNat), .scope),
         (f.aop.toNat == 0, .aop), (types.contains f.atype.toNat, .atype), (sizes.contains f.size.toNat, .size),
         (offsetOk, .offset), (dataOk, .reserved) ]

def chkRacc (f : FmtT) : List (Bool × Illegal) :=
  if 2 ≤ f.atype.toNat then chkFar f [2, 3] [2] 1 true true
  else chkFar f [0, 1] [2, 3] (groupRegs f.size.toNat) true true

/-- Format X (R56, R285, R291, R295). -/
def chkX (fmtMax : Nat) (f : FmtX) : List (Bool × Illegal) :=
  lowOk false f.msel.toNat f.pclass.toNat
    ++ [ (f.shape.toNat != 3, .variant), (f.sparse.toNat != 3, .variant), (f.opsrc.toNat != 3, .space),
         (decide (f.fmt.toNat ≤ fmtMax), .variant), (f.nobar.toNat == 0 || f.bar.toNat == 0, .reserved),
         (f.acc.toNat % 16 == 0, .register), (f.bdesc.toNat % 2 == 0, .register) ]

/-- The special registers that SRD and SWR may name (R80, R81, R86, R100, R121, R241, R282, R309, R346, R350, R391). -/
def srdNumbers (n : Nat) : Bool :=
  decide (n ≤ 0x002) || (decide (0x100 ≤ n) && decide (n ≤ 0x108)) || n == 0x10A || n == 0x10B
    || (decide (0x110 ≤ n) && decide (n ≤ 0x11A)) || (decide (0x120 ≤ n) && decide (n ≤ 0x127))
    || (decide (0x130 ≤ n) && decide (n ≤ 0x132)) || n == 0x140 || n == 0x141 || n == 0x150 || n == 0x151
    || n == 0x160 || n == 0x161 || (decide (0x200 ≤ n) && decide (n ≤ 0x2FF))

/-- MOD of an integer instruction (R153, R154): which of W64, NAT, SAT may be set, and the SUB values allowed. -/
def intMod (m : Nat) (w64 nat sat : Bool) (sub : List Nat) : Bool :=
  (w64 || m % 2 == 0) && (nat || m / 2 % 2 == 0) && (sat || m / 4 % 2 == 0) && sub.contains (m / 8)

/-- MOD of a floating instruction (R160): TYPE and RM ranges. -/
def floatMod (m rmMax : Nat) : Bool := decide (m % 4 ≤ 2) && decide (m / 4 ≤ rmMax)

/-- An integer instruction of R154 with its operand widths (R155). -/
def chkInt (f : FmtA) (a b c : Bool) (mdOk : Bool) (singleB singleC singleD pairD : Bool) : List (Bool × Illegal) :=
  let w := if f.md.toNat % 2 == 1 then 2 else 1
  chkA false { a := a, b := b, c := c, d := true, ma := w, mb := if singleB then 1 else w, mc := if singleC then 1 else w,
               md := if pairD then 2 else if singleD then 1 else w, mdOk := mdOk } f

/-- A floating instruction of R161 and R162. -/
def chkFlt (f : FmtA) (a b c : Bool) (rmMax : Nat) : List (Bool × Illegal) :=
  chkA false { a := a, b := b, c := c, d := true, mdOk := floatMod f.md.toNat rmMax } f

/-- FADD, FSUB, FMUL: C is the random operand of .RS (R161). -/
def chkFltRs (f : FmtA) : List (Bool × Illegal) := chkFlt f true true (f.md.toNat / 4 == 4) 4

/-- CVT (R166): C holds a control word. -/
def chkCvt (f : FmtA) : List (Bool × Illegal) :=
  let src := f.c.toNat % 16
  let dst := f.md.toNat % 16
  let rm := f.md.toNat / 16
  let u : UseA := { a := true, b := rm == 4, c := false, d := true, ma := if src == 3 || src == 7 then 2 else 1,
                    md := if dst == 3 || dst == 7 then 2 else 1,
                    mdOk := decide (rm ≤ 4) && decide (src ≤ 13) && decide (dst ≤ 13) && (!(decide (src ≤ 7) && decide (dst ≤ 7)) || rm == 0) }
  [ (f.zsel.toNat / 2 == 0, .zsel), (f.retain.toNat != 3, .retain), (decide (f.c.toNat < 32), .reserved) ]
    ++ chkA false u { f with c := 0 }

/-- C field of CVT: bits 46:43 the source type, bit 47 SAT; within the field, bits 3:0 and 4. -/
def chkCvtsc (f : FmtA) : List (Bool × Illegal) :=
  let m := f.md.toNat
  chkA false { a := true, b := true, c := m / 16 == 4, d := true,
               mdOk := m % 4 != 3 && (m / 4 % 2 == 0 || m / 8 % 2 == 0) && decide (m / 16 ≤ 4) } f

/-- PACK and UNPK (R169). -/
def chkPack (f : FmtA) (unpack : Bool) : List (Bool × Illegal) :=
  let m := f.md.toNat
  let size := m % 4
  let idx := m / 4 % 8
  chkA false { a := true, b := !unpack, d := true,
               mdOk := size != 3 && decide (idx < 8 / 2 ^ size) && (unpack || m / 32 % 2 == 0) && decide (m < 64) } f

/-- MASKOP (R195) and MASKMV (R196). -/
def chkMaskop (f : FmtA) : List (Bool × Illegal) :=
  let op := f.md.toNat
  chkA false { a := decide (op ≤ 5), b := decide (op ≤ 3), d := true, la := 11, lb := 11, ld := 11, mdOk := decide (op < 8) } f

def chkMaskmv (f : FmtA) : List (Bool × Illegal) :=
  match f.md.toNat with
  | 0 => chkA false { a := true, d := true, la := 11 } f
  | 1 => chkA false { a := true, d := true, ld := 11 } f
  | 2 => chkA false { a := true, d := true, la := 11, md := 2 } f
  | 3 => chkA false { a := true, d := true, ld := 11, ma := 2 } f
  | _ => [(false, .variant)]

/-- VOTE (R199). -/
def chkVote (f : FmtA) : List (Bool × Illegal) :=
  let m := f.md.toNat
  chkA false { a := true, d := true, md := if m % 8 == 4 then 2 else 1,
               mdOk := decide (m % 8 ≤ 5) && decide (m < 16) && !(m % 8 == 5 && m / 8 == 1) } f

/-- SHFL (R200). -/
def chkShfl (f : FmtA) : List (Bool × Illegal) :=
  let w := if f.md.toNat / 4 % 2 == 1 then 2 else 1
  chkA false { a := true, b := true, d := true, ma := w, md := w, mdOk := decide (f.md.toNat / 8 % 8 ≤ 5) } f

/-- BCAST (R201). -/
def chkBcast (f : FmtA) : List (Bool × Illegal) :=
  let w := if f.md.toNat / 2 % 2 == 1 then 2 else 1
  chkA false { a := true, b := f.md.toNat % 2 == 0, d := true, ma := w, md := w, mdOk := decide (f.md.toNat < 4) } f

/-- REDX and SCANX (R202). -/
def chkRedx (f : FmtA) (scan : Bool) : List (Bool × Illegal) :=
  let m := f.md.toNat
  let op := m % 8
  let ty := m / 8 % 4
  let hi := m / 32
  let w := if ty == 1 then 2 else 1
  chkA false { a := true, d := true, ma := w, md := w,
               mdOk := ty != 3 && (ty != 2 || decide (op ≤ 2)) && (if scan then decide (hi ≤ 1) else hi == 0 || (ty == 2 && op == 0)) } f

/-- MATCHX (R203), DQPOP and AQPOP (R206). -/
def chkMatchx (f : FmtA) : List (Bool × Illegal) :=
  chkA false { a := true, d := true, ma := if f.md.toNat % 2 == 1 then 2 else 1, md := 2, mdOk := decide (f.md.toNat < 2) } f

def chkPop (f : FmtA) (lim : Nat) : List (Bool × Illegal) :=
  chkA false { d := true, md := if f.md.toNat % 2 == 1 then 2 else 1, mdOk := decide (f.md.toNat < lim) } f

/-- An IMM within bounds when read as a signed or natural number. -/
def immBelow (f : FmtI) (n : Nat) : Bool := decide (f.imm.toNat < n)

/-- BPERM in the I form: IMM bits 29:20 are 0 and no mode is 3 (R159). -/
def bpermImm (n : Nat) : Bool :=
  decide (n < 2 ^ 20) && n / 8 % 4 != 3 && n / 256 % 4 != 3 && n / 2 ^ 13 % 4 != 3 && n / 2 ^ 18 % 4 != 3

/-- SADD to SXOR and the moves of the lead class: A and B with MOD 0 (R102). -/
def chkLead (f : FmtA) (a b c d : Bool) (mdOk : Bool) : List (Bool × Illegal) :=
  chkA true { a := a, b := b, c := c, d := d, mdOk := mdOk } f

/-- The static checks of an instruction word in a stream, in order (R47 to R59 and the encoding rule of each
instruction). Microcode, Awl words and engine steps carry no further fields to check. -/
def checks (lead : Bool) : Instr → List (Bool × Illegal)
  | .sadd f | .ssub f | .smul f | .sand f | .sor f | .sxor f | .sshl f | .sshr f | .ssar f => chkLead f true true false true (f.md.toNat == 0)
  | .saddImm f | .ssubImm f | .smulImm f | .sandImm f | .sorImm f | .sxorImm f | .sshlImm f | .sshrImm f | .ssarImm f | .slih f =>
    chkI true true true true f
  | .smulh f | .sdiv f | .srem f | .smin f | .smax f => chkLead f true true false true (decide (f.md.toNat < 2))
  | .scmp f => chkLead f true true false true (decide (f.md.toNat < 6))
  | .smov f => chkLead f true false false true (f.md.toNat == 0)
  | .sli f => chkI true false true true f
  | .ssel f => chkLead f true true true true (f.md.toNat == 0)
  | .sbr f => chkB true 6 true 1 f
  | .sjmp f => chkB true 1 false 1 f
  | .scall f => chkB true 1 true 1 f
  | .sret f | .dqpush f => chkLead f true false false false (f.md.toNat == 0)
  | .sloop f => chkB true 2 true 1 f
  | .aqpush f => chkA true { a := true, d := true, ld := 3, mdOk := f.md.toNat == 0 } f
  | .aqstep f => (decide (f.dst.toNat ≤ 3), .register) :: chkI true true true true f
  | .qstat f => chkLead f false false false true (f.md.toNat == 0)
  | .sld f => chkAccess true false false f
  | .sst f => chkAccess true true false f
  | .srd f => (srdNumbers f.imm.toNat, .number) :: chkI true false true true f
  | .swr f => (srdNumbers f.imm.toNat, .number) :: chkI true true false true f
  | .iadd f | .isub f | .imul f => chkInt f true true false (intMod f.md.toNat true true true [0]) false false false false
  | .iaddImm f | .isubImm f | .imulImm f | .iandImm f | .iorImm f | .ixorImm f => chkI false true true true f
  | .imulh f | .imin f | .imax f => chkInt f true true false (intMod f.md.toNat true true false [0]) false false false false
  | .imad f => chkInt f true true true (intMod f.md.toNat true true true [0]) false false false false
  | .iabs f | .ineg f => chkInt f true false false (intMod f.md.toNat true false true [0]) false false false false
  | .iand f | .ior f | .ixor f => chkInt f true true false (intMod f.md.toNat true false false [0]) false false false false
  | .inot f | .ibrev f => chkInt f true false false (intMod f.md.toNat true false false [0]) false false false false
  | .ishl f | .ishr f | .isar f => chkInt f true true false (intMod f.md.toNat true false false [0]) true false false false
  | .ishlImm f | .ishrImm f | .isarImm f => chkI false true true (immBelow f 32) f
  | .ifunl f => chkInt f true true true (intMod f.md.toNat false false false [0, 1, 2, 3]) false false false false
  | .ipopc f | .iclz f => chkInt f true false false (intMod f.md.toNat true false false [0]) false false true false
  | .ibfx f => chkInt f true true true (intMod f.md.toNat false true false [0]) false false false false
  | .ibfi f => chkInt f true true true (intMod f.md.toNat false false false [0]) false false false false
  | .icmp f => chkInt f true true false (intMod f.md.toNat true true false [0, 1, 2, 3, 4, 5]) false false true false
  | .isel f => chkInt f true true true (intMod f.md.toNat true false false [0]) false true false false
  | .iaddc f => chkInt f true true true (intMod f.md.toNat false false false [0, 1]) false false false true
  | .idot4 f => chkInt f true true true (intMod f.md.toNat false false true [0, 1, 2, 3]) false false false false
  | .bperm f => chkA false { a := true, b := true, c := true, d := true, mdOk := f.md.toNat == 0 } f
  | .bpermImm f => chkI false true true (bpermImm f.imm.toNat) f
  | .fadd f | .fsub f | .fmul f => chkFltRs f
  | .ffma f => chkFlt f true true true 3
  | .fmin f | .fmax f => chkFlt f true true false 0
  | .fabs f | .fneg f | .fclass f => chkFlt f true false false 0
  | .fcmp f => chkFlt f true true false 7
  | .fdiv f => chkFlt f true true false 3
  | .frcp f | .frsq f | .fsqrt f | .fexp2 f | .flog2 f | .fsin f | .fcos f | .ftanh f => chkFlt f true false false 3
  | .fdot2 f => (f.md.toNat % 4 != 0, .variant) :: chkFlt f true true true 3
  | .cvt f => chkCvt f
  | .cvtsc f => chkCvtsc f
  | .pack f => chkPack f false
  | .unpk f => chkPack f true
  | .rng f => chkA false { a := true, b := true, d := true, ma := 2, mb := 2, md := 4, mdOk := f.md.toNat == 0 } f
  | .mov f => chkA false { a := true, d := true, ma := if f.md.toNat % 2 == 1 then 2 else 1, md := if f.md.toNat % 2 == 1 then 2 else 1, mdOk := decide (f.md.toNat < 2) } f
  | .movi f => chkI false false true true f
  | .movh f => chkI false true true (immBelow f 65536) f
  | .vrd f => chkI false false true (immBelow f 11) f
  | .bra f => chkB false 7 (f.kind.toNat != 6) 1 f
  | .bru f => (f.msel.toNat == 0, .msel) :: chkB false 7 (decide (f.kind.toNat < 4)) 1 f
  | .call f | .meet f | .join f => chkB false 1 true 2 f
  | .ret f => chkA false { a := true, ma := 2, mdOk := f.md.toNat == 0 } f
  | .jmpr f => chkA false { a := true, mdOk := f.md.toNat == 0 } f
  | .exit f | .waitm f => chkA false { mdOk := f.md.toNat == 0 } f
  | .leave f => chkA false { d := true, md := 2, mdOk := f.md.toNat == 0 } f
  | .maskop f => chkMaskop f
  | .maskmv f => chkMaskmv f
  | .maskpc f => chkA false { d := true, md := 2, mdOk := decide (f.md.toNat < 4) } f
  | .vote f => chkVote f
  | .shfl f => chkShfl f
  | .bcast f => chkBcast f
  | .redx f => chkRedx f false
  | .scanx f => chkRedx f true
  | .matchx f => chkMatchx f
  | .sample f => chkA false { a := true, b := true, d := true, mdOk := f.md.toNat == 0 } f
  | .dqpop f => chkPop f 2
  | .aqpop f => chkPop f 8
  | .ld f => chkAccess false false false f
  | .st f => chkAccess false true false f
  | .ldq f => chkAccess false false true f
  | .stq f => chkAccess false true true f
  | .pref f => chkPref f
  | .prsq f => chkPrsq f
  | .kick f => chkKick lead f
  | .atom f => chkAtom f [0, 1, 2, 3, 4, 5, 6, 7, 8] [0, 1] [2, 3] [0, 1, 2, 3] (groupRegs f.size.toNat)
  | .acas f => chkAtom f [0] [0, 1] [2, 3, 4] [0, 1, 2, 3] (2 ^ (f.size.toNat - 1))
  | .red f => chkRed f
  | .binit f => chkBar lead true f
  | .barr f | .barrx f | .bexp f | .bwait f | .btest f | .bdrop f => chkBar lead false f
  | .fence f => chkFence lead f
  | .waitc f => chkI lead false false (immBelow f 512) f
  | .waita f => chkWaita lead f
  | .cctl f => chkCctl f
  | .mma f | .mmax f => chkX 7 f
  | .mmas f => chkX 4 f
  | .mzero f => chkA lead { d := true, md := 16, mdOk := decide (f.md.toNat ≤ 2) } f
  | .mpin f | .munpin f =>
    (f.zsel.toNat == 0, .zsel) :: chkA lead { a := true, b := true, d := true, ma := if lead then 1 else 2, mdOk := f.md.toNat == 0 } f
  | .mstat f => chkA lead { d := true, md := 2, mdOk := decide (f.md.toNat ≤ 4) } f
  | .racc f => chkRacc f
  | .raccx f => chkFar f [4] [4] 1 (f.offset.toNat % 4 == 0) true
  | .rfold f => chkFar f [4] [1, 2] 1 (f.offset.toNat % 4 == 0) true
  | .rclr f => chkFar f [4] [4] 1 (f.offset.toNat == 0) (f.data.toNat == 0)
  | .spawn f => chkA lead { a := true, b := true, d := true, ma := if lead then 1 else 2, mdOk := f.md.toNat == 0 } f
  | .step f => chkA lead { d := true, md := if lead then 1 else 2, mdOk := decide (f.md.toNat < 2) } f
  | .yield f | .nop f | .halt f => chkA lead { mdOk := f.md.toNat == 0 } f
  | .dieq f => chkA lead { a := f.md.toNat == 2, d := true, mdOk := decide (f.md.toNat < 3) } f
  | .hops f => chkA lead { a := true, b := true, d := true, mdOk := f.md.toNat == 0 } f
  | .trap f => chkI lead false false true f
  | .svc f => chkA lead { a := true, b := true, c := true, ma := if lead then 1 else 2, mb := if lead then 1 else 2, mc := if lead then 1 else 2, lc := if lead then 124 else 504, mdOk := f.md.toNat == 0 } f
  | .irq f => chkA lead { a := true, mdOk := f.md.toNat == 0 } f
  | .eret f => chkA lead { mdOk := decide (f.md.toNat < 4) } f
  | .timrd f => chkA lead { d := true, md := if lead then 1 else 2, mdOk := f.md.toNat == 0 } f
  | .timarm f => chkA lead { a := true, d := true, mdOk := f.md.toNat == 0 } f
  | .ucLdh .. | .ucSeth .. | .ucAddh .. | .ucCmpj .. | .ucJmp .. | .ucComb .. | .ucHold .. | .ucFwd .. | .ucMcst | .ucGath .. | .ucDone
  | .ucDrop .. | .ucTmo .. | .ucBkup .. | .ucCnta .. | .ucEnd | .awlGld .. | .awlGst .. | .awlBget .. | .awlBput .. | .awlTswr ..
  | .awlTsrd .. | .awlRcrd .. | .awlRcwr .. | .awlRcadd .. | .awlWaitev .. | .clauseFetch | .meetRelease | .holdcntExpiry
  | .reformRelease | .clauseResume | .trapEntry | .ctxElogTailWrite | .ctxElogStatClr | .haltComplete | .teamRetire
  | .queueDisciplineTimeout | .timerExpiry | .svcRecordWrite | .irqMsiPost | .ctxSvcTailWrite | .loadComplete | .storeAck
  | .homeAccessApply | .atomicComplete | .presenceParkRelease | .translationWalk | .faultRecordPost | .xlatReplyRetry | .xlatReplyFail
  | .barrierUpdateApply | .bwaitWake | .waitaMonitorWake | .waitaPollReread | .fenceComplete | .cctlComplete | .updateOnlyRegistration
  | .updateOnlyRecall | .coreLsStatClr | .acceptance | .copyPiece | .holdingBufferDrain | .coreKickStatusClr | .tileFetchRead
  | .matrixRunStart | .matrixWriteback | .governorWindowBoundary | .coreMtxStallClr | .farOperationApply | .invalStart | .invalDone
  | .msideXfqTailWrite | .msideRegionWrite | .scrubRead | .carve | .carveComplete | .uncarve | .snapshotCopy | .snapshotRestore
  | .ctxSnapStatClr | .linkRetransmit | .retryResend | .msideNetStatClr | .queueWrite | .launchAccept | .launchReady | .teamDispatch
  | .quantumExpiry | .teamSave | .teamRestore | .teamMove | .stepBoundaryComplete | .launchRetire | .launchKill | .ctxKillLaunch
  | .ctxKillAll | .ctxSchedStatClr | .ctxVdieMapWrite | .aliasStoreAccept | .tileFire | .packetForward | .packetMatch | .chunkDeadline
  | .heldPacketRelease | .lateNotice | .leafAcceptance | .tileComplete | .answerWaitExpiry | .remoteOperation | .readResponse
  | .transportExhausted | .triggeredSendFire | .putInject | .putAcknowledgement | .saddleCollCfgWrite | .saddleCollStatClr
  | .saddlePortStatClr | .rctrWrite | .awlRun | .awlReset | .awlLoadGo | .awlLoadComplete | .awlCtxLock | .awlDoorbell
  | .awlTimerExpiry | .awlWaitevWake | .awlException | .packageReset | .hostLockWrite | .hostFatalReq | .hostFatalDumped
  | .watchdogService | .watchdogExpiry | .thermalTrip | .powerClamp | .hostMsiStatClr | .hostCreditGo | .hostCreditApply
  | .hostFeatAckWrite | .hostFeatCommit | .pcieInboundRequest | .pcieIntx | .pcieOutbound | .getVersion | .getCapabilities
  | .negotiateAlgorithms | .getDigests | .getCertificate | .challenge | .getMeasurements | .keyExchange | .finish | .endSession
  | .vendorDefinedRequest | .erase | .registerWrite | .awlStandardInstruction | .hostHartAccess => []

/-- The stream an instruction may issue in (R59). -/
def streamOk (lead : Bool) : Instr → Bool
  | .sadd .. | .saddImm .. | .ssub .. | .ssubImm .. | .smul .. | .smulImm .. | .smulh .. | .sdiv .. | .srem .. | .sand .. | .sandImm ..
  | .sor .. | .sorImm .. | .sxor .. | .sxorImm .. | .sshl .. | .sshlImm .. | .sshr .. | .sshrImm .. | .ssar .. | .ssarImm .. | .smin ..
  | .smax .. | .scmp .. | .smov .. | .sli .. | .slih .. | .ssel .. | .sbr .. | .sjmp .. | .scall .. | .sret .. | .sloop .. | .dqpush ..
  | .aqpush .. | .aqstep .. | .qstat .. | .sld .. | .sst .. | .srd .. | .swr .. => lead
  | .iadd .. | .iaddImm .. | .isub .. | .isubImm .. | .imul .. | .imulImm .. | .imulh .. | .imad .. | .imin .. | .imax .. | .iabs ..
  | .ineg .. | .iand .. | .iandImm .. | .ior .. | .iorImm .. | .ixor .. | .ixorImm .. | .inot .. | .ishl .. | .ishlImm .. | .ishr ..
  | .ishrImm .. | .isar .. | .isarImm .. | .ifunl .. | .ipopc .. | .iclz .. | .ibrev .. | .ibfx .. | .ibfi .. | .icmp .. | .isel ..
  | .iaddc .. | .idot4 .. | .bperm .. | .bpermImm .. | .fadd .. | .fsub .. | .fmul .. | .ffma .. | .fmin .. | .fmax .. | .fabs ..
  | .fneg .. | .fcmp .. | .fdiv .. | .frcp .. | .frsq .. | .fsqrt .. | .fexp2 .. | .flog2 .. | .fsin .. | .fcos .. | .ftanh ..
  | .fclass .. | .fdot2 .. | .cvt .. | .cvtsc .. | .pack .. | .unpk .. | .rng .. | .mov .. | .movi .. | .movh .. | .vrd .. | .bra ..
  | .bru .. | .call .. | .ret .. | .jmpr .. | .exit .. | .meet .. | .join .. | .leave .. | .waitm .. | .maskop .. | .maskmv ..
  | .maskpc .. | .vote .. | .shfl .. | .bcast .. | .redx .. | .scanx .. | .matchx .. | .sample .. | .dqpop .. | .aqpop .. | .ld ..
  | .st .. | .ldq .. | .stq .. | .pref .. | .prsq .. | .atom .. | .acas .. | .red .. | .binit .. | .bdrop .. | .waitc .. | .cctl ..
  | .mma .. | .mmas .. | .mmax .. | .mzero .. | .mstat .. | .racc .. | .raccx .. | .rfold .. | .rclr .. => !lead
  | .kick .. | .barr .. | .barrx .. | .bexp .. | .bwait .. | .btest .. | .fence .. | .waita .. | .mpin .. | .munpin .. | .spawn ..
  | .step .. | .yield .. | .dieq .. | .hops .. | .nop .. | .trap .. | .svc .. | .irq .. | .eret .. | .timrd .. | .timarm .. | .halt ..
  | .ucLdh .. | .ucSeth .. | .ucAddh .. | .ucCmpj .. | .ucJmp .. | .ucComb .. | .ucHold .. | .ucFwd .. | .ucMcst | .ucGath .. | .ucDone
  | .ucDrop .. | .ucTmo .. | .ucBkup .. | .ucCnta .. | .ucEnd | .awlGld .. | .awlGst .. | .awlBget .. | .awlBput .. | .awlTswr ..
  | .awlTsrd .. | .awlRcrd .. | .awlRcwr .. | .awlRcadd .. | .awlWaitev .. | .clauseFetch | .meetRelease | .holdcntExpiry
  | .reformRelease | .clauseResume | .trapEntry | .ctxElogTailWrite | .ctxElogStatClr | .haltComplete | .teamRetire
  | .queueDisciplineTimeout | .timerExpiry | .svcRecordWrite | .irqMsiPost | .ctxSvcTailWrite | .loadComplete | .storeAck
  | .homeAccessApply | .atomicComplete | .presenceParkRelease | .translationWalk | .faultRecordPost | .xlatReplyRetry | .xlatReplyFail
  | .barrierUpdateApply | .bwaitWake | .waitaMonitorWake | .waitaPollReread | .fenceComplete | .cctlComplete | .updateOnlyRegistration
  | .updateOnlyRecall | .coreLsStatClr | .acceptance | .copyPiece | .holdingBufferDrain | .coreKickStatusClr | .tileFetchRead
  | .matrixRunStart | .matrixWriteback | .governorWindowBoundary | .coreMtxStallClr | .farOperationApply | .invalStart | .invalDone
  | .msideXfqTailWrite | .msideRegionWrite | .scrubRead | .carve | .carveComplete | .uncarve | .snapshotCopy | .snapshotRestore
  | .ctxSnapStatClr | .linkRetransmit | .retryResend | .msideNetStatClr | .queueWrite | .launchAccept | .launchReady | .teamDispatch
  | .quantumExpiry | .teamSave | .teamRestore | .teamMove | .stepBoundaryComplete | .launchRetire | .launchKill | .ctxKillLaunch
  | .ctxKillAll | .ctxSchedStatClr | .ctxVdieMapWrite | .aliasStoreAccept | .tileFire | .packetForward | .packetMatch | .chunkDeadline
  | .heldPacketRelease | .lateNotice | .leafAcceptance | .tileComplete | .answerWaitExpiry | .remoteOperation | .readResponse
  | .transportExhausted | .triggeredSendFire | .putInject | .putAcknowledgement | .saddleCollCfgWrite | .saddleCollStatClr
  | .saddlePortStatClr | .rctrWrite | .awlRun | .awlReset | .awlLoadGo | .awlLoadComplete | .awlCtxLock | .awlDoorbell
  | .awlTimerExpiry | .awlWaitevWake | .awlException | .packageReset | .hostLockWrite | .hostFatalReq | .hostFatalDumped
  | .watchdogService | .watchdogExpiry | .thermalTrip | .powerClamp | .hostMsiStatClr | .hostCreditGo | .hostCreditApply
  | .hostFeatAckWrite | .hostFeatCommit | .pcieInboundRequest | .pcieIntx | .pcieOutbound | .getVersion | .getCapabilities
  | .negotiateAlgorithms | .getDigests | .getCertificate | .challenge | .getMeasurements | .keyExchange | .finish | .endSession
  | .vendorDefinedRequest | .erase | .registerWrite | .awlStandardInstruction | .hostHartAccess => true

/-- The first legality check an instruction fails in a stream, if any. -/
def illegal (lead : Bool) (i : Instr) : Option Illegal := firstBad ((streamOk lead i, .stream) :: checks lead i)

/-- A well-formed instruction of a stream. -/
def wellFormed (lead : Bool) (i : Instr) : Bool := (illegal lead i).isNone

end Sys2Proof
end

