-- ==== Sys2Proof/Decode.lean ====
section
/-! DEFINITION. The decoder and the encoder: clause headers (R44), instruction words (R47, R48, R58), microcode words
(R406) and the custom Awl words (R432 to R436). Decoding is total; an illegal word is refused by name. -/

namespace Sys2Proof

/-- The fields of a format A word (R48). -/
def getA (w : BitVec 64) : FmtA :=
  { md := w.extractLsb' 57 7, zsel := w.extractLsb' 54 3, retain := w.extractLsb' 52 2, c := w.extractLsb' 43 9, b := w.extractLsb' 34 9, a := w.extractLsb' 25 9, dst := w.extractLsb' 16 9, msel := w.extractLsb' 12 4, pclass := w.extractLsb' 10 2 }

/-- The word of format A fields under an opcode (R47, R48). -/
def putA (f : FmtA) (op : BitVec 10) : BitVec 64 :=
  f.md ++ f.zsel ++ f.retain ++ f.c ++ f.b ++ f.a ++ f.dst ++ f.msel ++ f.pclass ++ op

/-- The fields of a format I word (R48). -/
def getI (w : BitVec 64) : FmtI :=
  { imm := w.extractLsb' 34 30, a := w.extractLsb' 25 9, dst := w.extractLsb' 16 9, msel := w.extractLsb' 12 4, pclass := w.extractLsb' 10 2 }

/-- The word of format I fields under an opcode (R47, R48). -/
def putI (f : FmtI) (op : BitVec 10) : BitVec 64 :=
  f.imm ++ f.a ++ f.dst ++ f.msel ++ f.pclass ++ op

/-- The fields of a format M word (R48). -/
def getM (w : BitVec 64) : FmtM :=
  { offset := w.extractLsb' 48 16, size := w.extractLsb' 45 3, space := w.extractLsb' 42 3, evict := w.extractLsb' 39 3, scope := w.extractLsb' 36 3, ord := w.extractLsb' 34 2, addr := w.extractLsb' 25 9, data := w.extractLsb' 16 9, msel := w.extractLsb' 12 4, pclass := w.extractLsb' 10 2 }

/-- The word of format M fields under an opcode (R47, R48). -/
def putM (f : FmtM) (op : BitVec 10) : BitVec 64 :=
  f.offset ++ f.size ++ f.space ++ f.evict ++ f.scope ++ f.ord ++ f.addr ++ f.data ++ f.msel ++ f.pclass ++ op

/-- The fields of a format T word (R48). -/
def getT (w : BitVec 64) : FmtT :=
  { aop := w.extractLsb' 60 4, atype := w.extractLsb' 57 3, offset := w.extractLsb' 48 9, size := w.extractLsb' 45 3, space := w.extractLsb' 42 3, evict := w.extractLsb' 39 3, scope := w.extractLsb' 36 3, ord := w.extractLsb' 34 2, addr := w.extractLsb' 25 9, data := w.extractLsb' 16 9, msel := w.extractLsb' 12 4, pclass := w.extractLsb' 10 2 }

/-- The word of format T fields under an opcode (R47, R48). -/
def putT (f : FmtT) (op : BitVec 10) : BitVec 64 :=
  f.aop ++ f.atype ++ f.offset ++ f.size ++ f.space ++ f.evict ++ f.scope ++ f.ord ++ f.addr ++ f.data ++ f.msel ++ f.pclass ++ op

/-- The fields of a format B word (R48). -/
def getB (w : BitVec 64) : FmtB :=
  { target := w.extractLsb' 28 36, kind := w.extractLsb' 25 3, reg := w.extractLsb' 16 9, msel := w.extractLsb' 12 4, pclass := w.extractLsb' 10 2 }

/-- The word of format B fields under an opcode (R47, R48). -/
def putB (f : FmtB) (op : BitVec 10) : BitVec 64 :=
  f.target ++ f.kind ++ f.reg ++ f.msel ++ f.pclass ++ op

/-- The fields of a format X word (R48). -/
def getX (w : BitVec 64) : FmtX :=
  { opsrc := w.extractLsb' 62 2, sparse := w.extractLsb' 60 2, nobar := w.extractLsb' 59 1, fmt := w.extractLsb' 54 5, shape := w.extractLsb' 52 2, bar := w.extractLsb' 43 9, bdesc := w.extractLsb' 34 9, arow := w.extractLsb' 25 9, acc := w.extractLsb' 16 9, msel := w.extractLsb' 12 4, pclass := w.extractLsb' 10 2 }

/-- The word of format X fields under an opcode (R47, R48). -/
def putX (f : FmtX) (op : BitVec 10) : BitVec 64 :=
  f.opsrc ++ f.sparse ++ f.nobar ++ f.fmt ++ f.shape ++ f.bar ++ f.bdesc ++ f.arow ++ f.acc ++ f.msel ++ f.pclass ++ op

/-- The instruction of a LEAD word by its OPCODE, before the legality checks (R58). -/
def rawLead (w : BitVec 64) : Nat → Option Instr
  | 0x000 => some (.sadd (getA w))
  | 0x100 => some (.saddImm (getI w))
  | 0x001 => some (.ssub (getA w))
  | 0x101 => some (.ssubImm (getI w))
  | 0x002 => some (.smul (getA w))
  | 0x102 => some (.smulImm (getI w))
  | 0x003 => some (.smulh (getA w))
  | 0x004 => some (.sdiv (getA w))
  | 0x005 => some (.srem (getA w))
  | 0x006 => some (.sand (getA w))
  | 0x106 => some (.sandImm (getI w))
  | 0x007 => some (.sor (getA w))
  | 0x107 => some (.sorImm (getI w))
  | 0x008 => some (.sxor (getA w))
  | 0x108 => some (.sxorImm (getI w))
  | 0x009 => some (.sshl (getA w))
  | 0x109 => some (.sshlImm (getI w))
  | 0x00a => some (.sshr (getA w))
  | 0x10a => some (.sshrImm (getI w))
  | 0x00b => some (.ssar (getA w))
  | 0x10b => some (.ssarImm (getI w))
  | 0x00c => some (.smin (getA w))
  | 0x00d => some (.smax (getA w))
  | 0x00e => some (.scmp (getA w))
  | 0x00f => some (.smov (getA w))
  | 0x110 => some (.sli (getI w))
  | 0x111 => some (.slih (getI w))
  | 0x012 => some (.ssel (getA w))
  | 0x040 => some (.sbr (getB w))
  | 0x041 => some (.sjmp (getB w))
  | 0x042 => some (.scall (getB w))
  | 0x043 => some (.sret (getA w))
  | 0x044 => some (.sloop (getB w))
  | 0x060 => some (.dqpush (getA w))
  | 0x061 => some (.aqpush (getA w))
  | 0x162 => some (.aqstep (getI w))
  | 0x063 => some (.qstat (getA w))
  | 0x080 => some (.sld (getM w))
  | 0x081 => some (.sst (getM w))
  | 0x182 => some (.srd (getI w))
  | 0x183 => some (.swr (getI w))
  | _ => none

/-- The instruction of a LANE word by its OPCODE, before the legality checks (R58). -/
def rawLane (w : BitVec 64) : Nat → Option Instr
  | 0x000 => some (.iadd (getA w))
  | 0x100 => some (.iaddImm (getI w))
  | 0x001 => some (.isub (getA w))
  | 0x101 => some (.isubImm (getI w))
  | 0x002 => some (.imul (getA w))
  | 0x102 => some (.imulImm (getI w))
  | 0x003 => some (.imulh (getA w))
  | 0x004 => some (.imad (getA w))
  | 0x005 => some (.imin (getA w))
  | 0x006 => some (.imax (getA w))
  | 0x007 => some (.iabs (getA w))
  | 0x008 => some (.ineg (getA w))
  | 0x009 => some (.iand (getA w))
  | 0x109 => some (.iandImm (getI w))
  | 0x00a => some (.ior (getA w))
  | 0x10a => some (.iorImm (getI w))
  | 0x00b => some (.ixor (getA w))
  | 0x10b => some (.ixorImm (getI w))
  | 0x00c => some (.inot (getA w))
  | 0x00d => some (.ishl (getA w))
  | 0x10d => some (.ishlImm (getI w))
  | 0x00e => some (.ishr (getA w))
  | 0x10e => some (.ishrImm (getI w))
  | 0x00f => some (.isar (getA w))
  | 0x10f => some (.isarImm (getI w))
  | 0x010 => some (.ifunl (getA w))
  | 0x011 => some (.ipopc (getA w))
  | 0x012 => some (.iclz (getA w))
  | 0x013 => some (.ibrev (getA w))
  | 0x014 => some (.ibfx (getA w))
  | 0x015 => some (.ibfi (getA w))
  | 0x016 => some (.icmp (getA w))
  | 0x017 => some (.isel (getA w))
  | 0x018 => some (.iaddc (getA w))
  | 0x019 => some (.idot4 (getA w))
  | 0x01a => some (.bperm (getA w))
  | 0x11a => some (.bpermImm (getI w))
  | 0x040 => some (.fadd (getA w))
  | 0x041 => some (.fsub (getA w))
  | 0x042 => some (.fmul (getA w))
  | 0x043 => some (.ffma (getA w))
  | 0x044 => some (.fmin (getA w))
  | 0x045 => some (.fmax (getA w))
  | 0x046 => some (.fabs (getA w))
  | 0x047 => some (.fneg (getA w))
  | 0x048 => some (.fcmp (getA w))
  | 0x049 => some (.fdiv (getA w))
  | 0x04a => some (.frcp (getA w))
  | 0x04b => some (.frsq (getA w))
  | 0x04c => some (.fsqrt (getA w))
  | 0x04d => some (.fexp2 (getA w))
  | 0x04e => some (.flog2 (getA w))
  | 0x04f => some (.fsin (getA w))
  | 0x050 => some (.fcos (getA w))
  | 0x051 => some (.ftanh (getA w))
  | 0x052 => some (.fclass (getA w))
  | 0x053 => some (.fdot2 (getA w))
  | 0x080 => some (.cvt (getA w))
  | 0x081 => some (.cvtsc (getA w))
  | 0x082 => some (.pack (getA w))
  | 0x083 => some (.unpk (getA w))
  | 0x0a0 => some (.rng (getA w))
  | 0x0b0 => some (.mov (getA w))
  | 0x1b1 => some (.movi (getI w))
  | 0x1b2 => some (.movh (getI w))
  | 0x1b3 => some (.vrd (getI w))
  | _ => none

/-- The instruction of a GRP word by its OPCODE, before the legality checks (R58). -/
def rawGrp (w : BitVec 64) : Nat → Option Instr
  | 0x000 => some (.bra (getB w))
  | 0x001 => some (.bru (getB w))
  | 0x002 => some (.call (getB w))
  | 0x003 => some (.ret (getA w))
  | 0x004 => some (.jmpr (getA w))
  | 0x005 => some (.exit (getA w))
  | 0x020 => some (.meet (getB w))
  | 0x021 => some (.join (getB w))
  | 0x022 => some (.leave (getA w))
  | 0x023 => some (.waitm (getA w))
  | 0x024 => some (.maskop (getA w))
  | 0x025 => some (.maskmv (getA w))
  | 0x026 => some (.maskpc (getA w))
  | 0x027 => some (.vote (getA w))
  | 0x040 => some (.shfl (getA w))
  | 0x041 => some (.bcast (getA w))
  | 0x042 => some (.redx (getA w))
  | 0x043 => some (.scanx (getA w))
  | 0x044 => some (.matchx (getA w))
  | 0x045 => some (.sample (getA w))
  | 0x060 => some (.dqpop (getA w))
  | 0x061 => some (.aqpop (getA w))
  | _ => none

/-- The instruction of a MEM word by its OPCODE, before the legality checks (R58). -/
def rawMem (w : BitVec 64) : Nat → Option Instr
  | 0x000 => some (.ld (getM w))
  | 0x001 => some (.st (getM w))
  | 0x002 => some (.ldq (getM w))
  | 0x003 => some (.stq (getM w))
  | 0x004 => some (.pref (getM w))
  | 0x005 => some (.prsq (getM w))
  | 0x006 => some (.kick (getM w))
  | 0x020 => some (.atom (getT w))
  | 0x021 => some (.acas (getT w))
  | 0x022 => some (.red (getT w))
  | 0x040 => some (.binit (getM w))
  | 0x041 => some (.barr (getM w))
  | 0x042 => some (.barrx (getM w))
  | 0x043 => some (.bexp (getM w))
  | 0x044 => some (.bwait (getM w))
  | 0x045 => some (.btest (getM w))
  | 0x046 => some (.bdrop (getM w))
  | 0x060 => some (.fence (getM w))
  | 0x161 => some (.waitc (getI w))
  | 0x062 => some (.waita (getM w))
  | 0x063 => some (.cctl (getM w))
  | _ => none

/-- The instruction of a MTX word by its OPCODE, before the legality checks (R58). -/
def rawMtx (w : BitVec 64) : Nat → Option Instr
  | 0x000 => some (.mma (getX w))
  | 0x001 => some (.mmas (getX w))
  | 0x002 => some (.mmax (getX w))
  | 0x003 => some (.mzero (getA w))
  | 0x004 => some (.mpin (getA w))
  | 0x005 => some (.munpin (getA w))
  | 0x006 => some (.mstat (getA w))
  | _ => none

/-- The instruction of a FAR word by its OPCODE, before the legality checks (R58). -/
def rawFar (w : BitVec 64) : Nat → Option Instr
  | 0x000 => some (.racc (getT w))
  | 0x001 => some (.raccx (getT w))
  | 0x002 => some (.rfold (getT w))
  | 0x003 => some (.rclr (getT w))
  | _ => none

/-- The instruction of a SCHED word by its OPCODE, before the legality checks (R58). -/
def rawSched (w : BitVec 64) : Nat → Option Instr
  | 0x000 => some (.spawn (getA w))
  | 0x001 => some (.step (getA w))
  | 0x002 => some (.yield (getA w))
  | 0x003 => some (.dieq (getA w))
  | 0x004 => some (.hops (getA w))
  | _ => none

/-- The instruction of a SYS word by its OPCODE, before the legality checks (R58). -/
def rawSys (w : BitVec 64) : Nat → Option Instr
  | 0x000 => some (.nop (getA w))
  | 0x101 => some (.trap (getI w))
  | 0x002 => some (.svc (getA w))
  | 0x003 => some (.irq (getA w))
  | 0x004 => some (.eret (getA w))
  | 0x005 => some (.timrd (getA w))
  | 0x006 => some (.timarm (getA w))
  | 0x007 => some (.halt (getA w))
  | _ => none

/-- The instruction of a word of a class, before the legality checks. -/
def rawDecode (cls : Cls) (w : BitVec 64) : Option Instr :=
  let op := (w.extractLsb' 0 10).toNat
  match cls with
  | .lead => rawLead w op
  | .lane => rawLane w op
  | .grp => rawGrp w op
  | .mem => rawMem w op
  | .mtx => rawMtx w op
  | .far => rawFar w op
  | .sched => rawSched w op
  | .sys => rawSys w op

/-- Decode an instruction word of a class in a stream; an illegal encoding is refused by the check it fails (R71,
code 0x01). -/
def decodeWord (cls : Cls) (lead : Bool) (w : BitVec 64) : Except Illegal Instr :=
  match rawDecode cls w with
  | none => .error .opcode
  | some i =>
    match illegal lead i with
    | some e => .error e
    | none => .ok i

/-- Decode a microcode word (R406): the opcode in bits 31:28; a field the instruction does not use must be 0. -/
def decodeMicro (w : BitVec 32) : Option Instr :=
  if w &&& 0xf000ffff = 0x00000000 then some (.ucLdh (w.extractLsb' 24 4) (w.extractLsb' 16 8))
  else if w &&& 0xf0f00000 = 0x10000000 then some (.ucSeth (w.extractLsb' 24 4) (w.extractLsb' 0 20))
  else if w &&& 0xf00f0000 = 0x20000000 then some (.ucAddh (w.extractLsb' 24 4) (w.extractLsb' 20 4) (w.extractLsb' 0 16))
  else if w &&& 0xf001f000 = 0x30000000 then some (.ucCmpj (w.extractLsb' 24 4) (w.extractLsb' 20 4) (w.extractLsb' 17 3) (w.extractLsb' 0 12))
  else if w &&& 0xfffff000 = 0x40000000 then some (.ucJmp (w.extractLsb' 0 12))
  else if w &&& 0xf0ffffff = 0x50000000 then some (.ucComb (w.extractLsb' 24 4))
  else if w &&& 0xfffffffe = 0x60000000 then some (.ucHold (w.extractLsb' 0 1))
  else if w &&& 0xf0ffffff = 0x70000000 then some (.ucFwd (w.extractLsb' 24 4))
  else if w &&& 0xffffffff = 0x80000000 then some (.ucMcst)
  else if w &&& 0xf0ffffff = 0x90000000 then some (.ucGath (w.extractLsb' 24 4))
  else if w &&& 0xffffffff = 0xa0000000 then some (.ucDone)
  else if w &&& 0xf0ffffff = 0xb0000000 then some (.ucDrop (w.extractLsb' 24 4))
  else if w &&& 0xf0ffffff = 0xc0000000 then some (.ucTmo (w.extractLsb' 24 4))
  else if w &&& 0xf0ffffff = 0xd0000000 then some (.ucBkup (w.extractLsb' 24 4))
  else if w &&& 0xf00fffff = 0xe0000000 then some (.ucCnta (w.extractLsb' 24 4) (w.extractLsb' 20 4))
  else if w &&& 0xffffffff = 0xf0000000 then some (.ucEnd)
  else none

/-- Decode a custom Awl word (R432 to R436). -/
def decodeAwl (w : BitVec 32) : Option Instr :=
  if w &&& 0xf9f0707f = 0x0000000b then some (.awlGld (w.extractLsb' 25 2) (w.extractLsb' 15 5) (w.extractLsb' 7 5))
  else if w &&& 0xf8007fff = 0x0000100b then some (.awlGst (w.extractLsb' 25 2) (w.extractLsb' 20 5) (w.extractLsb' 15 5))
  else if w &&& 0xfe007fff = 0x0000200b then some (.awlBget (w.extractLsb' 20 5) (w.extractLsb' 15 5))
  else if w &&& 0xfe007fff = 0x0000300b then some (.awlBput (w.extractLsb' 20 5) (w.extractLsb' 15 5))
  else if w &&& 0xfe00707f = 0x0000002b then some (.awlTswr (w.extractLsb' 20 5) (w.extractLsb' 15 5) (w.extractLsb' 7 5))
  else if w &&& 0xfff0707f = 0x0000102b then some (.awlTsrd (w.extractLsb' 15 5) (w.extractLsb' 7 5))
  else if w &&& 0xfff0707f = 0x0000202b then some (.awlRcrd (w.extractLsb' 15 5) (w.extractLsb' 7 5))
  else if w &&& 0xfe007fff = 0x0000302b then some (.awlRcwr (w.extractLsb' 20 5) (w.extractLsb' 15 5))
  else if w &&& 0xfe007fff = 0x0000402b then some (.awlRcadd (w.extractLsb' 20 5) (w.extractLsb' 15 5))
  else if w &&& 0xfff0707f = 0x0000502b then some (.awlWaitev (w.extractLsb' 15 5) (w.extractLsb' 7 5))
  else none

/-- The class and opcode of a clause instruction (R58). -/
def opcodeOf : Instr → Option (Cls × BitVec 10)
  | .sadd _ => some (.lead, 0x000)
  | .saddImm _ => some (.lead, 0x100)
  | .ssub _ => some (.lead, 0x001)
  | .ssubImm _ => some (.lead, 0x101)
  | .smul _ => some (.lead, 0x002)
  | .smulImm _ => some (.lead, 0x102)
  | .smulh _ => some (.lead, 0x003)
  | .sdiv _ => some (.lead, 0x004)
  | .srem _ => some (.lead, 0x005)
  | .sand _ => some (.lead, 0x006)
  | .sandImm _ => some (.lead, 0x106)
  | .sor _ => some (.lead, 0x007)
  | .sorImm _ => some (.lead, 0x107)
  | .sxor _ => some (.lead, 0x008)
  | .sxorImm _ => some (.lead, 0x108)
  | .sshl _ => some (.lead, 0x009)
  | .sshlImm _ => some (.lead, 0x109)
  | .sshr _ => some (.lead, 0x00a)
  | .sshrImm _ => some (.lead, 0x10a)
  | .ssar _ => some (.lead, 0x00b)
  | .ssarImm _ => some (.lead, 0x10b)
  | .smin _ => some (.lead, 0x00c)
  | .smax _ => some (.lead, 0x00d)
  | .scmp _ => some (.lead, 0x00e)
  | .smov _ => some (.lead, 0x00f)
  | .sli _ => some (.lead, 0x110)
  | .slih _ => some (.lead, 0x111)
  | .ssel _ => some (.lead, 0x012)
  | .sbr _ => some (.lead, 0x040)
  | .sjmp _ => some (.lead, 0x041)
  | .scall _ => some (.lead, 0x042)
  | .sret _ => some (.lead, 0x043)
  | .sloop _ => some (.lead, 0x044)
  | .dqpush _ => some (.lead, 0x060)
  | .aqpush _ => some (.lead, 0x061)
  | .aqstep _ => some (.lead, 0x162)
  | .qstat _ => some (.lead, 0x063)
  | .sld _ => some (.lead, 0x080)
  | .sst _ => some (.lead, 0x081)
  | .srd _ => some (.lead, 0x182)
  | .swr _ => some (.lead, 0x183)
  | .iadd _ => some (.lane, 0x000)
  | .iaddImm _ => some (.lane, 0x100)
  | .isub _ => some (.lane, 0x001)
  | .isubImm _ => some (.lane, 0x101)
  | .imul _ => some (.lane, 0x002)
  | .imulImm _ => some (.lane, 0x102)
  | .imulh _ => some (.lane, 0x003)
  | .imad _ => some (.lane, 0x004)
  | .imin _ => some (.lane, 0x005)
  | .imax _ => some (.lane, 0x006)
  | .iabs _ => some (.lane, 0x007)
  | .ineg _ => some (.lane, 0x008)
  | .iand _ => some (.lane, 0x009)
  | .iandImm _ => some (.lane, 0x109)
  | .ior _ => some (.lane, 0x00a)
  | .iorImm _ => some (.lane, 0x10a)
  | .ixor _ => some (.lane, 0x00b)
  | .ixorImm _ => some (.lane, 0x10b)
  | .inot _ => some (.lane, 0x00c)
  | .ishl _ => some (.lane, 0x00d)
  | .ishlImm _ => some (.lane, 0x10d)
  | .ishr _ => some (.lane, 0x00e)
  | .ishrImm _ => some (.lane, 0x10e)
  | .isar _ => some (.lane, 0x00f)
  | .isarImm _ => some (.lane, 0x10f)
  | .ifunl _ => some (.lane, 0x010)
  | .ipopc _ => some (.lane, 0x011)
  | .iclz _ => some (.lane, 0x012)
  | .ibrev _ => some (.lane, 0x013)
  | .ibfx _ => some (.lane, 0x014)
  | .ibfi _ => some (.lane, 0x015)
  | .icmp _ => some (.lane, 0x016)
  | .isel _ => some (.lane, 0x017)
  | .iaddc _ => some (.lane, 0x018)
  | .idot4 _ => some (.lane, 0x019)
  | .bperm _ => some (.lane, 0x01a)
  | .bpermImm _ => some (.lane, 0x11a)
  | .fadd _ => some (.lane, 0x040)
  | .fsub _ => some (.lane, 0x041)
  | .fmul _ => some (.lane, 0x042)
  | .ffma _ => some (.lane, 0x043)
  | .fmin _ => some (.lane, 0x044)
  | .fmax _ => some (.lane, 0x045)
  | .fabs _ => some (.lane, 0x046)
  | .fneg _ => some (.lane, 0x047)
  | .fcmp _ => some (.lane, 0x048)
  | .fdiv _ => some (.lane, 0x049)
  | .frcp _ => some (.lane, 0x04a)
  | .frsq _ => some (.lane, 0x04b)
  | .fsqrt _ => some (.lane, 0x04c)
  | .fexp2 _ => some (.lane, 0x04d)
  | .flog2 _ => some (.lane, 0x04e)
  | .fsin _ => some (.lane, 0x04f)
  | .fcos _ => some (.lane, 0x050)
  | .ftanh _ => some (.lane, 0x051)
  | .fclass _ => some (.lane, 0x052)
  | .fdot2 _ => some (.lane, 0x053)
  | .cvt _ => some (.lane, 0x080)
  | .cvtsc _ => some (.lane, 0x081)
  | .pack _ => some (.lane, 0x082)
  | .unpk _ => some (.lane, 0x083)
  | .rng _ => some (.lane, 0x0a0)
  | .mov _ => some (.lane, 0x0b0)
  | .movi _ => some (.lane, 0x1b1)
  | .movh _ => some (.lane, 0x1b2)
  | .vrd _ => some (.lane, 0x1b3)
  | .bra _ => some (.grp, 0x000)
  | .bru _ => some (.grp, 0x001)
  | .call _ => some (.grp, 0x002)
  | .ret _ => some (.grp, 0x003)
  | .jmpr _ => some (.grp, 0x004)
  | .exit _ => some (.grp, 0x005)
  | .meet _ => some (.grp, 0x020)
  | .join _ => some (.grp, 0x021)
  | .leave _ => some (.grp, 0x022)
  | .waitm _ => some (.grp, 0x023)
  | .maskop _ => some (.grp, 0x024)
  | .maskmv _ => some (.grp, 0x025)
  | .maskpc _ => some (.grp, 0x026)
  | .vote _ => some (.grp, 0x027)
  | .shfl _ => some (.grp, 0x040)
  | .bcast _ => some (.grp, 0x041)
  | .redx _ => some (.grp, 0x042)
  | .scanx _ => some (.grp, 0x043)
  | .matchx _ => some (.grp, 0x044)
  | .sample _ => some (.grp, 0x045)
  | .dqpop _ => some (.grp, 0x060)
  | .aqpop _ => some (.grp, 0x061)
  | .ld _ => some (.mem, 0x000)
  | .st _ => some (.mem, 0x001)
  | .ldq _ => some (.mem, 0x002)
  | .stq _ => some (.mem, 0x003)
  | .pref _ => some (.mem, 0x004)
  | .prsq _ => some (.mem, 0x005)
  | .kick _ => some (.mem, 0x006)
  | .atom _ => some (.mem, 0x020)
  | .acas _ => some (.mem, 0x021)
  | .red _ => some (.mem, 0x022)
  | .binit _ => some (.mem, 0x040)
  | .barr _ => some (.mem, 0x041)
  | .barrx _ => some (.mem, 0x042)
  | .bexp _ => some (.mem, 0x043)
  | .bwait _ => some (.mem, 0x044)
  | .btest _ => some (.mem, 0x045)
  | .bdrop _ => some (.mem, 0x046)
  | .fence _ => some (.mem, 0x060)
  | .waitc _ => some (.mem, 0x161)
  | .waita _ => some (.mem, 0x062)
  | .cctl _ => some (.mem, 0x063)
  | .mma _ => some (.mtx, 0x000)
  | .mmas _ => some (.mtx, 0x001)
  | .mmax _ => some (.mtx, 0x002)
  | .mzero _ => some (.mtx, 0x003)
  | .mpin _ => some (.mtx, 0x004)
  | .munpin _ => some (.mtx, 0x005)
  | .mstat _ => some (.mtx, 0x006)
  | .racc _ => some (.far, 0x000)
  | .raccx _ => some (.far, 0x001)
  | .rfold _ => some (.far, 0x002)
  | .rclr _ => some (.far, 0x003)
  | .spawn _ => some (.sched, 0x000)
  | .step _ => some (.sched, 0x001)
  | .yield _ => some (.sched, 0x002)
  | .dieq _ => some (.sched, 0x003)
  | .hops _ => some (.sched, 0x004)
  | .nop _ => some (.sys, 0x000)
  | .trap _ => some (.sys, 0x101)
  | .svc _ => some (.sys, 0x002)
  | .irq _ => some (.sys, 0x003)
  | .eret _ => some (.sys, 0x004)
  | .timrd _ => some (.sys, 0x005)
  | .timarm _ => some (.sys, 0x006)
  | .halt _ => some (.sys, 0x007)
  | .ucLdh .. | .ucSeth .. | .ucAddh .. | .ucCmpj .. | .ucJmp .. | .ucComb .. | .ucHold .. | .ucFwd .. | .ucMcst | .ucGath .. | .ucDone
  | .ucDrop .. | .ucTmo .. | .ucBkup .. | .ucCnta .. | .ucEnd | .awlGld .. | .awlGst .. | .awlBget .. | .awlBput .. | .awlTswr ..
  | .awlTsrd .. | .awlRcrd .. | .awlRcwr .. | .awlRcadd .. | .awlWaitev .. | .clauseFetch | .meetRelease | .holdcntExpiry
  | .reformRelease | .clauseResume | .trapEntry | .ctxElogTailWrite | .ctxElogStatClr | .haltComplete | .teamRetire
  | .queueDisciplineTimeout | .timerExpiry | .svcRecordWrite | .irqMsiPost | .ctxSvcTailWrite | .loadComplete | .storeAck
  | .homeAccessApply | .atomicComplete | .presenceParkRelease | .translationWalk | .faultRecordPost | .xlatReplyRetry | .xlatReplyFail
  | .barrierUpdateApply | .bwaitWake | .waitaMonitorWake | .waitaPollReread | .fenceComplete | .cctlComplete | .updateOnlyRegistration
  | .updateOnlyRecall | .coreLsStatClr | .acceptance | .copyPiece | .holdingBufferDrain | .coreKickStatusClr | .tileFetchRead
  | .matrixRunStart | .matrixWriteback | .governorWindowBoundary | .coreMtxStallClr | .farOperationApply | .invalStart | .invalDone
  | .msideXfqTailWrite | .msideRegionWrite | .scrubRead | .carve | .carveComplete | .uncarve | .snapshotCopy | .snapshotRestore
  | .ctxSnapStatClr | .linkRetransmit | .retryResend | .msideNetStatClr | .queueWrite | .launchAccept | .launchReady | .teamDispatch
  | .quantumExpiry | .teamSave | .teamRestore | .teamMove | .stepBoundaryComplete | .launchRetire | .launchKill | .ctxKillLaunch
  | .ctxKillAll | .ctxSchedStatClr | .ctxVdieMapWrite | .aliasStoreAccept | .tileFire | .packetForward | .packetMatch | .chunkDeadline
  | .heldPacketRelease | .lateNotice | .leafAcceptance | .tileComplete | .answerWaitExpiry | .remoteOperation | .readResponse
  | .transportExhausted | .triggeredSendFire | .putInject | .putAcknowledgement | .saddleCollCfgWrite | .saddleCollStatClr
  | .saddlePortStatClr | .rctrWrite | .awlRun | .awlReset | .awlLoadGo | .awlLoadComplete | .awlCtxLock | .awlDoorbell
  | .awlTimerExpiry | .awlWaitevWake | .awlException | .packageReset | .hostLockWrite | .hostFatalReq | .hostFatalDumped
  | .watchdogService | .watchdogExpiry | .thermalTrip | .powerClamp | .hostMsiStatClr | .hostCreditGo | .hostCreditApply
  | .hostFeatAckWrite | .hostFeatCommit | .pcieInboundRequest | .pcieIntx | .pcieOutbound | .getVersion | .getCapabilities
  | .negotiateAlgorithms | .getDigests | .getCertificate | .challenge | .getMeasurements | .keyExchange | .finish | .endSession
  | .vendorDefinedRequest | .erase | .registerWrite | .awlStandardInstruction | .hostHartAccess => none

/-- The word of a clause instruction, written from the encoding tables (R47, R48, R58). A row of the table that no
64-bit word encodes has none. -/
def encode : Instr → Option (BitVec 64)
  | .sadd f => some (putA f 0x000)
  | .saddImm f => some (putI f 0x100)
  | .ssub f => some (putA f 0x001)
  | .ssubImm f => some (putI f 0x101)
  | .smul f => some (putA f 0x002)
  | .smulImm f => some (putI f 0x102)
  | .smulh f => some (putA f 0x003)
  | .sdiv f => some (putA f 0x004)
  | .srem f => some (putA f 0x005)
  | .sand f => some (putA f 0x006)
  | .sandImm f => some (putI f 0x106)
  | .sor f => some (putA f 0x007)
  | .sorImm f => some (putI f 0x107)
  | .sxor f => some (putA f 0x008)
  | .sxorImm f => some (putI f 0x108)
  | .sshl f => some (putA f 0x009)
  | .sshlImm f => some (putI f 0x109)
  | .sshr f => some (putA f 0x00a)
  | .sshrImm f => some (putI f 0x10a)
  | .ssar f => some (putA f 0x00b)
  | .ssarImm f => some (putI f 0x10b)
  | .smin f => some (putA f 0x00c)
  | .smax f => some (putA f 0x00d)
  | .scmp f => some (putA f 0x00e)
  | .smov f => some (putA f 0x00f)
  | .sli f => some (putI f 0x110)
  | .slih f => some (putI f 0x111)
  | .ssel f => some (putA f 0x012)
  | .sbr f => some (putB f 0x040)
  | .sjmp f => some (putB f 0x041)
  | .scall f => some (putB f 0x042)
  | .sret f => some (putA f 0x043)
  | .sloop f => some (putB f 0x044)
  | .dqpush f => some (putA f 0x060)
  | .aqpush f => some (putA f 0x061)
  | .aqstep f => some (putI f 0x162)
  | .qstat f => some (putA f 0x063)
  | .sld f => some (putM f 0x080)
  | .sst f => some (putM f 0x081)
  | .srd f => some (putI f 0x182)
  | .swr f => some (putI f 0x183)
  | .iadd f => some (putA f 0x000)
  | .iaddImm f => some (putI f 0x100)
  | .isub f => some (putA f 0x001)
  | .isubImm f => some (putI f 0x101)
  | .imul f => some (putA f 0x002)
  | .imulImm f => some (putI f 0x102)
  | .imulh f => some (putA f 0x003)
  | .imad f => some (putA f 0x004)
  | .imin f => some (putA f 0x005)
  | .imax f => some (putA f 0x006)
  | .iabs f => some (putA f 0x007)
  | .ineg f => some (putA f 0x008)
  | .iand f => some (putA f 0x009)
  | .iandImm f => some (putI f 0x109)
  | .ior f => some (putA f 0x00a)
  | .iorImm f => some (putI f 0x10a)
  | .ixor f => some (putA f 0x00b)
  | .ixorImm f => some (putI f 0x10b)
  | .inot f => some (putA f 0x00c)
  | .ishl f => some (putA f 0x00d)
  | .ishlImm f => some (putI f 0x10d)
  | .ishr f => some (putA f 0x00e)
  | .ishrImm f => some (putI f 0x10e)
  | .isar f => some (putA f 0x00f)
  | .isarImm f => some (putI f 0x10f)
  | .ifunl f => some (putA f 0x010)
  | .ipopc f => some (putA f 0x011)
  | .iclz f => some (putA f 0x012)
  | .ibrev f => some (putA f 0x013)
  | .ibfx f => some (putA f 0x014)
  | .ibfi f => some (putA f 0x015)
  | .icmp f => some (putA f 0x016)
  | .isel f => some (putA f 0x017)
  | .iaddc f => some (putA f 0x018)
  | .idot4 f => some (putA f 0x019)
  | .bperm f => some (putA f 0x01a)
  | .bpermImm f => some (putI f 0x11a)
  | .fadd f => some (putA f 0x040)
  | .fsub f => some (putA f 0x041)
  | .fmul f => some (putA f 0x042)
  | .ffma f => some (putA f 0x043)
  | .fmin f => some (putA f 0x044)
  | .fmax f => some (putA f 0x045)
  | .fabs f => some (putA f 0x046)
  | .fneg f => some (putA f 0x047)
  | .fcmp f => some (putA f 0x048)
  | .fdiv f => some (putA f 0x049)
  | .frcp f => some (putA f 0x04a)
  | .frsq f => some (putA f 0x04b)
  | .fsqrt f => some (putA f 0x04c)
  | .fexp2 f => some (putA f 0x04d)
  | .flog2 f => some (putA f 0x04e)
  | .fsin f => some (putA f 0x04f)
  | .fcos f => some (putA f 0x050)
  | .ftanh f => some (putA f 0x051)
  | .fclass f => some (putA f 0x052)
  | .fdot2 f => some (putA f 0x053)
  | .cvt f => some (putA f 0x080)
  | .cvtsc f => some (putA f 0x081)
  | .pack f => some (putA f 0x082)
  | .unpk f => some (putA f 0x083)
  | .rng f => some (putA f 0x0a0)
  | .mov f => some (putA f 0x0b0)
  | .movi f => some (putI f 0x1b1)
  | .movh f => some (putI f 0x1b2)
  | .vrd f => some (putI f 0x1b3)
  | .bra f => some (putB f 0x000)
  | .bru f => some (putB f 0x001)
  | .call f => some (putB f 0x002)
  | .ret f => some (putA f 0x003)
  | .jmpr f => some (putA f 0x004)
  | .exit f => some (putA f 0x005)
  | .meet f => some (putB f 0x020)
  | .join f => some (putB f 0x021)
  | .leave f => some (putA f 0x022)
  | .waitm f => some (putA f 0x023)
  | .maskop f => some (putA f 0x024)
  | .maskmv f => some (putA f 0x025)
  | .maskpc f => some (putA f 0x026)
  | .vote f => some (putA f 0x027)
  | .shfl f => some (putA f 0x040)
  | .bcast f => some (putA f 0x041)
  | .redx f => some (putA f 0x042)
  | .scanx f => some (putA f 0x043)
  | .matchx f => some (putA f 0x044)
  | .sample f => some (putA f 0x045)
  | .dqpop f => some (putA f 0x060)
  | .aqpop f => some (putA f 0x061)
  | .ld f => some (putM f 0x000)
  | .st f => some (putM f 0x001)
  | .ldq f => some (putM f 0x002)
  | .stq f => some (putM f 0x003)
  | .pref f => some (putM f 0x004)
  | .prsq f => some (putM f 0x005)
  | .kick f => some (putM f 0x006)
  | .atom f => some (putT f 0x020)
  | .acas f => some (putT f 0x021)
  | .red f => some (putT f 0x022)
  | .binit f => some (putM f 0x040)
  | .barr f => some (putM f 0x041)
  | .barrx f => some (putM f 0x042)
  | .bexp f => some (putM f 0x043)
  | .bwait f => some (putM f 0x044)
  | .btest f => some (putM f 0x045)
  | .bdrop f => some (putM f 0x046)
  | .fence f => some (putM f 0x060)
  | .waitc f => some (putI f 0x161)
  | .waita f => some (putM f 0x062)
  | .cctl f => some (putM f 0x063)
  | .mma f => some (putX f 0x000)
  | .mmas f => some (putX f 0x001)
  | .mmax f => some (putX f 0x002)
  | .mzero f => some (putA f 0x003)
  | .mpin f => some (putA f 0x004)
  | .munpin f => some (putA f 0x005)
  | .mstat f => some (putA f 0x006)
  | .racc f => some (putT f 0x000)
  | .raccx f => some (putT f 0x001)
  | .rfold f => some (putT f 0x002)
  | .rclr f => some (putT f 0x003)
  | .spawn f => some (putA f 0x000)
  | .step f => some (putA f 0x001)
  | .yield f => some (putA f 0x002)
  | .dieq f => some (putA f 0x003)
  | .hops f => some (putA f 0x004)
  | .nop f => some (putA f 0x000)
  | .trap f => some (putI f 0x101)
  | .svc f => some (putA f 0x002)
  | .irq f => some (putA f 0x003)
  | .eret f => some (putA f 0x004)
  | .timrd f => some (putA f 0x005)
  | .timarm f => some (putA f 0x006)
  | .halt f => some (putA f 0x007)
  | .ucLdh .. | .ucSeth .. | .ucAddh .. | .ucCmpj .. | .ucJmp .. | .ucComb .. | .ucHold .. | .ucFwd .. | .ucMcst | .ucGath .. | .ucDone
  | .ucDrop .. | .ucTmo .. | .ucBkup .. | .ucCnta .. | .ucEnd | .awlGld .. | .awlGst .. | .awlBget .. | .awlBput .. | .awlTswr ..
  | .awlTsrd .. | .awlRcrd .. | .awlRcwr .. | .awlRcadd .. | .awlWaitev .. | .clauseFetch | .meetRelease | .holdcntExpiry
  | .reformRelease | .clauseResume | .trapEntry | .ctxElogTailWrite | .ctxElogStatClr | .haltComplete | .teamRetire
  | .queueDisciplineTimeout | .timerExpiry | .svcRecordWrite | .irqMsiPost | .ctxSvcTailWrite | .loadComplete | .storeAck
  | .homeAccessApply | .atomicComplete | .presenceParkRelease | .translationWalk | .faultRecordPost | .xlatReplyRetry | .xlatReplyFail
  | .barrierUpdateApply | .bwaitWake | .waitaMonitorWake | .waitaPollReread | .fenceComplete | .cctlComplete | .updateOnlyRegistration
  | .updateOnlyRecall | .coreLsStatClr | .acceptance | .copyPiece | .holdingBufferDrain | .coreKickStatusClr | .tileFetchRead
  | .matrixRunStart | .matrixWriteback | .governorWindowBoundary | .coreMtxStallClr | .farOperationApply | .invalStart | .invalDone
  | .msideXfqTailWrite | .msideRegionWrite | .scrubRead | .carve | .carveComplete | .uncarve | .snapshotCopy | .snapshotRestore
  | .ctxSnapStatClr | .linkRetransmit | .retryResend | .msideNetStatClr | .queueWrite | .launchAccept | .launchReady | .teamDispatch
  | .quantumExpiry | .teamSave | .teamRestore | .teamMove | .stepBoundaryComplete | .launchRetire | .launchKill | .ctxKillLaunch
  | .ctxKillAll | .ctxSchedStatClr | .ctxVdieMapWrite | .aliasStoreAccept | .tileFire | .packetForward | .packetMatch | .chunkDeadline
  | .heldPacketRelease | .lateNotice | .leafAcceptance | .tileComplete | .answerWaitExpiry | .remoteOperation | .readResponse
  | .transportExhausted | .triggeredSendFire | .putInject | .putAcknowledgement | .saddleCollCfgWrite | .saddleCollStatClr
  | .saddlePortStatClr | .rctrWrite | .awlRun | .awlReset | .awlLoadGo | .awlLoadComplete | .awlCtxLock | .awlDoorbell
  | .awlTimerExpiry | .awlWaitevWake | .awlException | .packageReset | .hostLockWrite | .hostFatalReq | .hostFatalDumped
  | .watchdogService | .watchdogExpiry | .thermalTrip | .powerClamp | .hostMsiStatClr | .hostCreditGo | .hostCreditApply
  | .hostFeatAckWrite | .hostFeatCommit | .pcieInboundRequest | .pcieIntx | .pcieOutbound | .getVersion | .getCapabilities
  | .negotiateAlgorithms | .getDigests | .getCertificate | .challenge | .getMeasurements | .keyExchange | .finish | .endSession
  | .vendorDefinedRequest | .erase | .registerWrite | .awlStandardInstruction | .hostHartAccess => none

/-- The 32-bit word of a microcode or custom Awl instruction (R406, R432 to R436). -/
def encode32 : Instr → Option (BitVec 32)
  | .ucLdh d s => some ((0x0 : BitVec 4) ++ d ++ s ++ (0x0 : BitVec 16))
  | .ucSeth d i => some ((0x1 : BitVec 4) ++ d ++ (0x0 : BitVec 4) ++ i)
  | .ucAddh d a i => some ((0x2 : BitVec 4) ++ d ++ a ++ (0x0 : BitVec 4) ++ i)
  | .ucCmpj a b c t => some ((0x3 : BitVec 4) ++ a ++ b ++ c ++ (0x0 : BitVec 5) ++ t)
  | .ucJmp t => some ((0x40000 : BitVec 20) ++ t)
  | .ucComb c => some ((0x5 : BitVec 4) ++ c ++ (0x0 : BitVec 24))
  | .ucHold m => some ((0x30000000 : BitVec 31) ++ m)
  | .ucFwd p => some ((0x7 : BitVec 4) ++ p ++ (0x0 : BitVec 24))
  | .ucGath a => some ((0x9 : BitVec 4) ++ a ++ (0x0 : BitVec 24))
  | .ucDrop k => some ((0xb : BitVec 4) ++ k ++ (0x0 : BitVec 24))
  | .ucTmo c => some ((0xc : BitVec 4) ++ c ++ (0x0 : BitVec 24))
  | .ucBkup c => some ((0xd : BitVec 4) ++ c ++ (0x0 : BitVec 24))
  | .ucCnta n b => some ((0xe : BitVec 4) ++ n ++ b ++ (0x0 : BitVec 20))
  | .awlGld s a d => some ((0x0 : BitVec 5) ++ s ++ (0x0 : BitVec 5) ++ a ++ (0x0 : BitVec 3) ++ d ++ (0xb : BitVec 7))
  | .awlGst s b a => some ((0x0 : BitVec 5) ++ s ++ b ++ a ++ (0x100b : BitVec 15))
  | .awlBget l a => some ((0x0 : BitVec 7) ++ l ++ a ++ (0x200b : BitVec 15))
  | .awlBput l a => some ((0x0 : BitVec 7) ++ l ++ a ++ (0x300b : BitVec 15))
  | .awlTswr e i d => some ((0x0 : BitVec 7) ++ e ++ i ++ (0x0 : BitVec 3) ++ d ++ (0x2b : BitVec 7))
  | .awlTsrd e d => some ((0x0 : BitVec 12) ++ e ++ (0x1 : BitVec 3) ++ d ++ (0x2b : BitVec 7))
  | .awlRcrd c d => some ((0x0 : BitVec 12) ++ c ++ (0x2 : BitVec 3) ++ d ++ (0x2b : BitVec 7))
  | .awlRcwr v c => some ((0x0 : BitVec 7) ++ v ++ c ++ (0x302b : BitVec 15))
  | .awlRcadd v c => some ((0x0 : BitVec 7) ++ v ++ c ++ (0x402b : BitVec 15))
  | .awlWaitev m d => some ((0x0 : BitVec 12) ++ m ++ (0x5 : BitVec 3) ++ d ++ (0x2b : BitVec 7))
  | .sadd .. | .saddImm .. | .ssub .. | .ssubImm .. | .smul .. | .smulImm .. | .smulh .. | .sdiv .. | .srem .. | .sand .. | .sandImm ..
  | .sor .. | .sorImm .. | .sxor .. | .sxorImm .. | .sshl .. | .sshlImm .. | .sshr .. | .sshrImm .. | .ssar .. | .ssarImm .. | .smin ..
  | .smax .. | .scmp .. | .smov .. | .sli .. | .slih .. | .ssel .. | .sbr .. | .sjmp .. | .scall .. | .sret .. | .sloop .. | .dqpush ..
  | .aqpush .. | .aqstep .. | .qstat .. | .sld .. | .sst .. | .srd .. | .swr .. | .iadd .. | .iaddImm .. | .isub .. | .isubImm ..
  | .imul .. | .imulImm .. | .imulh .. | .imad .. | .imin .. | .imax .. | .iabs .. | .ineg .. | .iand .. | .iandImm .. | .ior ..
  | .iorImm .. | .ixor .. | .ixorImm .. | .inot .. | .ishl .. | .ishlImm .. | .ishr .. | .ishrImm .. | .isar .. | .isarImm ..
  | .ifunl .. | .ipopc .. | .iclz .. | .ibrev .. | .ibfx .. | .ibfi .. | .icmp .. | .isel .. | .iaddc .. | .idot4 .. | .bperm ..
  | .bpermImm .. | .fadd .. | .fsub .. | .fmul .. | .ffma .. | .fmin .. | .fmax .. | .fabs .. | .fneg .. | .fcmp .. | .fdiv ..
  | .frcp .. | .frsq .. | .fsqrt .. | .fexp2 .. | .flog2 .. | .fsin .. | .fcos .. | .ftanh .. | .fclass .. | .fdot2 .. | .cvt ..
  | .cvtsc .. | .pack .. | .unpk .. | .rng .. | .mov .. | .movi .. | .movh .. | .vrd .. | .bra .. | .bru .. | .call .. | .ret ..
  | .jmpr .. | .exit .. | .meet .. | .join .. | .leave .. | .waitm .. | .maskop .. | .maskmv .. | .maskpc .. | .vote .. | .shfl ..
  | .bcast .. | .redx .. | .scanx .. | .matchx .. | .sample .. | .dqpop .. | .aqpop .. | .ld .. | .st .. | .ldq .. | .stq .. | .pref ..
  | .prsq .. | .kick .. | .atom .. | .acas .. | .red .. | .binit .. | .barr .. | .barrx .. | .bexp .. | .bwait .. | .btest ..
  | .bdrop .. | .fence .. | .waitc .. | .waita .. | .cctl .. | .mma .. | .mmas .. | .mmax .. | .mzero .. | .mpin .. | .munpin ..
  | .mstat .. | .racc .. | .raccx .. | .rfold .. | .rclr .. | .spawn .. | .step .. | .yield .. | .dieq .. | .hops .. | .nop ..
  | .trap .. | .svc .. | .irq .. | .eret .. | .timrd .. | .timarm .. | .halt .. | .clauseFetch | .meetRelease | .holdcntExpiry
  | .reformRelease | .clauseResume | .trapEntry | .ctxElogTailWrite | .ctxElogStatClr | .haltComplete | .teamRetire
  | .queueDisciplineTimeout | .timerExpiry | .svcRecordWrite | .irqMsiPost | .ctxSvcTailWrite | .loadComplete | .storeAck
  | .homeAccessApply | .atomicComplete | .presenceParkRelease | .translationWalk | .faultRecordPost | .xlatReplyRetry | .xlatReplyFail
  | .barrierUpdateApply | .bwaitWake | .waitaMonitorWake | .waitaPollReread | .fenceComplete | .cctlComplete | .updateOnlyRegistration
  | .updateOnlyRecall | .coreLsStatClr | .acceptance | .copyPiece | .holdingBufferDrain | .coreKickStatusClr | .tileFetchRead
  | .matrixRunStart | .matrixWriteback | .governorWindowBoundary | .coreMtxStallClr | .farOperationApply | .invalStart | .invalDone
  | .msideXfqTailWrite | .msideRegionWrite | .scrubRead | .carve | .carveComplete | .uncarve | .snapshotCopy | .snapshotRestore
  | .ctxSnapStatClr | .linkRetransmit | .retryResend | .msideNetStatClr | .queueWrite | .launchAccept | .launchReady | .teamDispatch
  | .quantumExpiry | .teamSave | .teamRestore | .teamMove | .stepBoundaryComplete | .launchRetire | .launchKill | .ctxKillLaunch
  | .ctxKillAll | .ctxSchedStatClr | .ctxVdieMapWrite | .aliasStoreAccept | .tileFire | .packetForward | .packetMatch | .chunkDeadline
  | .heldPacketRelease | .lateNotice | .leafAcceptance | .tileComplete | .answerWaitExpiry | .remoteOperation | .readResponse
  | .transportExhausted | .triggeredSendFire | .putInject | .putAcknowledgement | .saddleCollCfgWrite | .saddleCollStatClr
  | .saddlePortStatClr | .rctrWrite | .awlRun | .awlReset | .awlLoadGo | .awlLoadComplete | .awlCtxLock | .awlDoorbell
  | .awlTimerExpiry | .awlWaitevWake | .awlException | .packageReset | .hostLockWrite | .hostFatalReq | .hostFatalDumped
  | .watchdogService | .watchdogExpiry | .thermalTrip | .powerClamp | .hostMsiStatClr | .hostCreditGo | .hostCreditApply
  | .hostFeatAckWrite | .hostFeatCommit | .pcieInboundRequest | .pcieIntx | .pcieOutbound | .getVersion | .getCapabilities
  | .negotiateAlgorithms | .getDigests | .getCertificate | .challenge | .getMeasurements | .keyExchange | .finish | .endSession
  | .vendorDefinedRequest | .erase | .registerWrite | .awlStandardInstruction | .hostHartAccess => none
  | .ucMcst => some ((0x80000000 : BitVec 32))
  | .ucDone => some ((0xa0000000 : BitVec 32))
  | .ucEnd => some ((0xf0000000 : BitVec 32))

/-- A clause header by its fields (R44). -/
structure Header where
  tag : Nat
  reserved : Nat
  hint : Nat
  drain : Bool
  aqsel : Nat
  waq : Bool
  wdq : Bool
  wbMax : Nat
  wbClass : Nat
  waMax : Nat
  waClass : Nat
  stream : Nat
  count : Nat
  cls : Nat
  deriving DecidableEq, Repr

/-- The fields of a header word (R44). -/
def getHeader (w : BitVec 64) : Header :=
  let n := w.toNat
  { tag := bits n 63 56, reserved := bits n 55 40, hint := bits n 39 33, drain := bit n 32, aqsel := bits n 31 30,
    waq := bit n 29, wdq := bit n 28, wbMax := bits n 27 22, wbClass := bits n 21 19, waMax := bits n 18 13,
    waClass := bits n 12 10, stream := bits n 9 9, count := bits n 8 4, cls := bits n 3 0 }

/-- A header word from its fields (R44). -/
def putHeader (h : Header) : BitVec 64 :=
  BitVec.ofNat 64 (h.tag * 2 ^ 56 + h.reserved * 2 ^ 40 + h.hint * 2 ^ 33 + b2n h.drain * 2 ^ 32 + h.aqsel * 2 ^ 30
    + b2n h.waq * 2 ^ 29 + b2n h.wdq * 2 ^ 28 + h.wbMax * 2 ^ 22 + h.wbClass * 2 ^ 19 + h.waMax * 2 ^ 13
    + h.waClass * 2 ^ 10 + h.stream * 2 ^ 9 + h.count * 2 ^ 4 + h.cls)

/-- TAG and STREAM of a word are those of a clause header of the stream: the check of a transfer target (R46). -/
def targetOk (lead : Bool) (w : BitVec 64) : Bool :=
  (getHeader w).tag == 0xA7 && (getHeader w).stream == b2n lead

/-- A fetched header passes the checks of R46 (fault 0x02 otherwise). -/
def headerOk (lead : Bool) (w : BitVec 64) : Bool :=
  let h := getHeader w
  targetOk lead w && decide (h.cls ≤ 7) && decide (1 ≤ h.count) && decide (h.count ≤ 24) && h.reserved == 0
    && !(lead && (h.wdq || h.waq))

/-- The class is allowed in some form in the stream (R46, R59). -/
def classOk (lead : Bool) (c : Cls) : Bool :=
  match c with
  | .lead => lead
  | .lane | .grp | .far => !lead
  | .mem | .mtx | .sched | .sys => true

/-- What the decoder reads from the bits of an opcode-table row, its first word lowest (used to check the table): 32
bits are a microcode or custom Awl word; 128 bits are a clause header and its first instruction word. -/
def decodeTableWord (nbits w : Nat) : Option Instr :=
  if nbits = 32 then
    match decodeMicro (BitVec.ofNat 32 w) with
    | some i => some i
    | none => decodeAwl (BitVec.ofNat 32 w)
  else if nbits = 128 then
    let h := BitVec.ofNat 64 w
    let lead := (getHeader h).stream == 1
    if headerOk lead h then
      match Cls.ofCode (getHeader h).cls with
      | some c =>
        match decodeWord c lead (BitVec.ofNat 64 (w / 2 ^ 64)) with
        | .ok i => some i
        | .error _ => none
      | none => none
    else none
  else none

end Sys2Proof
end

