-- ==== Sys2Proof/Config.lean ====
section
/-! DEFINITION. What is fixed for the machine but not by the spec: the free values, which nothing in the model can
evaluate, and the published functions that the spec names without giving them. -/

namespace Sys2Proof.Config

/-- Free values (log entry 9): the value the spec leaves open at the n-th place where the machine needs one. -/
opaque freeWord : Nat → BitVec 64

/-- The set of a line in an L1, and in the L2 slice of its home (log entry 161); the spec gives neither. -/
opaque l1Set : Nat → Nat
opaque l2Set : Nat → Nat

/-- SHA-384 of a byte string (published standard named by 13_host.md), as a 384-bit number. -/
opaque sha384 : List Byte → BitVec 384

/-- Verification of a signature of an image: key digest, signed bytes, signature (published standards named by
13_host.md R452 and 12_awl.md R443). -/
opaque verify : BitVec 384 → List Byte → List Byte → Bool

/-- A signature made by the package's attestation keys (13_host.md R455). -/
opaque sign : Nat → List Byte → List Byte

/-- Digest of the boot ROM, measurement 1 (13_host.md R455); the spec gives no contents. -/
opaque romDigest : BitVec 384

/-- What an SPDM answer carries beside what R455 states (capabilities, certificates, nonces, exchange data): by request
code, free value number and request. -/
opaque spdmBody : Nat → Nat → List Byte → List Byte

end Sys2Proof.Config
end

