-- ==== Sys2Proof/Machine/Float.lean ====
section
/-! DEFINITION. The number formats (R137 to R142), rounding (R143 to R146), the exact sum (R148), X128 (R141, R142, R322),
and the correctly rounded functions of R163, on codes held as natural numbers. -/

namespace Sys2Proof.Machine

/-- A floating format (R137): exponent and fraction bits, bias, whether it has infinities, its largest finite code and
its canonical NaN. -/
structure Fmt where
  eb : Nat
  mb : Nat
  bias : Nat
  hasInf : Bool
  big : Nat
  nan : Nat
  deriving DecidableEq, Repr

def f32 : Fmt := { eb := 8, mb := 23, bias := 127, hasInf := true, big := 0x7F7FFFFF, nan := 0x7FC00000 }
def f16 : Fmt := { eb := 5, mb := 10, bias := 15, hasInf := true, big := 0x7BFF, nan := 0x7E00 }
def b16 : Fmt := { eb := 8, mb := 7, bias := 127, hasInf := true, big := 0x7F7F, nan := 0x7FC0 }
def e4m3 : Fmt := { eb := 4, mb := 3, bias := 7, hasInf := false, big := 0x7E, nan := 0x7F }
def e5m2 : Fmt := { eb := 5, mb := 2, bias := 15, hasInf := true, big := 0x7B, nan := 0x7E }
/-- E2M1 has no NaN: a NaN becomes 0x0 (R146). -/
def e2m1 : Fmt := { eb := 2, mb := 1, bias := 1, hasInf := false, big := 0x7, nan := 0x0 }

/-- Bit position of the sign. -/
def Fmt.top (f : Fmt) : Nat := f.eb + f.mb

/-- The code of a sign and a magnitude code. -/
def Fmt.signed (f : Fmt) (neg : Bool) (mag : Nat) : Nat := if neg then 2 ^ f.top + mag else mag

/-- The magnitude code of an infinity. -/
def Fmt.inf (f : Fmt) : Nat := (2 ^ f.eb - 1) * 2 ^ f.mb

/-- A value: NaN, a signed infinity, or (−1)^neg × m × 2^e (R138). -/
inductive FVal where
  | nan
  | inf (neg : Bool)
  | fin (neg : Bool) (m : Nat) (e : Int)
  deriving DecidableEq, Repr

/-- The value of a code (R137, R138); bits above the format are ignored (R140). -/
def Fmt.val (f : Fmt) (code : Nat) : FVal :=
  let neg := bit code f.top
  let mag := code % 2 ^ f.top
  let ex := mag / 2 ^ f.mb
  let fr := mag % 2 ^ f.mb
  if f.hasInf && ex == 2 ^ f.eb - 1 then (if fr = 0 then .inf neg else .nan)
  else if !f.hasInf && f.eb == 4 && mag == 0x7F then .nan
  else if ex = 0 then .fin neg fr (1 - (f.bias : Int) - f.mb)
  else .fin neg (2 ^ f.mb + fr) ((ex : Int) - f.bias - f.mb)

/-- The value of a signed integer. -/
def ofInt (x : Int) : FVal := .fin (decide (x < 0)) x.natAbs 0

def FVal.isNan : FVal → Bool
  | .nan => true
  | _ => false

def FVal.neg : FVal → FVal
  | .nan => .nan
  | .inf s => .inf (!s)
  | .fin s m e => .fin (!s) m e

/-- A value times a power of two. -/
def FVal.scale (k : Int) : FVal → FVal
  | .fin s m e => .fin s m (e + k)
  | v => v

/-- The exact product of two values (R148). -/
def FVal.mul : FVal → FVal → FVal
  | .nan, _ => .nan
  | _, .nan => .nan
  | .inf s, .inf t => .inf (s != t)
  | .inf s, .fin t m _ => if m = 0 then .nan else .inf (s != t)
  | .fin s m _, .inf t => if m = 0 then .nan else .inf (s != t)
  | .fin s m e, .fin t n d => .fin (s != t) (m * n) (e + d)

/-! ## Rounding -/

/-- Overflow results by target and rounding mode (R145, R146). Modes: 0 .RN, 1 .RZ, 2 .RP, 3 .RM, 4 .RS. -/
def Fmt.overflow (f : Fmt) (rm : Nat) (sat neg : Bool) : Nat :=
  let largest := f.signed neg f.big
  let away := if f.hasInf then f.signed neg f.inf else if f.eb = 4 then f.nan else largest
  if sat then largest
  else match rm with
    | 1 => largest
    | 2 => if neg then largest else away
    | 3 => if neg then away else largest
    | _ => away

/-- Whether the magnitude rounds up: the discarded part of m (its low sh bits, and more below when sticky). -/
def roundUpMag (rm : Nat) (neg odd : Bool) (rem sh : Nat) (sticky : Bool) : Bool :=
  let low := rem * 2 + b2n sticky
  match rm with
  | 1 => false
  | 2 => !neg && low != 0
  | 3 => neg && low != 0
  | _ => decide (2 ^ sh < low) || (low == 2 ^ sh && odd)

/-- The exponent of the spacing of G at m × 2^e (R143, R144). -/
def Fmt.spacing (f : Fmt) (m : Nat) (e : Int) : Int :=
  max ((Nat.log2 m : Int) + e) (1 - (f.bias : Int)) - f.mb

/-- Multiple of the spacing that a magnitude rounds to under a mode other than .RS; the value is m × 2^e, plus something
below one unit of m when sticky. -/
def Fmt.steps (f : Fmt) (rm : Nat) (neg : Bool) (m : Nat) (e : Int) (sticky : Bool) : Nat :=
  let sh := f.spacing m e - e
  if sh ≤ 0 then m * 2 ^ (-sh).toNat
  else
    let k := sh.toNat
    m / 2 ^ k + b2n (roundUpMag rm neg (m / 2 ^ k % 2 == 1) (m % 2 ^ k) k sticky)

/-- The magnitude code of n steps of the spacing 2^q. -/
def Fmt.codeOf (f : Fmt) (n : Nat) (q : Int) : Nat :=
  if n < 2 ^ f.mb then n else (q + f.mb + f.bias).toNat * 2 ^ f.mb + (n - 2 ^ f.mb)

/-- Round a nonzero magnitude (R143 to R146). rnd is the random operand of .RS. -/
def Fmt.roundMag (f : Fmt) (rm : Nat) (sat : Bool) (rnd : Nat) (neg : Bool) (m : Nat) (e : Int) (sticky : Bool) : Nat :=
  let q := f.spacing m e
  let rn := f.codeOf (f.steps 0 neg m e sticky) q
  if rm = 4 then
    if f.big < rn then f.overflow 4 sat neg
    else
      let sh := q - e
      let n := if sh ≤ 0 then m * 2 ^ (-sh).toNat else (m * 2 ^ 32 + rnd * 2 ^ sh.toNat) / 2 ^ (sh.toNat + 32)
      let c := f.codeOf n q
      if f.big < c then f.overflow 1 sat neg else f.signed neg c
  else
    let c := f.codeOf (f.steps rm neg m e sticky) q
    if f.big < c then f.overflow rm sat neg else f.signed neg c

/-- round(x, fmt, rm) of R143, with saturation and the random operand of .RS. -/
def Fmt.round (f : Fmt) (rm : Nat) (sat : Bool) (rnd : Nat) : FVal → Nat
  | .nan => f.nan
  | .inf neg => if sat then f.signed neg f.big else if f.hasInf then f.signed neg f.inf else f.overflow rm false neg
  | .fin neg m e => if m = 0 then f.signed neg 0 else f.roundMag rm sat rnd neg m e false

/-- round_rne (R13). -/
def Fmt.rne (f : Fmt) (v : FVal) : Nat := f.round 0 false 0 v

/-! ## Exact sums -/

/-- Add two dyadic numbers exactly. -/
def addDyadic (a b : Int × Int) : Int × Int :=
  if a.2 ≤ b.2 then (a.1 + b.1 * (2 ^ (b.2 - a.2).toNat : Nat), a.2)
  else (a.1 * (2 ^ (a.2 - b.2).toNat : Nat) + b.1, b.2)

/-- The dyadic number of a finite value. -/
def FVal.dyadic : FVal → Int × Int
  | .fin s m e => (if s then -(m : Int) else m, e)
  | _ => (0, 0)

def FVal.isInf (neg : Bool) : FVal → Bool
  | .inf s => s == neg
  | _ => false

def FVal.isNegZero : FVal → Bool
  | .fin s m _ => s && m == 0
  | _ => false

/-- The exact sum of terms as a value, the zero of R148 decided by the rounding mode. -/
def exactSum (rm : Nat) (l : List FVal) : FVal :=
  if l.any FVal.isNan || (l.any (FVal.isInf false) && l.any (FVal.isInf true)) then .nan
  else if l.any (FVal.isInf false) then .inf false
  else if l.any (FVal.isInf true) then .inf true
  else
    let t := l.foldl (fun acc v => addDyadic acc v.dyadic) (0, 0)
    if t.1 = 0 then .fin (l.all FVal.isNegZero || rm == 3) 0 0
    else .fin (decide (t.1 < 0)) t.1.natAbs t.2

/-- sum_round(T, fmt, rm) of R148. -/
def Fmt.sumRound (f : Fmt) (rm rnd : Nat) (l : List FVal) : Nat := f.round rm false rnd (exactSum rm l)

/-- F32 addition rounded to nearest even, of codes. -/
def addF32 (a b : Nat) : Nat := f32.sumRound 0 0 [f32.val a, f32.val b]

/-! ## Comparison -/

/-- A finite or infinite value as a comparable dyadic; infinities lie beyond every format's range. -/
def FVal.order : FVal → Int × Int
  | .inf s => (if s then -1 else 1, 5000)
  | v => v.dyadic

/-- a < b and a = b for values that are not NaN. -/
def FVal.lt (a b : FVal) : Bool :=
  decide ((addDyadic a.order (-(b.order.1), b.order.2)).1 < 0)
def FVal.eq (a b : FVal) : Bool :=
  decide ((addDyadic a.order (-(b.order.1), b.order.2)).1 = 0)

def FVal.isNeg : FVal → Bool
  | .nan => false
  | .inf s => s
  | .fin s _ _ => s

/-- minimumNumber and maximumNumber of two codes (R162): −0 orders below +0. -/
def Fmt.minMax (f : Fmt) (max : Bool) (a b : Nat) : Nat :=
  let x := f.val a
  let y := f.val b
  match x.isNan, y.isNan with
  | true, true => f.nan
  | true, false => b % 2 ^ (f.top + 1)
  | false, true => a % 2 ^ (f.top + 1)
  | false, false =>
    let less := x.lt y || (x.eq y && x.isNeg && !y.isNeg)
    (if less != max then a else b) % 2 ^ (f.top + 1)

/-! ## X128 -/

/-- The integer nearest a value in units of 2^e, ties to even. -/
def toUnits (v : FVal) (e : Int) : Int :=
  match v with
  | .fin s m x =>
    let sh := e - x
    let n : Nat := if sh ≤ 0 then m * 2 ^ (-sh).toNat
      else m / 2 ^ sh.toNat + b2n (roundUpMag 0 s (m / 2 ^ sh.toNat % 2 == 1) (m % 2 ^ sh.toNat) sh.toNat false)
    if s then -(n : Int) else n
  | _ => 0

/-- A contribution to a slot: q, overflow, invalid (R141). -/
def toX128 (v : FVal) (e : Int) : Int × Bool × Bool :=
  match v with
  | .fin _ _ _ =>
    let q := toUnits v e
    if q > 2 ^ 125 - 1 then (2 ^ 125 - 1, true, false)
    else if q < -(2 ^ 125) then (-(2 ^ 125), true, false)
    else (q, false, false)
  | _ => (0, false, true)

/-- The two's-complement integer of a slot, bits 125:0. -/
def slotQ (slot : Nat) : Int := sext slot 126

/-- A slot from its integer and flags. -/
def mkSlot (q : Int) (ovf inv : Bool) : Nat := wrap q 126 + b2n ovf * 2 ^ 126 + b2n inv * 2 ^ 127

/-- add_x128 (R322). -/
def addX128 (slot : Nat) (q : Int) (ovf inv : Bool) : Nat :=
  let i := bit slot 127 || inv
  if bit slot 126 then mkSlot (slotQ slot) true i
  else if ovf then mkSlot q true i
  else
    let s := slotQ slot + q
    if s > 2 ^ 125 - 1 then mkSlot (2 ^ 125 - 1) true i
    else if s < -(2 ^ 125) then mkSlot (-(2 ^ 125)) true i
    else mkSlot s false i

/-- A slot read as a floating value (R142). -/
def foldX128 (slot : Nat) (e : Int) (f : Fmt) : Nat :=
  if bit slot 127 then f.nan
  else if bit slot 126 then f.signed (bit slot 125) f.inf
  else if slotQ slot = 0 then 0
  else f.rne ((ofInt (slotQ slot)).scale e)

/-! ## Correctly rounded functions (R163) -/

/-- Integer square root by binary digits: the greatest r with r² ≤ n, from bit k down. -/
def isqrtFrom (n : Nat) : Nat → Nat → Nat
  | 0, r => r
  | k + 1, r => isqrtFrom n k (if (r + 2 ^ k) * (r + 2 ^ k) ≤ n then r + 2 ^ k else r)

def isqrt (n : Nat) : Nat := isqrtFrom n (Nat.log2 n / 2 + 1) 0

/-- Round a positive magnitude with a sign; m is floor of the value over 2^e. -/
def Fmt.finishMag (f : Fmt) (rm : Nat) (neg : Bool) (m : Nat) (e : Int) (sticky : Bool) : Nat :=
  if m = 0 && !sticky then f.signed neg 0 else if m = 0 then f.roundMag rm false 0 neg 1 (e - 2) true
  else f.roundMag rm false 0 neg m e sticky

/-- FDIV of values (R163). -/
def Fmt.div (f : Fmt) (rm : Nat) (a b : FVal) : Nat :=
  match a, b with
  | .nan, _ => f.nan
  | _, .nan => f.nan
  | .inf _, .inf _ => f.nan
  | .inf s, .fin t _ _ => f.signed (s != t) f.inf
  | .fin s _ _, .inf t => f.signed (s != t) 0
  | .fin s m e, .fin t n d =>
    if n = 0 then (if m = 0 then f.nan else f.signed (s != t) f.inf)
    else if m = 0 then f.signed (s != t) 0
    else f.roundMag rm false 0 (s != t) (m * 2 ^ 128 / n) (e - d - 128) (m * 2 ^ 128 % n != 0)

/-- FSQRT of a value. -/
def Fmt.sqrt (f : Fmt) (rm : Nat) (a : FVal) : Nat :=
  match a with
  | .nan => f.nan
  | .inf s => if s then f.nan else f.inf
  | .fin s m e =>
    if m = 0 then f.signed s 0 else if s then f.nan
    else
      let odd := e % 2 != 0
      let n := (if odd then 2 * m else m) * 2 ^ 128
      let r := isqrt n
      f.roundMag rm false 0 false r ((if odd then e - 1 else e) / 2 - 64) (r * r != n)

/-- FRSQ of a value. -/
def Fmt.rsqrt (f : Fmt) (rm : Nat) (a : FVal) : Nat :=
  match a with
  | .nan => f.nan
  | .inf s => if s then f.nan else 0
  | .fin s m e =>
    if m = 0 then f.signed s f.inf else if s then f.nan
    else
      let odd := e % 2 != 0
      let n := if odd then 2 * m else m
      let r := isqrt (2 ^ 256 / n)
      f.roundMag rm false 0 false r (-(if odd then e - 1 else e) / 2 - 128) (r * r * n != 2 ^ 256)

/-- Fraction bits of the fixed-point arithmetic used for elementary functions. -/
def fp : Nat := 704

/-- arctanh or arctan series of 1 / k at scale 2^fp: the sum of ±1 / ((2i + 1) k^(2i + 1)). -/
def recipSeries (alt : Bool) (k : Nat) : Nat → Nat → Nat → Int
  | 0, _, _ => 0
  | n + 1, i, p =>
    let t : Int := (p / (2 * i + 1) : Nat)
    (if alt && i % 2 == 1 then -t else t) + recipSeries alt k n (i + 1) (p / (k * k))

/-- ln 2 = 2 arctanh(1/3), at scale 2^fp. -/
def fpLn2 : Int := 2 * recipSeries false 3 240 0 (2 ^ fp / 3)

/-- π = 16 arctan(1/5) − 4 arctan(1/239), at scale 2^fp. -/
def fpPi : Int := 16 * recipSeries true 5 160 0 (2 ^ fp / 5) - 4 * recipSeries true 239 60 0 (2 ^ fp / 239)

/-- Σ x^i / i! from term i on, at scale 2^fp; t is the term. -/
def expSeries (x : Int) : Nat → Nat → Int → Int
  | 0, _, _ => 0
  | n + 1, i, t => t + expSeries x n (i + 1) (t * x / 2 ^ fp / (i + 1 : Nat))

/-- e^x for |x| ≤ 1, at scale 2^fp. -/
def fpExp (x : Int) : Int := expSeries x 150 0 (2 ^ fp)

/-- The alternating series of sine (i from 1) and cosine (i from 0): t is the term, x2 the square of x. -/
def trigSeries (x2 : Int) : Nat → Nat → Int → Int
  | 0, _, _ => 0
  | n + 1, i, t => t + trigSeries x2 n (i + 2) (-(t * x2 / 2 ^ fp) / ((i + 1) * (i + 2) : Nat))

def fpSin (x : Int) : Int := trigSeries (x * x / 2 ^ fp) 80 1 x
def fpCos (x : Int) : Int := trigSeries (x * x / 2 ^ fp) 80 0 (2 ^ fp)

/-- arctanh of z at scale 2^fp: the sum of z^(2i+1) / (2i + 1). -/
def atanhSeries (z2 : Int) : Nat → Nat → Int → Int
  | 0, _, _ => 0
  | n + 1, i, p => p / (2 * i + 1 : Nat) + atanhSeries z2 n (i + 1) (p * z2 / 2 ^ fp)

/-- Round a value that lies within 2^24 units of x × 2^e and is not itself in the format. At 704 fraction bits no value of these
functions at an operand of at most 32 bits is known to lie that close to a place where the rounding changes (log entry 10). -/
def Fmt.settle (f : Fmt) (rm : Nat) (neg : Bool) (x : Int) (e : Int) : Nat := f.finishMag rm neg x.toNat e true

/-- m × 2^e as a fixed-point number, rounded down. -/
def fixed (m : Nat) (e : Int) : Int :=
  let k := e + fp
  if 0 ≤ k then (m * 2 ^ k.toNat : Nat) else (m / 2 ^ (-k).toNat : Nat)

/-- FEXP2 (R163). -/
def Fmt.exp2 (f : Fmt) (rm : Nat) (code : Nat) : Nat :=
  match f.val code with
  | .nan => f.nan
  | .inf s => if s then 0 else f.inf
  | .fin s m e =>
    if m = 0 then f.rne (ofInt 1)
    else if (Nat.log2 m : Int) + e ≥ 12 then (if s then f.finishMag rm false 0 (-5000) true else f.overflow rm false false)
    else
      let a := if s then -(fixed m e) else fixed m e
      let whole := a / 2 ^ fp
      let frac := a % 2 ^ fp
      if frac = 0 then f.roundMag rm false 0 false 1 whole false
      else f.settle rm false (fpExp (frac * fpLn2 / 2 ^ fp)) (whole - fp)

/-- FLOG2 (R163). -/
def Fmt.log2 (f : Fmt) (rm : Nat) (code : Nat) : Nat :=
  match f.val code with
  | .nan => f.nan
  | .inf s => if s then f.nan else f.inf
  | .fin s m e =>
    if m = 0 then f.signed true f.inf else if s then f.nan
    else
      let k := Nat.log2 m
      let whole : Int := k + e
      if m = 2 ^ k then f.round rm false 0 (if whole = 0 then .fin false 0 0 else ofInt whole)
      else
        let z : Int := ((m - 2 ^ k) * 2 ^ fp / (m + 2 ^ k) : Nat)
        let ln := 2 * atanhSeries (z * z / 2 ^ fp) 240 0 z
        let v := whole * 2 ^ fp + ln * 2 ^ fp / fpLn2
        if v < 0 then f.settle rm true (-v) (-(fp : Int)) else f.settle rm false v (-(fp : Int))

/-- sin(π x) of x in units of 2^(−fp), 0 ≤ x ≤ 1/2, at scale 2^fp. -/
def fpSinPi (x : Int) : Int :=
  if 4 * x ≤ 2 ^ fp then fpSin (x * fpPi / 2 ^ fp) else fpCos ((2 ^ (fp - 1) - x) * fpPi / 2 ^ fp)

/-- FSIN: sin(π a) (R163). -/
def Fmt.sinPi (f : Fmt) (rm : Nat) (code : Nat) : Nat :=
  match f.val code with
  | .nan => f.nan
  | .inf _ => f.nan
  | .fin s m e =>
    if m = 0 || 0 ≤ e then f.signed s 0
    else
      let a := fixed m e % 2 ^ (fp + 1)
      let half := a / 2 ^ fp
      let x := a % 2 ^ fp
      if x = 0 then f.signed s 0
      else
        let neg := s != (half == 1)
        let y := if 2 * x ≤ 2 ^ fp then x else 2 ^ fp - x
        if 2 * y = 2 ^ fp then f.round rm false 0 (.fin neg 1 0)
        else f.settle rm neg (fpSinPi y) (-(fp : Int))

/-- FCOS: cos(π a) (R163). -/
def Fmt.cosPi (f : Fmt) (rm : Nat) (code : Nat) : Nat :=
  match f.val code with
  | .nan => f.nan
  | .inf _ => f.nan
  | .fin _ m e =>
    let a := if 0 ≤ e then ((m % 2 * (if e = 0 then 1 else 0) * 2 ^ fp : Nat) : Int) else fixed m e % 2 ^ (fp + 1)
    let y := if 2 ^ fp < a then 2 ^ (fp + 1) - a else a
    if y = 0 then f.rne (ofInt 1)
    else if y = 2 ^ fp then f.rne (ofInt (-1))
    else if 2 * y = 2 ^ fp then f.signed false 0
    else
      let neg := decide (2 ^ fp < 2 * y)
      let z := if neg then y - 2 ^ (fp - 1) else 2 ^ (fp - 1) - y
      f.settle rm neg (fpSinPi z) (-(fp : Int))

/-- FTANH (R163): (e^2a − 1) / (e^2a + 1). -/
def Fmt.tanh (f : Fmt) (rm : Nat) (code : Nat) : Nat :=
  match f.val code with
  | .nan => f.nan
  | .inf s => f.rne (ofInt (if s then -1 else 1))
  | .fin s m e =>
    if m = 0 then f.signed s 0
    else if (Nat.log2 m : Int) + e ≥ 7 then f.roundMag rm false 0 s (2 ^ 200 - 1) (-200) true
    else
      let a := 2 * fixed m e
      let k := a / fpLn2
      let y := fpExp (a - k * fpLn2)
      let big := y * (2 ^ k.toNat : Nat)
      f.settle rm s ((big - 2 ^ fp) * 2 ^ fp / (big + 2 ^ fp)) (-(fp : Int))

end Sys2Proof.Machine
end

