-- ==== Sys2Proof/Machine/Memory.lean ====
section
/-! DEFINITION. Memory: the operations over a memory level (R18, R29, R30, R230), the homes (R21, R246), the region table
(R335, R336), and translation (R325 to R328, R338, R339). -/

namespace Sys2Proof.Machine

/-! ## One memory level -/

/-- A byte; an unlisted byte reads 0 (R370 for on-chip levels; log entry 1 for global memory). -/
def Space.byte (m : Space) (a : Nat) : Byte := m.cells.get 0 a

/-- n bytes from an address. -/
def Space.bytes (m : Space) (a n : Nat) : List Byte := (upFrom a n).map m.byte

/-- Some byte of a range lies in a poisoned 32-byte sector (R29). -/
def Space.poisoned (m : Space) (a n : Nat) : Bool := (upFrom a n).any (fun x => m.poison.has (x / 32))

/-- Some byte of a range lies in a line whose presence bit is clear (R25). -/
def Space.isAbsent (m : Space) (a n : Nat) : Bool := (upFrom a n).any (fun x => m.absent.has (x / 128))

/-- Bytes written in order from an address. -/
def writeCells (c : Tab Byte) (a : Nat) : List Byte → Tab Byte
  | [] => c
  | b :: bs => writeCells (c.set 0 a b) (a + 1) bs

/-- Sectors that a range of n bytes at a covers whole. -/
def wholeSectors (a n : Nat) : List Nat :=
  let first := (a + 31) / 32
  upFrom first ((a + n) / 32 - first)

/-- Write bytes. A sector written whole loses its poison; a sector written in part keeps it (R30). -/
def Space.write (m : Space) (a : Nat) (bs : List Byte) : Space :=
  { m with cells := writeCells m.cells a bs, poison := (wholeSectors a bs.length).foldl NatSet.rem m.poison }

/-- Mark the sectors of a range poisoned. -/
def Space.markPoison (m : Space) (a n : Nat) : Space :=
  { m with poison := (upFrom a n).foldl (fun p x => if p.has (x / 32) then p else p.ins (x / 32)) m.poison }

/-- The barrier objects with a declared scope that a range touches (R230). -/
def Space.objectsIn (m : Space) (a n : Nat) : List Nat :=
  m.scopes.keys.filter (fun o => decide (o < a + n) && decide (a < o + 16))

/-! ## Homes -/

/-- The memory of a home. Another package's memory is not held here. -/
def State.space (s : State) : Home → Space
  | .priv tid th => match s.teams.look tid with
    | some t => (t.thread th).priv
    | none => {}
  | .scratch tid => match s.teams.look tid with
    | some t => t.scratch
    | none => {}
  | .cluster g => match s.gangs.look g with
    | some g => g.mem
    | none => {}
  | .chip k => s.chips.get {} k
  | .glob => s.glob
  | .remote _ => {}

/-- Change the memory of a home. -/
def State.updSpace (s : State) (h : Home) (f : Space → Space) : State :=
  match h with
  | .priv tid th => s.updThread tid th (fun t => { t with priv := f t.priv })
  | .scratch tid => s.updTeam tid (fun t => { t with scratch := f t.scratch })
  | .cluster g => { s with gangs := s.gangs.upd g (fun g => { g with mem := f g.mem }) }
  | .chip k => { s with chips := s.chips.upd k f }
  | .glob => { s with glob := f s.glob }
  | .remote _ => s

/-- Line monitors armed on a line of a home see a write (R237); a tile notes one to the bytes of its entry that the Saddle keeps (R445). -/
def State.noteWrite (s : State) (h : Home) (a n : Nat) : State :=
  { s with
    sad := { s.sad with tiles := s.sad.tiles.map (fun t => (t.1, match t.2.place with
      | some (h', x) => if h' = h && decide (a < x + 0x80) && decide (x + 0x38 < a + n) then { t.2 with touched := true } else t.2
      | none => t.2)) }
    ops := s.ops.map (fun p => (p.1, { p.2 with lanes := p.2.lanes.map (fun c =>
      if c.phase == .watching && (match c.home with
        | some (h', a') => h' == h && decide (a / 128 ≤ a' / 128) && decide (a' / 128 ≤ (a + n - 1) / 128)
        | none => false) then { c with seen := true } else c) })) }

/-- After a plain store to words of a barrier object its declared scope is undefined: some scope from 1 to 7 (R230). -/
def State.blurScopes (s : State) (h : Home) (a n : Nat) : State :=
  ((s.space h).objectsIn a n).foldl (fun s o =>
    (s.updSpace h (fun m => { m with scopes := m.scopes.put o (1 + (Config.freeWord s.free).toNat % 7) })).drawn) s

/-- A place that stores nothing: in a misconfigured entry of the region table (R336). -/
def lostPlace (a : Nat) : Bool := decide (2 ^ 44 ≤ a) && decide (a < 2 ^ 45)

/-- Act through a leaf of a protection mode, or through none (R340). -/
def State.through (s : State) (mode : Option Nat) : State := { s with via := mode }

/-- A byte that was written under another protection mode than that of the access (R340). -/
def State.foreign (s : State) (a : Nat) : Bool :=
  match s.via, s.modes.look a with
  | some p, some q => p != q
  | _, _ => false

/-- A byte of a home that reads as an undefined value: in a misconfigured entry (R336), written under another protection mode
(R340), or in words 2 and 3 of a barrier object (R230). -/
def State.undefinedAt (s : State) (h : Home) (a : Nat) : Bool :=
  (h = .glob && (lostPlace a || s.foreign a)) || (decide (8 ≤ a % 16) && ((s.space h).scopes.look (a / 16 * 16)).isSome)

/-- A free byte, and a free bit, for a key (log entry 9). -/
def State.freeByte (s : State) (k : Nat) : Byte := BitVec.ofNat 8 (Config.freeWord (2 ^ 64 * (s.free + 1) + k)).toNat
def State.freeBit (s : State) (k : Nat) : Bool := bit (Config.freeWord (2 ^ 128 * (s.free + 1) + k)).toNat 0

/-- A byte read from a home. -/
def State.readByte (s : State) (h : Home) (a : Nat) : Byte := if s.undefinedAt h a then s.freeByte a else (s.space h).byte a

/-- Bytes read from a home. -/
def State.readHome (s : State) (h : Home) (a n : Nat) : List Byte := (upFrom a n).map (s.readByte h)

/-- After a read of undefined bytes, the next read of them is free anew. -/
def State.afterRead (s : State) (h : Home) (a n : Nat) : State := if (upFrom a n).any (s.undefinedAt h) then s.drawn else s

/-- Put bytes at a home; global memory keeps the protection mode they were written under (R340), and a misconfigured entry
drops them (R336). -/
def State.putHome (s : State) (h : Home) (a : Nat) (bs : List Byte) : State :=
  if h = .glob && lostPlace a then s
  else
    let s := (s.updSpace h (fun m => m.write a bs)).noteWrite h a bs.length
    if h = .glob then
      { s with modes := (upFrom a bs.length).foldl (fun (m : Tab Nat) x => match s.via with
          | some p => m.put x p
          | none => m.del x) s.modes }
    else s

/-- Write bytes at a home: a plain write by any agent (R246). -/
def State.writeHome (s : State) (h : Home) (a : Nat) (bs : List Byte) : State :=
  if bs.isEmpty then s else (s.blurScopes h a bs.length).putHome h a bs

/-- A range of a home arrives poisoned: it holds poison, lies in a misconfigured entry (R336), or was written under another
protection mode, which may poison it (R340). -/
def State.poisonAt (s : State) (h : Home) (a n : Nat) : Bool :=
  (s.space h).poisoned a n || (h = .glob && (upFrom a n).any (fun x => lostPlace x || (s.foreign x && s.freeBit (x / 32))))

/-! ## The region table -/

/-- Region entry fields (R337). -/
def RegionRegs.base (r : RegionRegs) : Nat := bits r.a 21 0
def RegionRegs.size (r : RegionRegs) : Nat := bits r.a 43 22
def RegionRegs.stacks (r : RegionRegs) : Nat := bits r.a 55 44
def RegionRegs.stride (r : RegionRegs) : Nat := bits r.a 60 56
def RegionRegs.valid (r : RegionRegs) : Bool := bit r.a 63 && r.stacks != 0

/-- A package-local address lies in an entry (R335). -/
def RegionRegs.holds (r : RegionRegs) (a : Nat) : Bool :=
  r.valid && decide (r.base * 2 ^ 21 ≤ a) && decide (a < (r.base + r.size) * 2 ^ 21)

/-- The entry that decides for an address: the lowest-numbered one that contains it (R335). -/
def State.region (s : State) (a : Nat) : Option RegionRegs := s.ms.regions.vals.find? (fun r => r.holds a)

/-- Every byte of a range lies in one valid entry (R327). -/
def State.inRegion (s : State) (a n : Nat) : Bool := s.ms.regions.vals.any (fun r => r.holds a && r.holds (a + n - 1))

/-- Stack and stack-local address of a package-local address (R336). -/
def RegionRegs.stackOf (r : RegionRegs) (a : Nat) : Nat × Nat :=
  let o := a - r.base * 2 ^ 21
  let stride := 2 ^ r.stride
  let ks := setBits r.stacks 12
  let u := o / stride
  (ks.getD (u % ks.length) 0, bits r.b 14 0 * 2 ^ 21 + u / ks.length * stride + o % stride)

/-- An entry with a stride outside 8 to 21, or that gives a stack-local address at or above 64 GiB (R336). -/
def RegionRegs.misconfigured (r : RegionRegs) : Bool :=
  !(decide (8 ≤ r.stride) && decide (r.stride ≤ 21))
    || decide (2 ^ 36 < bits r.b 14 0 * 2 ^ 21
        + (r.size * 2 ^ 21 / 2 ^ r.stride + (setBits r.stacks 12).length - 1) / (setBits r.stacks 12).length * 2 ^ r.stride)

/-- The place in DRAM of a package-local address (R336). A misconfigured entry stores nothing; the model gives an address in no
entry, to which the spec gives no home, a place of its own (log entry 131). -/
def State.loc (s : State) (a : Nat) : Nat :=
  match s.region a with
  | some r => if r.misconfigured then 2 ^ 44 + a else (r.stackOf a).1 * 2 ^ 36 + (r.stackOf a).2
  | none => 2 ^ 45 + a

/-- Slices carved into chip scratchpad, as base die × 64 + slice (R344). -/
def State.carved (s : State) (k : Nat) : Bool := (s.chips.look k).isSome

/-- The first uncarved slice of a base die from h on, modulo 64 (R312). -/
def State.uncarvedFrom (s : State) (die h : Nat) : Nat → Nat
  | 0 => h % 64
  | n + 1 => if s.carved (die * 64 + h % 64) then s.uncarvedFrom die (h + 1) n else h % 64

/-- Home slice of a place in DRAM, as base die × 64 + slice (R312). -/
def State.homeSlice (s : State) (a : Nat) : Option Nat :=
  if 2 ^ 44 ≤ a then none
  else
    let k := a / 2 ^ 36
    let h := Nat.xor (Nat.xor (bits a 12 7) (bits a 18 13)) (21 * (k % 3))
    some (k / 3 * 64 + s.uncarvedFrom (k / 3) (h % 64) 64)

/-! ## The L2 (R311) -/

/-- The EVICT that an access acts with: the leaf's CACHE, where that allocates less (R326). -/
def evictOf (evict cache : Nat) : Nat := if cache = 2 then 5 else if cache = 1 && evict ≤ 3 then 4 else evict

/-- How an EVICT value marks the lines that it allocates (R214): 1 the first candidates for replacement, 2 those replaced after the normal
ones, 0 normal. -/
def evictMark (evict : Nat) : Nat := if evict = 1 || evict = 6 then 1 else if evict = 2 || evict = 3 then 2 else 0

/-- An access reaches the lines of a range at their home slices: they are allocated, with the mark of its EVICT, unless it allocates no L2
line (R214, R311). -/
def State.touchL2 (s : State) (h : Home) (a n : Nat) (evict : Nat := 0) : State :=
  if h = .glob && evict != 5 && decide (a < 2 ^ 44) then
    s.updMs (fun m => { m with l2 := (upFrom (a / 128) ((a + n + 127) / 128 - a / 128)).foldl (fun (l : Tab Nat) k => l.put k (evictMark evict)) m.l2 })
  else s

/-- Lines of one stack in its adder buffer (R320). -/
def MemSide.adderLines (m : MemSide) (stack : Nat) : List Nat := m.adder.filter (fun l => l / 2 ^ 29 == stack)

/-- A far operation's line leaves the L2 and stands in the adder buffer, which holds 256 lines of a stack; which one it evicts is
invisible (R320; log entry 25). A pinned line is filled again from the buffer at once (R303). -/
def State.intoAdder (s : State) (x : Nat) : State :=
  if 2 ^ 44 ≤ x then s
  else s.updMs (fun m =>
    let line := x / 128
    let full := !m.adder.has line && decide (256 ≤ (m.adderLines (line / 2 ^ 29)).length)
    { m with l2 := if m.pins.any (fun p => p.line == line) then m.l2 else m.l2.del line, adder := (if full then m.adder.rem ((m.adderLines (line / 2 ^ 29)).headD 0) else m.adder).ins line })

/-! ## Kinds of operation -/

/-- Operations whose lanes access memory themselves; the others (a fence, a kick, a matrix operation, a request) order
nothing by their lanes. -/
def OpKind.touches : OpKind → Bool
  | .fence | .cctl | .kick | .mma | .mmas | .mmax | .mzero | .mpin | .munpin | .spawn | .step | .svc | .irq | .timrd | .timarm => false
  | _ => true

/-- Far operations are awaited by no release (R324). -/
def OpKind.far : OpKind → Bool
  | .racc | .raccx | .rfold | .rclr => true
  | _ => false

/-- An operation that changes memory and is acknowledged (R255). -/
def OpKind.acked : OpKind → Bool
  | .st | .stq | .red | .binit => true
  | _ => false

/-- A barrier-object instruction (R231). -/
def OpKind.barrier : OpKind → Bool
  | .binit | .barr | .barrx | .bexp | .bwait | .btest | .bdrop => true
  | _ => false

/-- Whether an operation writes a register at its end. -/
def OpKind.returns : OpKind → Bool
  | .ld | .ldq | .prsq | .btest | .atom | .acas | .barr | .barrx | .bdrop | .waita | .bwait | .rfold | .mpin | .munpin => true
  | _ => false

/-- A matrix instruction that writes accumulators. -/
def OpKind.accumulates : OpKind → Bool
  | .mma | .mmas | .mmax | .mzero => true
  | _ => false

/-- Two ranges overlap. -/
def overlaps (a n b m : Nat) : Bool := decide (a < b + m) && decide (b < a + n)

/-- Bytes that an operation's lane touches. -/
def Op.bytes (o : Op) : Nat :=
  match o.kind with
  | .binit | .barr | .barrx | .bexp | .bwait | .btest | .bdrop => 16
  | .prsq => 1
  | .raccx | .rfold | .rclr => 16
  | _ => 2 ^ o.size

/-- The access of a lane has been performed at its home. -/
def Acc.performed (a : Acc) : Bool :=
  match a.phase with
  | .applied | .done | .watching => true
  | _ => false

/-- Every lane of an operation has been performed. -/
def Op.allPerformed (o : Op) : Bool := o.lanes.all (fun a => a.phase == .applied)

/-! ## Mixed sizes (R257) -/

/-- A strong access (R244). -/
def Op.strong (o : Op) : Bool :=
  match o.kind with
  | .ld | .st | .ldq | .stq => decide (1 ≤ o.scope) || o.ord != 0
  | .prsq => false
  | k => k.touches

/-- What an access of n bytes at x shares with m bytes at y, which an agent reaches at a virtual address. -/
def sharedBytes (op : Option (Nat × Nat)) (tid : Option Nat) (va x n y m : Nat) : Clash :=
  { op := op, tid := tid, addr := va + (max x y - y), lo := max x y, hi := min (x + n) (y + m) }

/-- The strong accesses not yet acknowledged, of another size than n, that share bytes of a home with n bytes at x: those of operations that
p admits, and those of engines. -/
def State.clashes (s : State) (but : Option Nat) (h : Home) (x n : Nat) (p : Acc → Bool) : List Clash :=
  s.ops.flatMap (fun q =>
    if some q.1 = but || !q.2.strong || q.2.bytes = n then []
    else q.2.lanes.filterMap (fun b => match b.home with
      | some (k, y) =>
        if k = h && b.phase != .done && p b && overlaps x n y q.2.bytes then
          some (sharedBytes (some (q.1, b.lane)) (some q.2.tid) b.addr x n y q.2.bytes)
        else none
      | none => none))
  ++ (s.ms.engine.filter (fun g => g.home = h && g.len != n && overlaps x n g.addr g.len)).map (fun g => sharedBytes none g.tid g.va x n g.addr g.len)

/-- A home in a core's scratchpad memory. -/
def Home.onChip : Home → Bool
  | .priv _ _ | .scratch _ | .cluster _ => true
  | _ => false

/-- The base die of an access's home slice; none on chip. -/
def State.dieOfHome (s : State) (h : Home) (x : Nat) : Option Nat :=
  match h with
  | .glob => (s.homeSlice x).map (· / 64)
  | .chip k => some (k / 64)
  | _ => none

/-- A home applies an access of the copy engine, a tile fetch unit or a port of the Saddle, which it acknowledges by the next clock of its
base die, or earlier with the credit or the status that follows it (R257; log entry 159). -/
def State.noteEngine (s : State) (tid : Option Nat) (h : Home) (x n va : Nat) : State :=
  match s.dieOfHome h x with
  | some d => s.updMs (fun m => { m with engine := m.engine ++ [{ home := h, addr := x, len := n, va := va, tid := tid, die := d }] })
  | none => s

/-- Accesses of engines are acknowledged. -/
def State.ackEngines (s : State) (p : EngineAcc → Bool) : State := s.updMs (fun m => { m with engine := m.engine.filter (fun g => !p g) })

/-! ## Update-only lines (R314 to R318) -/

/-- The new value of an atomic operation on n-bit words (R225): AOP, signedness, old value, operand. -/
def atomNew (aop : Nat) (signed : Bool) (n old d : Nat) : Nat :=
  let m := if d = 0 then 2 ^ n else d
  let less := if signed then decide (sext d n < sext old n) else decide (d < old)
  match aop with
  | 0 => (old + d) % 2 ^ n
  | 1 => Nat.land old d
  | 2 => Nat.lor old d
  | 3 => Nat.xor old d
  | 4 => if less then d else old
  | 5 => if less then old else d
  | 6 => d
  | 7 => (old % m + 1) % m
  | _ => (old % m + m - 1) % m

/-- Bytes of a word of a delta kind: SIZE, or 4 for F32, or 16 for X128. -/
def DeltaKind.bytes (k : DeltaKind) : Nat := 2 ^ k.size

/-- Combine a delta word, or one RED, into a word (R227, R317). -/
def DeltaKind.combine (k : DeltaKind) (old d : Nat) : Nat :=
  if k.atype = 2 then addF32 old d
  else if k.atype = 4 then addX128 old (slotQ d) (bit d 126) (bit d 127)
  else atomNew k.aop (k.atype == 1) (8 * k.bytes) old d

/-- The identity of a kind (R314). -/
def DeltaKind.ident (k : DeltaKind) : Nat :=
  if k.atype = 2 || k.atype = 4 then 0
  else match k.aop with
    | 1 => 2 ^ (8 * k.bytes) - 1
    | 4 => if k.atype = 1 then 2 ^ (8 * k.bytes - 1) - 1 else 2 ^ (8 * k.bytes) - 1
    | 5 => if k.atype = 1 then 2 ^ (8 * k.bytes - 1) else 0
    | _ => 0

/-- Apply one RED word of a team at a home in global memory; a poisoned sector discards it (R220, R227). A strong access of another size
that is not yet acknowledged meets R257. -/
def State.redAtHome (s : State) (tid : Nat) (h : Home) (a : Nat) (k : DeltaKind) (d : Nat) : State :=
  let l := (s.clashes none h a k.bytes (fun b => b.phase == .applied)).map (fun c => (tid, a, c))
  let s := (s.touchL2 h a k.bytes).updMs (fun m => { m with overlaps := m.overlaps ++ l })
  if s.poisonAt h a k.bytes then s
  else (s.writeHome h a (bytesOf k.bytes (k.combine (natOf (s.readHome h a k.bytes)) d))).afterRead h a k.bytes

/-- The home combines one holder's delta line and the core leaves the holder set (R315, R317). -/
def State.recallOne (s : State) (line core : Nat) : State :=
  match (s.core core).deltas.look line with
  | none => s.updMs (fun m => { m with holders := m.holders.set [] line ((m.holders.get [] line).filter (· != core)) })
  | some d =>
    let via := s.via
    let s := (d.words.foldl (fun s p => s.redAtHome d.tid .glob (128 * line + p.1) d.kind p.2) (s.through d.mode)).through via
    let s := s.updCore core (fun k => { k with deltas := k.deltas.del line })
    s.updMs (fun m => { m with holders := m.holders.set [] line ((m.holders.get [] line).filter (· != core)) })

/-- The home recalls every holder of a line, in the order of registration (R316, R317). -/
def State.recallLine (s : State) (line : Nat) : State := (s.ms.holders.get [] line).foldl (fun s c => s.recallOne line c) s

/-- Recall every line of a range of a home before an access (R316). -/
def State.recall (s : State) (h : Home) (a n : Nat) : State :=
  match h with
  | .glob => (upFrom (a / 128) ((a + n - 1) / 128 + 1 - a / 128)).foldl State.recallLine s
  | _ => s

/-! ## Other packages -/

/-- The answer to a read of another package that an engine has sent (R421). -/
def State.answered (s : State) (pkg a n : Nat) : Option (List Byte × Nat) :=
  (s.ms.asks.find? (fun q => q.pkg == pkg && q.addr == a && q.len == n && q.answer.isSome)).bind (·.answer)

/-- A byte of another package: from outside, so a free value of its address (log entry 9). -/
def State.outsideByte (s : State) (pkg a : Nat) : Byte :=
  BitVec.ofNat 8 (Config.freeWord (2 ^ 64 * (s.free + 1) + pkg * 2 ^ 43 + a)).toNat

/-- Bytes of another package arrive poisoned: from outside, so a free bit of the sector (R33, R420). -/
def State.outsidePoison (s : State) (pkg a : Nat) : Bool := s.freeBit (pkg * 2 ^ 43 + a / 32)

/-! ## Translation -/

/-- Usable bytes of a 2 MiB page under a protection mode (R338). -/
def usable (prot : Nat) : Nat := if prot = 0 then 2064384 else if prot = 1 then 2031616 else 1966080

/-- The egress port of a package (R439): the first of its routes whose link is up (R420). -/
def State.egressOf (s : State) (pkg : Nat) : Option Nat := (s.routes.get [] pkg).find? (fun p => !s.sad.extDown.has p)

/-- What goes to another package gets there (R422, R469): it is reachable, and a link to it is up. -/
def State.wayTo (s : State) (pkg : Nat) : Bool := (s.routes.look pkg).isSome && ((s.egressOf pkg).isSome || (s.routes.get [] pkg).isEmpty)

/-- A package number is reachable: its own, or one the routing table holds a route to (R469). -/
def State.reachable (s : State) (pkg : Nat) : Bool := pkg == s.pkg || (s.routes.look pkg).isSome

/-- Result of a walk: a leaf, or the CAUSE and ENTRY of a fault record (R330). -/
inductive WalkRes where
  | ok (l : Leaf)
  | miss (cause entry : Nat)
  /-- The walker read a poisoned entry, at this address of this package: CAUSE 4 (R327). -/
  | bad (addr : Nat)
  deriving DecidableEq, Repr

/-- A page-table entry as the walker reads it: none where the table has no home in this package, or poisoned. -/
inductive EntryRes where
  | entry (e : Nat)
  | noHome
  | poisoned (addr : Nat)
  deriving DecidableEq, Repr

/-- Read an entry at a 52-bit physical address (R327). The table's 4 or 16 KiB lie in one region or in none. What a table of
another package holds comes from outside: what its answer brought, or, before one has come, a free value. -/
def State.readEntry (s : State) (table index : Nat) : EntryRes :=
  let a := table % 2 ^ 43 + 8 * index
  let pkg := table / 2 ^ 43
  if pkg != s.pkg then
    if !s.reachable pkg then .noHome
    else match s.answered pkg a 8 with
      | some (bs, p) => if p != 0 then .poisoned a else .entry (natOf bs)
      | none => if s.outsidePoison pkg a then .poisoned a else .entry (natOf ((upFrom a 8).map (s.outsideByte pkg)))
  else if !s.inRegion (table % 2 ^ 43) 4096 then .noHome
  else
    let x := s.loc a
    let s := (s.recall .glob x 8).through none
    if s.poisonAt .glob x 8 then .poisoned a else .entry (natOf (s.readHome .glob x 8))

/-- A pointer entry is well formed for the table size it names (R326, R327). -/
def pointerOk (e log2size : Nat) : Bool := bits e 11 2 == 0 && bits e 63 52 == 0 && bits e (log2size - 1) 12 == 0

/-- A leaf entry is well formed (R326, R327). -/
def leafOk (e : Nat) (big : Bool) : Bool :=
  bits e 7 6 != 3 && bits e 10 9 != 3 && bits e 63 52 == 0 && (!big || bits e 29 21 == 0)

/-- The leaf of a 2 MiB page: its frame within a 1 GiB page is offset by virtual address bits 29:21. -/
def leafOf (e va : Nat) (big : Bool) : Leaf :=
  { frame := bits e 51 21 * 2 ^ 21 + (if big then bits va 29 21 * 2 ^ 21 else 0), w := bit e 2, x := bit e 3,
    alias_ := bits e 5 4, prot := bits e 7 6, snap := bit e 8, cache := bits e 10 9, coll := bits e 11 11 + 2 * bits e 20 12 }

/-- The frame of a leaf lies wholly in one valid region, or names a reachable package (R327). -/
def State.frameOk (s : State) (e : Nat) (big : Bool) : Bool :=
  let a := bits e 51 21 * 2 ^ 21
  let pkg := a / 2 ^ 43
  if pkg = s.pkg then s.inRegion (a % 2 ^ 43) (if big then 2 ^ 30 else 2 ^ 21) else s.reachable pkg

/-- The range meets the dump range (R468), which only management harts write once it is locked. -/
def HostCx.inDump (h : HostCx) (a n : Nat) : Bool := h.lock && decide (h.dumpBase < a + n) && decide (a < h.dumpBase + 2 ^ 28)

/-- Check a leaf entry. No kernel writes the dump range (R468). -/
def State.finishLeaf (s : State) (e va : Nat) (big : Bool) : WalkRes :=
  if !leafOk e big then .miss 4 e
  else if s.frameOk e big then
    let l := leafOf e va big
    .ok { l with w := l.w && !s.host.inDump l.frame (2 ^ 21) }
  else .miss 5 e

/-- A page-table walk (R325 to R327). ENTRY of a poisoned entry is undefined (R330). -/
def State.walk (s : State) (c va : Nat) : WalkRes :=
  let root := (s.ctx c).ptRoot
  if root % 2 = 0 then .miss 1 (Config.freeWord s.free).toNat
  else match s.readEntry (bits root 51 14 * 2 ^ 14) (bits va 51 41) with
    | .noHome => .miss 5 root
    | .poisoned a => .bad a
    | .entry e1 =>
      if !bit e1 0 then .miss 1 e1
      else if bit e1 1 || !pointerOk e1 14 then .miss 4 e1
      else match s.readEntry (bits e1 51 12 * 2 ^ 12) (bits va 40 30) with
        | .noHome => .miss 5 e1
        | .poisoned a => .bad a
        | .entry e2 =>
          if !bit e2 0 then .miss 2 e2
          else if bit e2 1 then s.finishLeaf e2 va true
          else if !pointerOk e2 12 then .miss 4 e2
          else match s.readEntry (bits e2 51 12 * 2 ^ 12) (bits va 29 21) with
            | .noHome => .miss 5 e2
            | .poisoned a => .bad a
            | .entry e3 =>
              if !bit e3 0 then .miss 3 e3
              else if !bit e3 1 then .miss 4 e3
              else s.finishLeaf e3 va false

/-- The physical addresses of the table entries that a walk reads (R325 to R327). -/
def State.walkPath (s : State) (c va : Nat) : List Nat :=
  let root := (s.ctx c).ptRoot
  let a1 := bits root 51 14 * 2 ^ 14 + 8 * bits va 51 41
  if root % 2 = 0 then []
  else match s.readEntry (bits root 51 14 * 2 ^ 14) (bits va 51 41) with
    | .entry e1 =>
      let a2 := bits e1 51 12 * 2 ^ 12 + 8 * bits va 40 30
      if !bit e1 0 || bit e1 1 || !pointerOk e1 14 then [a1]
      else match s.readEntry (bits e1 51 12 * 2 ^ 12) (bits va 40 30) with
        | .entry e2 => if !bit e2 0 || bit e2 1 || !pointerOk e2 12 then [a1, a2] else [a1, a2, bits e2 51 12 * 2 ^ 12 + 8 * bits va 29 21]
        | _ => [a1, a2]
    | _ => [a1]

/-- Key of a translation in a cache: context and 2 MiB page. -/
def xkey (c va : Nat) : Nat := c * 2 ^ 31 + va % 2 ^ 52 / 2 ^ 21

/-- The translation a core holds for an address: in its own cache or in the shared one of its base die (R328). -/
def State.held (s : State) (core c va : Nat) : Option Leaf :=
  match (s.core core).xlat.look (xkey c va) with
  | some l => some l
  | none => (s.ms.xlat.get [] (baseOf (dieOf core))).look (xkey c va)

/-- Translations are filled into the core's cache and the shared cache of its base die (R328). -/
def State.fillXlat (s : State) (core c va : Nat) (l : Leaf) : State :=
  let b := baseOf (dieOf core)
  (s.updCore core (fun k => { k with xlat := k.xlat.put (xkey c va) l })).updMs
    (fun m => { m with xlat := m.xlat.put b ((m.xlat.get [] b).put (xkey c va) l) })

/-- A physical address lies in the register windows of a package, which only its host harts reach (R449). -/
def inWindows (a : Nat) : Bool := decide (0x7F000000000 ≤ a % 2 ^ 43)

/-- A page that no kernel and no engine reaches: in the register windows (R449), or in another package while the load-store
domain is not an acknowledged feature (R464). -/
def State.shut (s : State) (l : Leaf) : Bool := inWindows l.frame || (l.frame / 2 ^ 43 != s.pkg && !s.feature 7)

/-- The home and address of a translated virtual address. -/
def State.place (s : State) (l : Leaf) (va : Nat) : Home × Nat :=
  let a := l.frame + va % 2 ^ 21
  if a / 2 ^ 43 = s.pkg then (.glob, s.loc (a % 2 ^ 43)) else (.remote (a / 2 ^ 43), a % 2 ^ 43)

/-- The parts of a range of n bytes that lie in one 128-byte line each; each part is whole in one stack (R336). -/
def lineParts (a n : Nat) : List (Nat × Nat) :=
  (upFrom (a / 128) ((a + n + 127) / 128 - a / 128)).map (fun k => (max a (128 * k), min (a + n) (128 * k + 128) - max a (128 * k)))

/-- The parts of a range of n bytes that lie in one 2 MiB page each (R325). -/
def pageParts (a n : Nat) : List (Nat × Nat) :=
  (upFrom (a / 2 ^ 21) ((a + n + 2 ^ 21 - 1) / 2 ^ 21 - a / 2 ^ 21)).map
    (fun k => (max a (2 ^ 21 * k), min (a + n) (2 ^ 21 * k + 2 ^ 21) - max a (2 ^ 21 * k)))

/-- The bytes lie in the protection tail of their page (R339). -/
def inTail (l : Leaf) (va n : Nat) : Bool := decide (usable l.prot < va % 2 ^ 21 + n)

/-! ## Reads and writes by engines that post no fault record (R78, R123, R363, R366, R387) -/

/-- Translate for an engine: the leaf that n bytes of one page are reached through, or the code of the failure. -/
def State.engineLeaf (s : State) (c va n : Nat) (write : Bool) : Except Nat Leaf :=
  if 2 ^ 52 ≤ va + n - 1 then .error 0x09
  else match s.walk c va with
    | .miss _ _ => .error 0x08
    | .bad _ => .error 0x08
    | .ok l =>
      if inTail l va n then .error 0x0C
      else if (write && !l.w) || l.alias_ != 0 || s.shut l then .error 0x09
      else .ok l

/-- The home and address that an engine reaches, or the code of the failure. -/
def State.engineXlat (s : State) (c va n : Nat) (write : Bool) : Except Nat (Home × Nat) :=
  (s.engineLeaf c va n write).map (fun l => s.place l va)

/-- Poison of each byte of a range as an engine reads it. -/
def State.enginePoison (s : State) (h : Home) (a n : Nat) : List Bool :=
  match h with
  | .remote p => match s.answered p a n with
    | some x => (upFrom 0 n).map (fun i => bit x.2 (i / 32))
    | none => (upFrom a n).map (s.outsidePoison p)
  | _ => (upFrom a n).map (fun x => s.poisonAt h x 1)

/-- Bytes of a home as an engine reads them: of another package, those of its answer, or, where it has none, free ones (R421). -/
def State.engineBytes (s : State) (h : Home) (a n : Nat) : List Byte :=
  match h with
  | .remote p => match s.answered p a n with
    | some x => (upFrom 0 n).map (fun i => x.1.getD i 0)
    | none => (upFrom a n).map (s.outsideByte p)
  | _ => s.readHome h a n

/-- The protection mode of the page of an address, for an engine (R338). -/
def State.engineMode (s : State) (c va : Nat) : Option Nat :=
  match s.walk c va with
  | .ok l => some l.prot
  | _ => none

/-- Read context memory for an engine, line by line; a poisoned byte fails with 0x0A. -/
def State.engineRead (s : State) (c va n : Nat) : Except Nat (List Byte) :=
  (lineParts va n).foldl (fun (r : Except Nat (List Byte)) p => match r, s.engineXlat c p.1 p.2 false with
    | .error e, _ => .error e
    | _, .error e => .error e
    | .ok bs, .ok (h, a) =>
      let s := (s.recall h a p.2).through (s.engineMode c p.1)
      if (s.enginePoison h a p.2).any id then .error 0x0A else .ok (bs ++ s.engineBytes h a p.2)) (.ok [])

/-- An engine's write at a home, or sent to another package, with the bytes of it that are poisoned (R33, R420, R421); where there is no way, it
is lost (R422, R469). -/
def State.enginePut (s : State) (h : Home) (a : Nat) (bs : List Byte) (bad : List Bool := []) : State :=
  match h with
  | .remote p => if s.wayTo p then { s with sent := s.sent ++ [.remoteBytes p a bs bad] } else s
  | _ =>
    let s := (s.recall h a bs.length).writeHome h a bs
    ((upFrom a bs.length).zip bad).foldl (fun (s : State) x => if x.2 then s.updSpace h (fun m => m.markPoison x.1 1) else s) s

/-- The lines that an engine's read of context memory allocates (R311). -/
def State.engineTouch (s : State) (c va n : Nat) : State :=
  (lineParts va n).foldl (fun (s : State) p => match s.engineLeaf c p.1 p.2 false with
    | .ok l => s.touchL2 (s.place l p.1).1 (s.place l p.1).2 p.2 (evictOf 0 l.cache)
    | .error _ => s) s

/-- Write context memory for an engine, line by line: all of it is translated first. -/
def State.engineWrite (s : State) (c va : Nat) (bs : List Byte) : Except Nat State :=
  match (lineParts va bs.length).filterMap (fun p => match s.engineXlat c p.1 p.2 true with
      | .error e => some e
      | .ok _ => none) with
  | e :: _ => .error e
  | [] => .ok ((lineParts va bs.length).foldl (fun (s : State) p => match s.engineLeaf c p.1 p.2 true with
      | .ok l =>
        let at_ := s.place l p.1
        (((s.touchL2 at_.1 at_.2 p.2 (evictOf 0 l.cache)).through (some l.prot)).enginePut at_.1 at_.2 ((bs.drop (p.1 - va)).take p.2)).through none
      | .error _ => s) s)

/-- Write package-local physical memory. -/
def State.physWrite (s : State) (a : Nat) (bs : List Byte) : State :=
  (lineParts a bs.length).foldl (fun (s : State) p => (s.touchL2 .glob (s.loc p.1) p.2).writeHome .glob (s.loc p.1) ((bs.drop (p.1 - a)).take p.2)) s

/-- Write bytes at a 52-bit physical address: those of another package go there (R334, R421). -/
def State.physPut (s : State) (a : Nat) (bs : List Byte) : State :=
  if a / 2 ^ 43 = s.pkg then s.physWrite (a % 2 ^ 43) bs
  else s.enginePut (.remote (a / 2 ^ 43)) (a % 2 ^ 43) bs (bs.map (fun _ => false))

/-! ## Walks and instruction fetch -/

/-- Begin a walk, or join the one in flight for the same page of the same context (R328, R329): the walk's number. -/
def State.startWalk (s : State) (w : Walk) : State × Nat :=
  match s.ms.walks.find? (fun p => p.2.ctx == w.ctx && p.2.va / 2 ^ 21 == w.va / 2 ^ 21) with
  | some p => (s, p.1)
  | none => (s.updMs (fun m => { m with walks := m.walks.put m.nextWalk w, nextWalk := m.nextWalk + 1 }), s.ms.nextWalk)

/-- Result of reading a word of code (R46). -/
inductive CodeRes where
  | word (w : DWord)
  | miss
  | wait
  | fault (code : Nat)

/-- Read a code word through a core's instruction lines (R43, R46); another package's word must have been fetched. -/
def State.readCode (s : State) (core c va : Nat) : CodeRes :=
  if 2 ^ 52 ≤ va then .fault 0x09
  else match s.held core c va with
    | none => .miss
    | some l =>
      if inTail l va 8 then .fault 0x0C
      else if !l.x || l.alias_ != 0 || s.shut l then .fault 0x09
      else
        let a := l.frame + va % 2 ^ 21
        match (s.core core).icache.look a with
        | some w => .word w
        | none =>
          if (s.core core).ipoison.has a then .fault 0x0A
          else if a / 2 ^ 43 != s.pkg then .wait
          else
            let x := s.loc (a % 2 ^ 43)
            let s := (s.recall .glob x 8).through (some l.prot)
            if s.poisonAt .glob x 8 then .fault 0x0A else .word (BitVec.ofNat 64 (natOf (s.readHome .glob x 8)))

/-- After a fetch, the word stays in the core's instruction lines until it is dropped or invalidated (R43, R239). -/
def State.cacheCode (s : State) (core c va : Nat) : State :=
  match s.held core c va, s.readCode core c va with
  | some l, .word w =>
    let p := s.place l va
    (if ((s.core core).icache.look (l.frame + va % 2 ^ 21)).isNone then s.touchL2 p.1 p.2 8 (evictOf 0 l.cache) else s).updCore core
      (fun k => { k with icache := k.icache.put (l.frame + va % 2 ^ 21) w })
  | _, _ => s

end Sys2Proof.Machine
end

