-- ==== Sys2Proof/Machine/Pending.lean ====
section
/-! DEFINITION. What an operation in flight is: which bytes its lanes touch, what it acquires and releases (R249, R255), which
registers it is to write, and what a read or a write of one of them gives in the meantime (R40). -/

namespace Sys2Proof.Machine

/-! ## Registers that are to be written (R40) -/

/-- The writes of a DATA group. -/
def groupWrites (reg n v : Nat) : List (Nat × Nat) := (upFrom 0 n).map (fun i => (reg + i, v / 2 ^ (32 * i) % 2 ^ 32))

/-- Bytes of the DATA group that an operation writes. -/
def Op.resultBytes (o : Op) : Nat :=
  match o.kind with
  | .prsq | .btest | .barr | .barrx | .bdrop | .bwait | .rfold | .mpin | .munpin => 4
  | _ => 2 ^ o.size

/-- The register writes of a value that an operation returns to an agent: zero-extended (R104, R212, R215). -/
def Op.writesOf (o : Op) (v : Nat) : List (Nat × Nat) :=
  if o.fid.isNone then (o.data, v % 2 ^ 64) :: (if 8 < o.resultBytes then [(o.data + 1, v / 2 ^ 64)] else [])
  else groupWrites o.data ((o.resultBytes + 3) / 4) v

/-- The register writes that an operation in flight is about to make, once it is known what they are: by agent, those of each lane that
has been performed. -/
def Op.pendingWrites (o : Op) : List (Nat × List (Nat × Nat)) :=
  if o.kind.returns then (o.lanes.filter (fun a => a.phase == .applied && !a.poisoned)).map (fun a => (a.thread, o.writesOf a.result))
  else o.outs

/-- Registers of an agent as an instruction of its team reads them: one that an operation is about to write reads as its old or as
its new value, which is a free choice for each register and lane (R40). -/
def State.glimpse (s : State) (t : Team) (o : Op) : Team :=
  o.pendingWrites.foldl (fun t p =>
    let seen := p.2.filter (fun w => s.freeBit (2 ^ 100 + p.1 * 512 + w.1))
    if p.1 = leadThread then { t with lead := { t.lead with regs := seen.foldl (fun m w => m.set 0 w.1 (BitVec.ofNat 64 w.2)) t.lead.regs } }
    else { t with threads := t.threads.upd p.1 (fun th => { th with regs := seen.foldl (fun m w => m.set 0 w.1 (BitVec.ofNat 32 w.2)) th.regs }) }) t

/-- The operations of a team that are about to write registers. -/
def State.landing (s : State) (tid : Nat) : List Op := (s.ops.vals).filter (fun o => o.tid == tid && !o.pendingWrites.isEmpty)

/-- A team as its instructions read it. -/
def State.seen (s : State) (tid : Nat) (t : Team) : Team := (s.landing tid).foldl s.glimpse t

/-- The choices of `State.seen` are made anew for each instruction, when its party takes its port. -/
def State.stir (s : State) (tid : Nat) : State := if (s.landing tid).isEmpty then s else s.drawn

/-- A register of an agent was written while the operation with this number was pending (R40); matrix instructions write accumulators
in array order, and only a write of another instruction counts against one (R292). -/
def Team.writtenSince (t : Team) (id th : Nat) (matrix : Bool) (r : Nat) : Bool :=
  if th = leadThread then decide (id < t.lead.wrote.get 0 r)
  else decide (id < (t.thread th).wrote.get 0 r) || (!matrix && decide (id < (t.thread th).wroteMx.get 0 r))

/-- Write the registers of one agent at the end of the operation with this number; one that was written while the operation was pending
ends with either value (R40, R292). -/
def State.land (s : State) (tid id th : Nat) (matrix : Bool) (w : List (Nat × Nat)) : State :=
  match s.teams.look tid with
  | none => s
  | some t =>
    let open_ := w.any (fun p => t.writtenSince id th matrix p.1)
    let w := w.filter (fun p => !t.writtenSince id th matrix p.1 || s.freeBit (th * 512 + p.1))
    let s := if open_ then s.drawn else s
    if th = leadThread then w.foldl (fun s p => s.setS tid p.1 p.2) s
    else if matrix then s.updThread tid th (fun x => x.setAccs s.nextId w)
    else s.setV tid [(th, w)]

/-- A register write of some agents is pending: an operation that they take part in has not yet written its registers (R40,
R45 DRAIN). -/
def State.writesPending (s : State) (tid : Nat) (hws : List Nat) (lead : Bool) : Bool :=
  s.ops.any (fun p => p.2.tid == tid && p.2.fid.isNone == lead && p.2.counter.isSome && (p.2.kind.returns || p.2.kind.accumulates)
    && (lead || p.2.hws.any hws.contains))

/-! ## Order among the accesses of agents -/

/-- No operation of some threads, or of the lead thread, waits for an absent line (R219): it parks them whatever they have issued since. A
lead thread in the handler left its park behind (R82). -/
def State.unheld (s : State) (tid : Nat) (t : Team) (lead : Bool) (ths : List Nat) : Bool :=
  (lead && t.lead.hmode) || s.ops.all (fun p => p.2.tid != tid || p.2.fid.isNone != lead
    || p.2.lanes.all (fun a => a.phase != .absent || !(lead || ths.contains a.thread)))

/-- An operation that acquires when it completes (R249). -/
def Op.acquires (o : Op) : Bool :=
  match o.kind with
  | .ld | .ldq | .atom | .acas => o.ord == 1 || o.ord == 3
  | .waita => o.ord == 1
  | .bwait | .btest => true
  | _ => false

/-- An operation that releases (R249). -/
def Op.releases (o : Op) : Bool :=
  match o.kind with
  | .st | .stq | .atom | .acas | .red => o.ord == 2 || o.ord == 3
  | .barr | .barrx | .bdrop => true
  | _ => false

/-- A load or a store that has a place in the total order of R252. -/
def Op.sc (o : Op) : Bool :=
  match o.kind with
  | .ld | .ldq | .st | .stq => o.ord == 3
  | _ => false

/-- An access of the lead thread that a push releases has taken effect at its home; in a team on a pair, it is also acknowledged
(R109, R254). An acquire must be complete, so that what it acquired is passed on (R251). -/
def State.effected (s : State) (paired : Bool) (id : Nat) : Bool :=
  match s.ops.look id with
  | none => true
  | some o => !o.acquires && o.lanes.all (fun a => if paired then a.phase == .done else a.performed)

/-- What a thread has acquired from broadcast queues stands before its operation with this number (R109). -/
def State.popsDone (s : State) (tid th id : Nat) : Bool :=
  match s.teams.look tid with
  | none => true
  | some t => (t.thread th).after.all (fun p => decide (id < p.2) || s.effected t.paired p.1)

/-! ## L1 lines -/

/-- An acquire at cluster scope or wider drops the core's L1 lines (R255); keep marks last (R214). -/
def State.dropL1 (s : State) (core : Nat) : State := s.updCore core (fun c => { c with l1 := [] })

/-- Drop one L1 line of a core. -/
def State.dropLine (s : State) (core a : Nat) : State := s.updCore core (fun c => { c with l1 := c.l1.del (a / 128) })

/-- A line is kept by some team (R214). -/
def Core.keeps (c : Core) (line : Nat) : Bool := (c.kept.look line).isSome

/-- A .KEEP access marks its line for its team, up to 512 lines of a core (R214). -/
def State.keepLine (s : State) (core line tid : Nat) : State :=
  let c := s.core core
  if c.keeps line || decide (c.kept.length < 512) then
    s.updCore core (fun c => { c with kept := c.kept.put line ((c.kept.get [] line).ins tid) })
  else s

/-- The keep marks of a team end on a core (R214, R239). -/
def State.unkeep (s : State) (core tid : Nat) : State :=
  s.updCore core (fun c => { c with kept := (c.kept.map (fun p => (p.1, p.2.rem tid))).filter (fun p => !p.2.isEmpty) })

/-- The keep marks of a team end on every core (R214, R239). -/
def State.unkeepTeam (s : State) (tid : Nat) : State := s.cores.keys.foldl (fun s c => s.unkeep c tid) s

end Sys2Proof.Machine
end

