-- ==== Sys2Proof/Machine/Ops.lean ====
section
/-! DEFINITION. The shared operations of the front end: the error log (R75 to R80), MSIs (R461), faults, taking a trap
(R82 to R86) and returning from one (R87), and the end of an instruction's issue (R63, R73). -/

namespace Sys2Proof.Machine

/-! ## MSIs -/

/-- An interrupt file of a hart (R460). A management hart has one, of M-level. -/
def HostCx.file (h : HostCx) (hart file : Nat) : IntFile := h.files.get {} (8 * hart + if 8 ≤ hart then 7 else file)
def State.updFile (s : State) (hart file : Nat) (f : IntFile → IntFile) : State :=
  { s with host := { s.host with files := s.host.files.put (8 * hart + if 8 ≤ hart then 7 else file) (f (s.host.file hart file)) } }

/-- A message reaches an interrupt file: its identity, of 1 to 2,047, is pending (R460). -/
def State.deliverMsi (s : State) (hart file eiid : Nat) : State :=
  let s : State := { s with sent := s.sent ++ [.msi hart file eiid] }
  if eiid = 0 || 2048 ≤ eiid then s else s.updFile hart file (fun x => { x with pending := x.pending.ins eiid })

/-- Send the message of an MSI table entry; an entry with EIID 0 drops and counts it (R461). Entry values as in R461. -/
def State.sendMsi (s : State) (entry : Nat) (hart : Option Nat) : State :=
  if bits entry 10 0 = 0 then { s with msiDropped := satNat (s.msiDropped + 1) 0xFFFF }
  else s.deliverMsi (hart.getD (bits entry 13 11)) (bits entry 16 14) (bits entry 10 0)

/-- Raise entry n of a context's MSI table (R461). -/
def State.ctxMsi (s : State) (c n : Nat) : State :=
  if n < 2 + (s.ctx c).irqCount then s.sendMsi ((s.ctx c).msi.get 0 n) none else s

/-- Raise entry n of the package's MSI table; entries 1 and 2 go to hart 8 (R461). -/
def State.pkgMsi (s : State) (n : Nat) : State :=
  s.sendMsi (s.msiTab.get 0 n) (if n = 1 || n = 2 then some 8 else none)

/-! ## The error log -/

/-- A log record (R76). -/
structure LogRec where
  type : Nat := 0
  severity : Nat := 0
  code : Nat := 0
  engine : Nat := 0
  vdie : Nat := 0xFFFF
  core : Nat := 0xFF
  quarter : Nat := 0xFF
  homewarp : Nat := 0xFFFF
  pclass : Nat := 0
  index : Nat := 0xFF
  team : Nat := 0
  lanemask : Nat := 0
  mismatch : Nat := 0
  launch : Nat := 0
  syndrome : Nat := 0
  clause : Nat := 0
  address : Nat := 0
  wordA : Nat := 0
  wordB : Nat := 0
  deriving DecidableEq, Repr

/-- The 64 bytes of a record (R76). -/
def LogRec.bytes (r : LogRec) : List Byte :=
  bytesOf 1 r.type ++ bytesOf 1 r.severity ++ bytesOf 1 r.code ++ bytesOf 1 r.engine ++ bytesOf 2 r.vdie ++ bytesOf 1 r.core
    ++ bytesOf 1 r.quarter ++ bytesOf 2 r.homewarp ++ bytesOf 1 r.pclass ++ bytesOf 1 r.index ++ bytesOf 4 r.team
    ++ bytesOf 8 r.lanemask ++ bytesOf 8 r.mismatch ++ bytesOf 4 r.launch ++ bytesOf 4 r.syndrome ++ bytesOf 8 r.clause
    ++ bytesOf 8 r.address ++ bytesOf 4 r.wordA ++ bytesOf 4 r.wordB

/-- Write a record to the package error log (R468): the layout and registers of R76 to R80, at a physical address. -/
def State.pkgLog (s : State) (r : LogRec) : State :=
  if s.elogBase % 2 = 0 || (s.elogHead + 2 ^ 32 - s.elogTail) % 2 ^ 32 = 4096 then { s with elogLost := satNat (s.elogLost + 1) 0xFFFF }
  else
    let a := s.elogBase % 2 ^ 52 / 2 ^ 18 * 2 ^ 18 + s.elogHead % 4096 * 64
    let s := s.physPut a r.bytes
    let s := { s with elogHead := (s.elogHead + 1) % 2 ^ 32 }
    if s.elogMsien && decide (s.elogThresh ≤ r.severity) then s.pkgMsi 2 else s

/-- Write a record to a context's error log (R78 to R80): the new state, and the index of the record if it was written. -/
def State.ctxLog (s : State) (c : Nat) (r : LogRec) : State × Option Nat :=
  let k := s.ctx c
  if k.elogBase % 2 = 0 then (s.pkgLog r, none)
  else if (k.elogHead + 2 ^ 32 - k.elogTail) % 2 ^ 32 = 4096 then
    (s.updCtx c (fun k => { k with elogLost := satNat (k.elogLost + 1) 0xFFFF }), none)
  else match s.engineWrite c (k.elogBase / 2 ^ 18 * 2 ^ 18 + k.elogHead % 4096 * 64) r.bytes with
    | .error _ => ((s.updCtx c (fun k => { k with elogLost := satNat (k.elogLost + 1) 0xFFFF })).pkgLog r, none)
    | .ok s =>
      let s := s.updCtx c (fun k => { k with elogHead := (k.elogHead + 1) % 2 ^ 32 })
      (if k.elogMsien && decide (k.elogThresh ≤ r.severity) then s.ctxMsi c 1 else s, some k.elogHead)

/-! ## Launch kills -/

/-- Hand a launch to the scheduler to be killed with a code (R71, R382). The first cause stands. -/
def State.killLaunch (s : State) (lid code : Nat) : State :=
  match s.launches.look lid with
  | none => s
  | some l =>
    if l.killing.isSome then s
    else (s.updLaunch lid (fun l => { l with killing := some code })).soon [.event .launchKill { a := lid, b := code }]

/-! ## Who issues -/

/-- The issuing party with what its instruction's issue needs. -/
structure Env where
  tid : Nat
  t : Team
  /-- The formed warp and its number; none for the lead thread. -/
  fid : Option Nat
  w : Warp
  /-- Threads of the formed warp in ascending home lane, and those of `lanes_active`. -/
  all : List Nat
  act : List Nat
  pc : Nat
  idx : Nat
  header : DWord
  core : Nat
  pclass : Nat
  /-- What the copies of a matrix instruction meet at the comparison of their accumulators (R68). -/
  upset : Option Upset := none

/-- An empty warp, for the lead thread's environment. -/
def noWarp : Warp := { threads := [], quarter := 0, pc := 0 }

/-- The environment of the party whose turn it is, for an instruction's mask and class. It reads the registers of its team as R40
lets them be seen. -/
def State.env (s : State) (msel pclass : Nat) : Option Env :=
  match s.who with
  | .lead tid => (s.teams.look tid).map (fun t =>
      { tid := tid, t := s.seen tid t, fid := none, w := noWarp, all := [], act := [], pc := t.lead.pc, idx := t.lead.idx,
        header := t.lead.header, core := t.core, pclass := pclass })
  | .warp tid fid => match s.teams.look tid with
    | none => none
    | some t => (t.formed.look fid).map (fun w =>
        { tid := tid, t := s.seen tid t, fid := some fid, w := w, all := w.threads, act := t.active w msel, pc := w.pc, idx := w.idx,
          header := w.header, core := t.coreOf w.quarter, pclass := pclass })
  | _ => none

/-- The lead thread issues. -/
def Env.lead (e : Env) : Bool := e.fid.isNone

/-- The home warps concerned (R27). -/
def Env.hws (e : Env) : List Nat := e.t.hwsOf e.act

/-- COUNT of the clause. -/
def Env.count (e : Env) : Nat := (getHeader e.header).count

/-- Address of the next clause's header (R38). -/
def Env.nextClause (e : Env) : Nat := e.pc + 8 * (e.count + 1)

/-- The instruction is the last of its clause. -/
def Env.last (e : Env) : Bool := e.idx + 1 == e.count

/-- The address of a B-format target (R55). -/
def Env.target (e : Env) (target : BitVec 36) : Nat := wrap ((e.pc : Int) + 8 * target.toInt) 64

/-! ## The outcome of an instruction's body -/

/-- A fault raised by an instruction (R71, R72): its code, the lanes that met it, the address and the syndrome. -/
structure Raise where
  code : Nat
  lanes : Nat := 0
  addr : Nat := 0
  info : Nat := 0
  wordA : Nat := 0
  wordB : Nat := 0
  deriving DecidableEq, Repr

/-- How an instruction's body ends (R63, R73). -/
inductive Res where
  /-- Done: the clause goes on at the next index. -/
  | done (s : State)
  /-- A fault; the instruction has no further effect. -/
  | fault (r : Raise)
  /-- A fault after queue entries have been consumed (R211). -/
  | faultAfter (s : State) (r : Raise)
  /-- The clause suspends before the instruction (R63). -/
  | suspend (s : State) (why : Why)
  /-- Done, and the party is parked after the instruction. -/
  | park (s : State) (why : Why)
  /-- The clause has ended and the instruction has set where each thread, or the lead thread, goes on. -/
  | jumped (s : State)
  /-- The instruction has dealt with the party itself (a trap return, the end of a thread). -/
  | handled (s : State)

/-! ## Formed warps and clauses -/

/-- A thread that stands ready at a header is held there if the header is its meeting header and it has not been released there (R180). -/
def Thread.mustMeet (th : Thread) (pc : Nat) : Bool := th.meet = pc && !th.done && pc != 0

/-- A thread becomes ready at an address: it is held if it must meet there and the word is known to be a header of the lane stream (R180);
where the word has not been read yet, CLAUSE_FETCH holds it once it has. -/
def Thread.arrive (th : Thread) (pc clock : Nat) (header : Bool) : Thread :=
  if th.mustMeet pc && header then { th with pc := pc, idx := 0, run := .held, holdcnt := 0 }
  else { th with pc := pc, idx := 0, run := .ready, since := clock }

/-- The word at an address is known to be a header of the lane stream (R180). -/
def State.laneHeader (s : State) (core c pc : Nat) : Bool :=
  pc % 8 == 0 && (match s.readCode core c pc with
    | .word w => targetOk false w
    | _ => false)

/-- The clause of a formed warp ends: the warp dissolves, and each thread stands ready at its next header (R177). -/
def State.dissolve (s : State) (tid fid : Nat) (next : Nat → Option Nat) : State :=
  match s.teams.look tid with
  | none => s
  | some t => match t.formed.look fid with
    | none => s
    | some w =>
      let s := s.updTeam tid (fun t => { t with formed := t.formed.del fid })
      w.threads.foldl (fun s th => match next th with
        | some pc => s.updThread tid th (fun x => if x.live then x.arrive pc (s.core t.core).clock (s.laneHeader (t.coreOf w.quarter) t.ctx pc) else x)
        | none => s) s

/-- Whether the lead thread may enter the handler now: not in handler mode, and not mid-clause unless suspended (R82). -/
def Lead.canEnter (l : Lead) : Bool :=
  !l.hmode && (match l.run with
    | .running .issuing => false
    | _ => true)

/-- A queued trap is entered as soon as the lead thread's clause ends or suspends (R82). -/
def State.trapNext (s : State) (tid : Nat) : State :=
  match s.teams.look tid with
  | none => s
  | some t => if !t.lead.queue.isEmpty && t.lead.canEnter then s.soon [.event .trapEntry { a := tid }] else s

/-- A party leaves a port, if it is the one that holds it (R39, R62). -/
def State.freePort (s : State) (core p tid : Nat) (fid : Option Nat) : State :=
  s.updCore core (fun c => { c with ports := if c.ports.look p = some (tid, fid.getD 0) then c.ports.del p else c.ports })

/-- The issuing party leaves its port (R39). -/
def State.releasePort (s : State) (e : Env) : State :=
  s.freePort e.core (if e.lead then 4 else e.w.quarter % 4) e.tid e.fid

/-- The lead thread goes on at a header, which has not been fetched. -/
def Lead.goto (l : Lead) (pc : Nat) : Lead :=
  { l with pc := pc, idx := 0, header := 0, words := [], stamp := none, run := .running .unfetched }

/-- Move the party past its instruction, in run state c; at the end of the clause the next clause follows. -/
def State.advance (s : State) (e : Env) (c : ClauseRun) : State :=
  match e.fid with
  | none =>
    if e.last && c == .issuing then
      ((s.releasePort e).updLead e.tid (fun l => l.goto e.nextClause)).trapNext e.tid
    else
      let s := if c == .issuing then s else s.releasePort e
      (s.updLead e.tid (fun l => { l with idx := e.idx + 1, run := .running c })).trapNext e.tid
  | some fid =>
    if e.last && c == .issuing then (s.releasePort e).dissolve e.tid fid (fun _ => some e.nextClause)
    else
      let s := if c == .issuing then s else s.releasePort e
      s.updWarp e.tid fid (fun w => { w with idx := e.idx + 1, run := c })

/-- Block the party at its instruction, before it (R63). -/
def State.block (s : State) (e : Env) (why : Why) : State :=
  let s := s.releasePort e
  match e.fid with
  | none => (s.updLead e.tid (fun l => { l with run := .running (.blocked why) })).trapNext e.tid
  | some fid => s.updWarp e.tid fid (fun w => { w with run := .blocked why })

/-! ## Taking a trap -/

/-- The launch identifier of a team. -/
def State.identOf (s : State) (t : Team) : Nat := ((s.launches.look t.launch).map (·.ident)).getD 0

/-- Where the lead thread continues (R82): at its index, or at the next clause when its clause has no instruction left. A
header fault has no index and reads 0 (log entry 125). -/
def Lead.continuesAt (l : Lead) : Nat × Nat :=
  let h := getHeader l.header
  if h.count ≤ l.idx && l.header != 0 then (l.pc + 8 * (h.count + 1), 0) else (l.pc, l.idx)

/-- Enter the handler for a trap (R82, R83, R85, R86): the return address, the saved registers, the trap registers,
handler mode, and the handler's first clause. -/
def Lead.enterHandler (l : Lead) (tr : TrapRec) (base : Nat) : Lead :=
  let dead := match l.run with
    | .running _ => false
    | _ => true
  let own := tr.leadf && tr.kind == 0
  { l with
    retPc := if dead then 0 else if own then tr.clause else l.continuesAt.1
    retIdx := if dead then 0 else if own then (if tr.index = 31 then 0 else tr.index) else l.continuesAt.2
    retWhy := if own then none else match l.run with
      | .running (.blocked (.access op)) => some (.access op)
      | _ => none
    saves := (upFrom 0 8).foldl (fun m i => m.set 0 i (l.regs.get 0 (120 + i))) []
    trap := tr, hmode := true, revived := dead, pc := base, idx := 0, header := 0, stamp := none,
    run := .running .unfetched, stall := 0 }

/-- A park whose instruction has had no effect: it is abandoned at a trap and executes again after it (R82). -/
def OpKind.abandons : OpKind → Bool
  | .ld | .st | .binit | .barr | .barrx | .bexp | .bwait | .btest | .waita | .fence | .spawn | .kick => true
  | _ => false

/-- Abandon the instruction at which a lead thread is parked without effect (R82): its operation is withdrawn, and the
lead thread stands at its index again. One after which others have issued is not abandoned (R258). -/
def State.abandonLead (s : State) (tid : Nat) : State :=
  match s.teams.look tid with
  | none => s
  | some t => match t.lead.run with
    | .running (.blocked (.access id)) => match s.ops.look id with
      | some o =>
        if o.kind.abandons && t.lead.issued = o.issued && o.lanes.all (fun a => a.phase != .done && !a.performed) then
          (s.endOp id).updLead tid (fun l => { l with pc := o.clause, idx := o.index, run := .running .waiting })
        else s
      | none => s
    | _ => s

/-- Queue a trap: by the clock of its fault, then by quarter, then by home warp (R84); the quarters of a pair's partner core
come after those of the lower core (log entry 126). -/
def insertTrap (tr : TrapRec) : List TrapRec → List TrapRec
  | [] => [tr]
  | x :: t =>
    let key := fun (r : TrapRec) => (r.clock * 8 + r.quarter + 4 * b2n r.partner) * 2 ^ 16 + r.homewarp
    if key tr < key x then tr :: x :: t else x :: insertTrap tr t

/-- The lead thread enters the handler for a trap, or, with no handler, the launch is killed with the fault's code, 0x14 for
TRAP (R81, R82). -/
def State.enterTrap (s : State) (tid : Nat) (tr : TrapRec) : State :=
  match s.teams.look tid with
  | none => s
  | some t =>
    if (s.ctx t.ctx).trapBase = 0 then s.killLaunch t.launch (if tr.kind = 2 then 0x14 else tr.code)
    else ((s.abandonLead tid).freePort t.core 4 tid none).updLead tid (fun l => l.enterHandler tr (s.ctx t.ctx).trapBase)

/-- Deliver a trap to the team's lead thread (R82, R84, R85): enter the handler, or queue the trap. The lead thread's
own fault enters at once. -/
def State.deliverTrap (s : State) (tid : Nat) (tr : TrapRec) : State :=
  match s.teams.look tid with
  | none => s
  | some t =>
    if tr.leadf || t.lead.canEnter then s.enterTrap tid tr
    else s.updLead tid (fun l => { l with queue := insertTrap tr l.queue })

/-- The home warp that a record names for a formed warp: that of the lowest active thread, where it mixes home warps (log
entry 127); 0xFFFF for the lead thread. -/
def Env.homewarp (e : Env) : Nat := if e.lead then 0xFFFF else e.t.hwOf (e.act.headD (e.all.headD 0))

/-- The trap record of a fault of the issuing party. -/
def State.trapOf (s : State) (e : Env) (kind index : Nat) (r : Raise) : TrapRec :=
  { code := r.code, kind := kind, pclass := e.pclass, index := index, cls := (getHeader e.header).cls % 8, leadf := e.lead,
    clause := e.pc, homewarp := e.homewarp,
    quarter := e.w.quarter % 4, partner := decide (4 ≤ e.w.quarter), active := e.t.laneMask e.all, lanes := r.lanes,
    addr := r.addr, info := r.info, count := e.count, clock := (s.core e.core).clock, fid := e.fid }

/-- The log record of a fault of the issuing party (R76). -/
def State.logOf (s : State) (e : Env) (type severity engine index : Nat) (r : Raise) : LogRec :=
  { type := type, severity := severity, code := r.code, engine := engine, vdie := e.t.vdie, core := e.core % 20,
    quarter := if e.lead then 0xFE else e.w.quarter % 4,
    homewarp := e.homewarp, pclass := e.pclass, index := index,
    team := e.t.number, lanemask := e.t.laneMask e.all, mismatch := r.lanes, launch := s.identOf e.t, syndrome := r.info % 2 ^ 32,
    clause := e.pc, address := r.addr, wordA := r.wordA, wordB := r.wordB }

/-- A record that belongs to a trap is visible to the team's lead thread before its handler (R78): its core drops the line
that it may hold of the slot. -/
def State.showRecord (s : State) (t : Team) (index : Option Nat) : State :=
  match index with
  | none => s
  | some n => match s.engineXlat t.ctx ((s.ctx t.ctx).elogBase / 2 ^ 18 * 2 ^ 18 + n % 4096 * 64) 64 false with
    | .ok (.glob, a) => s.updCore t.core (fun c => { c with l1 := c.l1.del (a / 128) })
    | _ => s

/-- Take a trap of the issuing party: write the log record, park a faulting formed warp, and deliver the trap; with no
handler, or in handler mode for the lead thread itself, the launch is killed (R81, R82, R84). -/
def State.takeTrap (s : State) (e : Env) (kind engine index : Nat) (r : Raise) : State :=
  let sev := if kind = 2 then 0 else 2
  let logged := s.ctxLog e.t.ctx (s.logOf e kind sev engine index r)
  let s := logged.1.showRecord e.t logged.2
  let s := if kind = 0 then s.block e .trap else s
  let tr := { s.trapOf e kind index r with elog := logged.2.getD 0, elogNone := logged.2.isNone }
  if (s.ctx e.t.ctx).trapBase = 0 then s.killLaunch e.t.launch (if kind = 2 then 0x14 else r.code)
  else if e.lead && e.t.lead.hmode then s.killLaunch e.t.launch r.code
  else s.deliverTrap e.tid tr

/-- Deliver a fault (R71): a precise trap, or a launch kill for consumed poison. -/
def State.raise (s : State) (e : Env) (engine index : Nat) (r : Raise) : State :=
  if r.code = 0x0A then (s.block e .trap).killLaunch e.t.launch 0x0A
  else s.takeTrap e 0 engine index r

/-! ## Transfers and code words -/

/-- The walk record of a party's access (R330): agent 0 a thread, 1 a lead thread; access 0 read, 1 write, 2
read-modify-write, 3 instruction fetch. -/
def State.walkOf (s : State) (t : Team) (lead : Bool) (core va access : Nat) : Walk :=
  { ctx := t.ctx, va := va, core := core, agent := b2n lead, access := access, launch := s.identOf t, vdie := t.vdie }

/-- The check of a transfer target (R46): the fault it raises, or the walk it must wait for. -/
inductive TargetRes where
  | ok
  | fault (code : Nat)
  | wait (s : State) (why : Why)

/-- Read and check the word at a transfer target of the stream (R46). -/
def State.checkTarget (s : State) (e : Env) (lead : Bool) (lanes va : Nat) : TargetRes :=
  if va % 8 != 0 then .fault 0x03
  else match s.readCode e.core e.t.ctx va with
    | .fault c => .fault c
    | .wait => .wait s .room
    | .miss =>
      let r := s.startWalk (s.walkOf e.t e.lead e.core va 3)
      .wait r.1 (.walk r.2 lanes va)
    | .word w => if targetOk lead w then .ok else .fault 0x03

/-! ## The end of an issue -/

/-- Lanes of an upset that the instruction acts in; bit 0 is the lead thread, which has no home lane. -/
def Env.hit (e : Env) (x : Nat) : Nat := if e.lead then x % 2 else Nat.land x (e.t.laneMask e.act)

/-- The lanes of an upset as a record names them: none for the lead thread, as at its other faults (log entry 128). -/
def Env.hitLanes (e : Env) (x : Nat) : Nat := if e.lead then 0 else e.hit x

/-- The thread in the lowest lane of a set, or the lead thread. -/
def Env.firstIn (e : Env) (x : Nat) : Nat := if e.lead then leadThread else (e.act.filter (fun th => bit x (e.t.laneOf th))).headD 0

/-- The two halves of a 64-bit value, low word first. -/
def twoWords (v : Nat) : List Nat := [v % 2 ^ 32, v / 2 ^ 32 % 2 ^ 32]

/-- The first differing word of copies that are compared word by word, as WORD_A and WORD_B of R76 give it: in copy 1, or in the majority;
and in copy 2, or in the minority. -/
def Upset.pair (u : Upset) (l : List Nat) (voted : Bool) : Nat × Nat :=
  let w := l.getD (u.word % l.length) 0
  let a := if voted then w else Nat.xor w u.flipA
  (a % 2 ^ 32, Nat.xor a (if u.flipB % 2 ^ 32 = 0 then 1 else u.flipB) % 2 ^ 32)

/-- The fault or the record of copies that differ in a set of lanes, by the address that an agent reaches and the words that its copies are
compared on. -/
def Upset.raise (u : Upset) (e : Env) (at_ : Env → Nat → Nat) (words : Nat → List Nat) (code lanes : Nat) : Raise :=
  let th := e.firstIn lanes
  let p := u.pair (words th) (code = 0)
  { code := code, lanes := e.hitLanes lanes, addr := at_ e th, wordA := p.1, wordB := p.2 }

/-- What the comparison of an instruction's copies finds (R68, R69): with DUP, a difference faults; with TRI, a failed vote
faults. -/
def Upset.compare (u : Upset) (e : Env) (at_ : Env → Nat → Nat) (words : Nat → List Nat) : Option Raise :=
  if e.pclass = 1 && e.hit u.diff != 0 then some (u.raise e at_ words 0x05 u.diff)
  else if e.pclass = 2 && e.hit u.vote != 0 then some (u.raise e at_ words 0x06 u.vote)
  else none

/-- A register read that cannot be corrected consumes poison (R136). -/
def Upset.unread (u : Upset) (e : Env) : Option Raise :=
  if e.hit u.ecc != 0 then some { code := 0x0A, lanes := e.hitLanes u.ecc, info := u.reg } else none

/-- The record of copies that the vote corrects, with the address that was corrected (R69, R76). -/
def State.logVoted (s : State) (e : Env) (engine : Nat) (at_ : Env → Nat → Nat) (words : Nat → List Nat) (u : Upset) : State :=
  if e.pclass = 2 && e.hit u.diff != 0 then (s.ctxLog e.t.ctx (s.logOf e 3 1 engine e.idx (u.raise e at_ words 0 u.diff))).1 else s

/-- The record of register reads that the hardware corrects (R136). -/
def State.logReread (s : State) (e : Env) (u : Upset) : State :=
  if e.hit u.eccFixed != 0 then (s.ctxLog e.t.ctx (s.logOf e 3 1 1 e.idx { code := 0, lanes := e.hitLanes u.eccFixed, info := u.reg })).1 else s

/-- Where the copies of an instruction are compared (R68, R129): before its effect, on the fields alone where its value is read once; not
at all, where they never differ (R172); or before the writeback of accumulators. -/
inductive Compared where
  | before
  | never
  | accumulators
  deriving DecidableEq, Repr

/-- A fault of decode or of operand read precedes the comparison (R72). -/
def Res.early : Res → Bool
  | .fault r => r.code == 0x01 || r.code == 0x04
  | _ => false

/-- The body ends in a fault. -/
def Res.faults : Res → Bool
  | .fault _ | .faultAfter _ _ => true
  | _ => false

/-- The state that a body leaves, if it does not fault. -/
def Res.after : Res → Option State
  | .done s | .faultAfter s _ | .suspend s _ | .park s _ | .jumped s | .handled s => some s
  | .fault _ => none

/-- No register of a team is marked as written. -/
def State.unmarked (s : State) (tid : Nat) : State :=
  s.updTeam tid (fun t => { t with lead := { t.lead with wrote := [] }, threads := t.threads.map (fun p => (p.1, { p.2 with wrote := [] })) })

/-- The words on which the copies of an instruction are compared for one agent, from its body run on unmarked registers (R68): the queue
that it pops; else the registers and the masks it writes; the address, data and fields of its request; and where it transfers. With
none of these, the address it reaches. -/
def State.copyWords (s : State) (e : Env) (r : Res) (at_ : Env → Nat → Nat) (th : Nat) : List Nat :=
  match r.after.bind (fun s => (s.teams.look e.tid).map (fun t => (s, t))) with
  | none => twoWords (at_ e th)
  | some (s', t) =>
    let pops := (upFrom 0 5).filter (fun q => (t.thread th).pos.getD q 0 != (e.t.thread th).pos.getD q 0)
    let regs := if e.lead then t.lead.wrote.flatMap (fun p => twoWords (t.sreg p.1)) else (t.thread th).wrote.map (fun p => (t.thread th).vreg p.1)
    let masks := match t.warps.look (t.hwOf th), e.t.warps.look (t.hwOf th) with
      | some h, some h' => (upFrom 0 8).flatMap (fun k => if h.mask k = h'.mask k then [] else twoWords (h.mask k))
      | _, _ => []
    let reqs := s'.ops.flatMap (fun p => if p.1 < s.nextId then []
      else p.2.lanes.flatMap (fun a => if a.thread = th then twoWords a.addr ++ twoWords a.data ++ twoWords a.data2 else [])
        ++ p.2.args.flatMap twoWords ++ [p.2.size, p.2.scope, p.2.ord])
    let target := if e.lead then t.lead.pc else (t.thread th).pc
    let all := (if pops.isEmpty then regs ++ masks else pops) ++ reqs ++ (if target = e.pc then [] else twoWords target)
    if all.isEmpty then twoWords (at_ e th) else all

/-- End an instruction's issue with the outcome of its body. -/
def State.settle (s : State) (e : Env) (engine : Nat) (r : Res) : State :=
  match r with
  | .done s => s.advance e .issuing
  | .fault f => s.raise e engine e.idx f
  | .faultAfter s f => s.raise e engine e.idx f
  | .suspend s why => s.block e why
  | .park s why => s.advance e (.blocked why)
  | .jumped s => s.releasePort e
  | .handled s => s

/-- A register field below the declared count, in the lane stream (R132). -/
def Env.regsOk (e : Env) (l : List (Nat × Nat)) : Bool :=
  e.lead || l.all (fun p => p.2 == 0 || decide (p.1 + p.2 ≤ e.t.nregs))

/-- Illegal encoding is met by every thread of the formed warp (log entry 128). -/
def Env.illegal (e : Env) : Raise := { code := 0x01, lanes := if e.lead then 0 else e.t.laneMask e.all }

/-- End an issue that meets an upset, in the order of R72: operand faults, the comparison of copies, the body's own faults, a
register read that consumes poison, and the instruction's effect, with the records of what was corrected. -/
def State.issueUpset (s : State) (e : Env) (u : Upset) (engine : Nat) (cmp : Compared) (body : Env → State → Res) (at_ : Env → Nat → Nat) : State :=
  let r := body e s
  let words := s.copyWords e (body e (s.unmarked e.tid)) at_
  if r.early then s.settle e engine r
  else match (if cmp = .before then u.compare e at_ words else none) with
    | some f => s.raise e engine e.idx f
    | none =>
      let voted := if cmp = .before then s.logVoted e engine at_ words u else s
      let r := body e voted
      if r.faults then voted.settle e engine r
      else match u.unread e with
        | some f => ((voted.ctxLog e.t.ctx (voted.logOf e 4 3 1 e.idx f)).1).raise e engine e.idx f
        | none =>
          let logged := voted.logReread e u
          logged.settle e engine (body { e with upset := if cmp = .accumulators then some u else none } logged)

/-- Issue an instruction of a class (R71 to R73): illegal encoding first, then the body. `regs` lists the registers it names
with how many it reads or writes from each. A protection class is legal once its feature is acknowledged (R464). `legal` holds
the checks that need the state; `at_` is the address a thread reaches, for the record of a mismatch. -/
def State.issue (s : State) (msel pclass : Nat) (engine : Nat) (lastOnly : Bool) (regs : Env → List (Nat × Nat))
    (legal : Env → Bool) (body : Env → State → Res) (at_ : Env → Nat → Nat := fun _ _ => 0) (cmp : Compared := .before) : State :=
  match s.env msel pclass with
  | none => s
  | some e =>
    let clean : State := { s with upset := none }
    if !e.regsOk (regs e) || !legal e || (pclass != 0 && !s.feature 1) || (lastOnly && !e.last) then clean.raise e engine e.idx e.illegal
    else match s.upset with
      | none => clean.settle e engine (body e clean)
      | some u => clean.issueUpset e u engine cmp body at_

/-! ## Returning from a trap (R87) -/

/-- The lead thread leaves handler mode: s120 to s127 come back, and it goes on where the action says; after HALT it
goes nowhere (R85, R87). -/
def Lead.leaveHandler (l : Lead) (action : Nat) : Lead :=
  let own := l.trap.leadf && l.trap.kind = 0
  let at_ : Nat × Nat :=
    if own && action = 0 then (l.resume.toNat, 0)
    else if own && action = 2 then
      (if l.trap.index + 1 < l.trap.count then (l.retPc, l.retIdx + 1) else (l.retPc + 8 * (l.trap.count + 1), 0))
    else (l.retPc, l.retIdx)
  { l with
    regs := (upFrom 0 8).foldl (fun m i => m.set 0 (120 + i) (l.saves.get 0 i)) l.regs
    hmode := false, revived := false, header := 0, stamp := none, retWhy := none
    pc := if l.revived then 0 else at_.1
    idx := if l.revived then 0 else at_.2
    run := if l.revived then .halting
      else match l.retWhy with
        | some w => .running (.blocked w)
        | none => .running .unfetched }

/-- The faulting formed warp goes on as the action of ERET says (R87). -/
def State.releaseWarp (s : State) (tid : Nat) (tr : TrapRec) (resume action : Nat) : State :=
  match tr.fid with
  | none => s
  | some fid =>
    if action = 0 then s.dissolve tid fid (fun _ => some resume)
    else if action = 2 && tr.count ≤ tr.index + 1 then s.dissolve tid fid (fun _ => some (tr.clause + 8 * (tr.count + 1)))
    else s.updWarp tid fid (fun w =>
      { w with idx := if action = 2 then tr.index + 1 else if tr.index = 31 then 0 else tr.index, stamp := none, split := if action = 2 then [] else w.split,
               run := if tr.index = 31 then .unfetched else .waiting })

/-- ERET with an action other than ABORT (R87): the warp is released, the lead thread returns, and the next queued trap
is entered (R84). -/
def State.returnFromTrap (s : State) (tid action : Nat) : State :=
  match s.teams.look tid with
  | none => s
  | some t =>
    let l := t.lead
    let s := if l.trap.kind = 0 && !l.trap.leadf then s.releaseWarp tid l.trap l.resume.toNat action else s
    let s := s.updLead tid (fun l => l.leaveHandler action)
    match l.queue with
    | [] => s
    | tr :: rest => (s.updLead tid (fun l => { l with queue := rest })).enterTrap tid tr

end Sys2Proof.Machine
end

