-- ==== Sys2Proof/Machine/LaunchRec.lean ====
section
/-! DEFINITION. The fields of a launch record (R361), and the declared write regions of a launch (R222, R347). -/

namespace Sys2Proof.Machine

/-- n bytes of a byte list at an offset, as a number. -/
def fieldAt (l : List Byte) (off n : Nat) : Nat := natOf ((l.drop off).take n)

/-- A field of the launch record (R361). -/
def Launch.field (l : Launch) (off n : Nat) : Nat := fieldAt l.image off n

def Launch.listed (l : Launch) : Bool := bit (l.field 0 1) 0
def Launch.replay (l : Launch) : Bool := bit (l.field 0 1) 1
def Launch.elastic (l : Launch) : Bool := bit (l.field 0 1) 2
def Launch.serial (l : Launch) : Bool := bit (l.field 0 1) 3
def Launch.width (l : Launch) : Nat := l.field 1 1
def Launch.nregs (l : Launch) : Nat := 16 * l.field 2 1
def Launch.gang (l : Launch) : Nat := l.field 3 1
def Launch.teamSize (l : Launch) : Nat := l.field 4 2
def Launch.minDies (l : Launch) : Nat := l.field 6 1
def Launch.maxDies (l : Launch) : Nat := l.field 7 1
def Launch.scratch (l : Launch) : Nat := l.field 8 4
def Launch.cluster (l : Launch) : Nat := l.field 0x0C 4
def Launch.priv (l : Launch) : Nat := l.field 0x10 2
def Launch.nsync (l : Launch) : Nat := l.field 0x12 1
def Launch.waitEn (l : Launch) : Nat := l.field 0x13 1
def Launch.teamCount (l : Launch) : Nat := l.field 0x14 4
def Launch.leadPc (l : Launch) : Nat := l.field 0x18 8
def Launch.lanePc (l : Launch) : Nat := l.field 0x20 8
def Launch.argp (l : Launch) : Nat := l.field 0x28 8
def Launch.list (l : Launch) : Nat := l.field 0x30 8
def Launch.snapAt (l : Launch) : Nat := l.field 0x38 8
def Launch.syncAt (l : Launch) : Nat := l.field 0x40 8
def Launch.waitIdx (l : Launch) (i : Nat) : Nat := l.field (0x48 + i) 1
def Launch.sigEn (l : Launch) : Bool := bit (l.field 0x4C 1) 0
def Launch.sigIdx (l : Launch) : Nat := l.field 0x4D 1
/-- INPUT entry i: source, scratchpad offset, length. -/
def Launch.input (l : Launch) (i : Nat) : Nat × Nat × Nat :=
  (l.field (0x50 + 16 * i) 8, l.field (0x58 + 16 * i) 4, l.field (0x5C + 16 * i) 4)
def Launch.wreg (l : Launch) (i : Nat) : Nat := l.field (0x90 + 8 * i) 8
def Launch.thresh (l : Launch) (i : Nat) : Nat := l.field (0xD0 + 8 * i) 8
def Launch.sigVal (l : Launch) : Nat := l.field 0xF0 8

/-- The declared write regions in order (R361 WREG). -/
def Launch.regions (l : Launch) : List Region :=
  ((upFrom 0 8).map l.wreg).map (fun w => { chip := bit w 63, base := bits w 51 16 * 2 ^ 16, bytes := bits w 15 0 * 2 ^ 16 })

/-- Every byte of a range lies in a declared region of its space (R222). -/
def Launch.declares (l : Launch) (chip : Bool) (a n : Nat) : Bool :=
  (upFrom a n).all (fun x => l.regions.any (fun r => r.chip == chip && decide (r.base ≤ x) && decide (x < r.base + r.bytes)))

/-- The launch of a team permits replay. -/
def State.replayable (s : State) (t : Team) : Bool :=
  match s.launches.look t.launch with
  | some l => l.replay
  | none => false

/-- The granules of a launch's regions that a range touches: region, granule index within the region (R347). -/
def Launch.granules (l : Launch) (chip : Bool) (a n : Nat) : List (Nat × Nat) :=
  (l.regions.zipIdx).flatMap (fun p =>
    if p.1.chip == chip && decide (a < p.1.base + p.1.bytes) && decide (p.1.base < a + n) then
      let lo := (max a p.1.base - p.1.base) / 2 ^ 16
      let hi := (min (a + n) (p.1.base + p.1.bytes) - 1 - p.1.base) / 2 ^ 16
      (upFrom lo (hi + 1 - lo)).map (fun g => (p.2, g))
    else [])

/-- A granule's key in `Launch.copied`. -/
def granuleKey (g : Nat × Nat) : Nat := g.1 * 2 ^ 16 + g.2

/-- Tracked granules of the live replayable launches of a context that a write touches and that are not yet copied
(R347, R348): launch and granule. -/
def State.uncopied (s : State) (c : Nat) (chip : Bool) (a n : Nat) : List (Nat × Nat) :=
  (s.launches.filter (fun p => p.2.ctx == c && p.2.replay && (p.2.state == 1 || p.2.state == 2 || p.2.state == 3))).flatMap (fun p =>
    ((p.2.granules chip a n).map granuleKey).filterMap (fun g => if p.2.copied.has g || p.2.lost.has g then none else some (p.1, g)))

/-- A write that touches a granule which cannot be saved (R350). -/
def State.lostWrite (s : State) (c : Nat) (chip : Bool) (a n : Nat) : Bool :=
  s.launches.any (fun p => p.2.ctx == c && ((p.2.granules chip a n).map granuleKey).any p.2.lost.has)

end Sys2Proof.Machine
end

