-- ==== Sys2Proof/Machine/Operands.lean ====
section
/-! DEFINITION. The operand forms: lead operands (R102), lane operands of 32 and 64 bits with their literal zeros
(R51, R134, R154), memory operands (R209), and the shared issue of register-only instructions (R135). -/

namespace Sys2Proof

/-- Operand A, B or C of format A is replaced by a literal zero (R51). -/
def FmtA.za (f : FmtA) : Bool := f.zsel.toNat % 2 == 1
def FmtA.zb (f : FmtA) : Bool := f.zsel.toNat / 2 % 2 == 1
def FmtA.zc (f : FmtA) : Bool := f.zsel.toNat / 4 == 1

/-- IMM of format I, sign-extended to n bits (R49). -/
def FmtI.simm (f : FmtI) (n : Nat) : Nat := wrap f.imm.toInt n

/-- NAT of the lead instructions that have it: MOD bit 0 (R102). -/
def FmtA.nat0 (f : FmtA) : Bool := f.md.toNat % 2 == 1

namespace Machine

/-- A lead operand, or 0. -/
def Team.sop (t : Team) (z : Bool) (n : Nat) : Nat := if z then 0 else t.sreg n

/-- A lane operand of 32 bits, or 0 (R134). -/
def Thread.vop (t : Thread) (z : Bool) (n : Nat) : Nat := if z then 0 else t.vreg n

/-- A lane operand of 32 or 64 bits, or 0. -/
def Thread.vopw (t : Thread) (wide z : Bool) (n : Nat) : Nat := if z then 0 else if wide then t.vpair n else t.vreg n

/-- The writes of a 32 or 64-bit result. -/
def resultWrites (wide : Bool) (n v : Nat) : List (Nat × Nat) := if wide then pairWrites n v else [(n, v)]

/-! ## Register-only instructions -/

/-- A lead scalar instruction: its result is written to s[DST] (R102). -/
def leadResult (s : State) (msel pclass : Nat) (dst : Nat) (val : Env → Nat) : State :=
  s.issue msel pclass 0 false (fun _ => []) (fun e => e.lead) (fun e s => .done (s.setS e.tid dst (val e)))

/-- A format A scalar instruction of two sources (R102). -/
def leadA (f : FmtA) (s : State) (op : Nat → Nat → Nat) : State :=
  leadResult s f.msel.toNat f.pclass.toNat f.dst.toNat (fun e => op (e.t.sop f.za f.a.toNat) (e.t.sop f.zb f.b.toNat))

/-- A format I scalar instruction: B is the sign-extended immediate (R49, R102). -/
def leadI (f : FmtI) (s : State) (op : Nat → Nat → Nat) : State :=
  leadResult s f.msel.toNat f.pclass.toNat f.dst.toNat (fun e => op (e.t.sreg f.a.toNat) (f.simm 64))

/-- A LANE instruction (R135): in each active lane the writes are computed from that thread's registers before any is
made; with no active lane nothing changes. -/
def laneOp (s : State) (msel pclass : Nat) (regs : List (Nat × Nat)) (f : Env → Nat → Thread → List (Nat × Nat))
    (cmp : Compared := .before) : State :=
  s.issue msel pclass 1 false (fun _ => regs) (fun e => !e.lead)
    (fun e s => .done (s.setV e.tid (e.act.map (fun th => (th, f e th (e.t.thread th)))))) (cmp := cmp)

/-- Registers of a format A word with their counts: sources that are used, not replaced by zero, and the destination. -/
def regsA (f : FmtA) (na nb nc nd : Nat) : List (Nat × Nat) :=
  [(f.a.toNat, if f.za then 0 else na), (f.b.toNat, if f.zb then 0 else nb), (f.c.toNat, if f.zc then 0 else nc), (f.dst.toNat, nd)]

end Machine

end Sys2Proof
end

