-- ==== Sys2Proof/Machine/Queues.lean ====
section
/-! DEFINITION. The broadcast queues of a team (R107 to R111): occupancy, positions, pops, retirement and pushes. Queue 0
is the decision queue, 1 + n is aq n. -/

namespace Sys2Proof.Machine

/-- Depth of a queue (R107). -/
def queueDepth (q : Nat) : Nat := if q = 0 then 64 else 256

/-- A queue of a team. -/
def Team.queue (t : Team) (q : Nat) : Queue := t.queues.get {} q

/-- Occupancy: entries pushed and not yet retired (R108). -/
def Team.occupancy (t : Team) (q : Nat) : Nat := (t.queue q).ents.length

/-- The position of a thread in a queue. -/
def Thread.posOf (t : Thread) (q : Nat) : Nat := t.pos.getD q 0

/-- The least position in a queue among the threads that have not exited; the end of the queue if there is none. -/
def Team.minPos (t : Team) (q : Nat) : Nat :=
  t.threads.vals.foldl (fun m th => if th.live then min m (th.posOf q) else m)
    ((t.queue q).base + (t.queue q).ents.length)

/-- Entries retire when every live thread has passed them (R108). -/
def Team.retire (t : Team) (q : Nat) : Team :=
  let k := t.queue q
  let n := t.minPos q - k.base
  { t with queues := t.queues.put q { base := k.base + n, ents := k.ents.drop n } }

/-- Retire in every queue, after threads have exited. -/
def Team.retireAll (t : Team) : Team := (upFrom 0 5).foldl Team.retire t

/-- The clock that queue entries are dated with: that of the core of the lead thread. -/
def State.clockOf (s : State) (t : Team) : Nat := (s.core t.core).clock

/-- The entry at a thread's position, if it is visible: pushed in an earlier clock (R110, R111), and, where the team runs on a
pair, released by the acknowledgement of the lead thread's earlier accesses (R109, R254). -/
def State.entryAt (s : State) (t : Team) (q th : Nat) : Option QEntry :=
  let k := t.queue q
  match k.ents[(t.thread th).posOf q - k.base]? with
  | some e => if e.clock = s.clockOf t || (t.paired && !e.after.all (s.effected true)) then none else some e
  | none => none

/-- The value at a thread's position. -/
def State.entryFor (s : State) (t : Team) (q th : Nat) : Option Nat := (s.entryAt t q th).map (fun e => e.val.toNat)

/-- Every one of some threads finds an entry at its own position (R108, R110). -/
def State.entriesFor (s : State) (t : Team) (q : Nat) (l : List Nat) : Bool := l.all (fun th => (s.entryFor t q th).isSome)

/-- What a thread takes with an entry: its next position, and the accesses that its later ones come after (R108, R109). -/
def State.popThread (s : State) (t : Team) (q th : Nat) (x : Thread) : Thread :=
  let taken := ((s.entryAt t q th).map (·.after)).getD []
  { x with pos := x.pos.set q (x.posOf q + 1)
           after := x.after.filter (fun p => !s.effected t.paired p.1) ++ (taken.filter (fun id => !s.effected t.paired id)).map (fun id => (id, s.nextId)) }

/-- A pop by threads of a team (R108, R109, R111): each position advances by one, and entries that all have passed retire. It is an
acquire at team scope, which drops the L1 lines of the popping core of a pair (R254). -/
def State.popFor (s : State) (tid q : Nat) (l : List Nat) : State :=
  let s' := s.updTeam tid (fun t => ({ t with
    threads := l.foldl (fun ts th => ts.upd th (s.popThread t q th)) t.threads }).retire q)
  match s.teams.look tid with
  | some t => if t.paired then s'.dropL1 (t.coreOf (t.warps.get {} (t.hwOf (l.headD 0))).quarter) else s'
  | none => s'

/-- The accesses of the lead thread that a push releases: those that have not yet taken effect (R109, R324). -/
def State.releasedBy (s : State) (tid : Nat) (t : Team) : List Nat :=
  (s.ops.filter (fun p => p.2.tid == tid && p.2.fid.isNone && p.2.kind.touches && !p.2.kind.far && !s.effected t.paired p.1)).map (·.1)

/-- A push by the lead thread (R107 to R109): the entry is appended; with no live thread it retires at once. -/
def State.pushTo (s : State) (tid q val : Nat) : State :=
  match s.teams.look tid with
  | none => s
  | some t =>
    let ent : QEntry := { val := BitVec.ofNat 64 val, clock := s.clockOf t, after := s.releasedBy tid t }
    s.updTeam tid (fun t =>
      { t with queues := t.queues.put q { t.queue q with ents := (t.queue q).ents ++ [ent] } : Team }.retire q)

/-- A lead push (R110, R112): on a full queue the lead thread suspends before it, else the entry is appended and AQSTEP
changes its register. -/
def pushBody (q val : Nat) (reg : Option (Nat × Nat)) (e : Env) (s : State) : Res :=
  if queueDepth q ≤ e.t.occupancy q then .suspend (s.updLead e.tid (fun l => { l with stall := 0 })) (.queueFull q val reg)
  else
    let s := s.pushTo e.tid q val
    .done (match reg with
      | some r => s.setS e.tid r.1 r.2
      | none => s)

end Sys2Proof.Machine
end

