-- ==== Sys2Proof/Machine/Reach.lean ====
section
/-! DEFINITION. How a memory instruction reaches memory: addresses (R209 to R211), the access checks in the order of R72
(R210, R213, R222, R339, R384, R396), homes, translation misses (R221, R470), and entering an operation in flight. -/

namespace Sys2Proof.Machine

/-- What an instruction asks of memory in one lane. -/
structure Want where
  /-- Thread, and home lane. -/
  th : Nat
  lane : Nat
  space : Nat
  addr : Int
  data : Nat := 0
  data2 : Nat := 0
  /-- A queue entry with a bad space code (R211). -/
  bad : Bool := false

/-- What kind of access the checks are for. -/
structure Use where
  /-- Bytes accessed, and the alignment required. -/
  bytes : Nat
  align : Nat
  /-- It writes, or changes, memory; ACCESS of a fault record is 0 read, 1 write, 2 read-modify-write. -/
  write : Bool
  access : Nat
  /-- A store that an alias page accepts (R396). -/
  store : Bool := false

/-- Bytes of the context's chip scratchpad granule g: its map entry if it is valid (R344). -/
def State.chipEntry (s : State) (c off : Nat) : Option ChipMap :=
  let g := off / 2 ^ 24
  if g < (s.ctx c).chipGranules then
    match (s.ctx c).chipMap.look g with
    | some m => if m.valid then some m else none
    | none => none
  else none

/-- Footprint of an on-chip space (R210). -/
def Team.footprint (t : Team) (space : Nat) : Nat :=
  if space = 1 then t.privBytes else if space = 2 then t.scratchBytes else t.clusterBytes

/-- The translation held for a want in global memory. -/
def State.leafFor (s : State) (e : Env) (w : Want) : Option Leaf :=
  if w.space = 0 && 0 ≤ w.addr && w.addr < 2 ^ 52 then s.held e.core e.t.ctx w.addr.toNat else none

/-- The permission check (R210, R209, R329, R344, R396, R449, R464). -/
def State.forbidden (s : State) (e : Env) (u : Use) (w : Want) : Bool :=
  w.bad || (if w.addr < 0 then true
    else
      let a := w.addr.toNat
      if w.space = 0 then decide (2 ^ 52 < a + u.bytes) || (match s.leafFor e w with
        | some l => (u.write && !l.w) || (l.alias_ != 0 && !u.store) || s.shut l
        | none => false)
      else if w.space = 4 then (s.chipEntry e.t.ctx a).isNone || (s.chipEntry e.t.ctx (a + u.bytes - 1)).isNone
      else decide (e.t.footprint w.space < a + u.bytes))

/-- The undeclared-write check of a replayable launch (R222, R384). -/
def State.undeclared (s : State) (e : Env) (u : Use) (w : Want) : Bool :=
  u.write && s.replayable e.t && (w.space == 0 || w.space == 4) && decide (0 ≤ w.addr)
    && (!(match s.launches.look e.t.launch with
        | some l => l.declares (w.space == 4) w.addr.toNat u.bytes
        | none => true)
      || (match s.leafFor e w with
        | some l => l.alias_ != 0 || l.frame / 2 ^ 43 != s.pkg
        | none => false))

/-- The protection tail check (R339). -/
def State.tailed (s : State) (e : Env) (u : Use) (w : Want) : Bool :=
  match s.leafFor e w with
  | some l => inTail l w.addr.toNat u.bytes
  | none => false

/-- The first access fault in the order of R72, with every lane that meets it. -/
def State.accessFault (s : State) (e : Env) (u : Use) (ws : List Want) : Option Raise :=
  let found := fun (code : Nat) (p : Want → Bool) =>
    match ws.filter p with
    | [] => none
    | w :: rest => some { code := code, lanes := if e.lead then 0 else e.t.laneMask ((w :: rest).map (fun (x : Want) => x.th)), addr := wrap w.addr 64 : Raise }
  (found 0x07 (fun w => w.addr % (u.align : Int) != 0)).orElse fun _ =>
  (found 0x10 (s.undeclared e u)).orElse fun _ =>
  (found 0x0C (s.tailed e u)).orElse fun _ =>
  found 0x09 (s.forbidden e u)

/-- Whether a want needs a walk before it can be made. -/
def State.needsWalk (s : State) (e : Env) (w : Want) : Bool := w.space == 0 && (s.leafFor e w).isNone

/-- The home of a want whose translation, if it needs one, is held; none while its chip granule is not ready (R344). -/
def State.homeOf (s : State) (tid : Nat) (t : Team) (core thread space a : Nat) : Option (Home × Nat) :=
  match space with
  | 0 => (s.held core t.ctx a).map (fun l => s.place l a)
  | 1 => some (.priv tid thread, a)
  | 2 => some (.scratch tid, a)
  | 3 => some (.cluster t.gang, a)
  | _ => match s.chipEntry t.ctx a with
    | some m => if m.ready then some (.chip (m.die * 64 + m.slice), a % 2 ^ 24) else none
    | none => none

/-- What the leaf of a global address says of an access (R326, R338, R348). -/
def Acc.of (a : Acc) (l : Option Leaf) : Acc :=
  match l with
  | some l => { a with alias_ := l.alias_, coll := l.coll, cache := l.cache, snap := l.snap, prot := some l.prot }
  | none => a

/-- Begin the walks that the wants need: each want as an access, with the walk it waits for (R221). -/
def State.beginWalks (s : State) (e : Env) (u : Use) : List Want → State × List Acc
  | [] => (s, [])
  | w :: rest =>
    let a := w.addr.toNat
    let base : Acc := { lane := w.lane, thread := w.th, space := w.space, addr := a, data := w.data, data2 := w.data2 }
    if s.needsWalk e w then
      let r := s.startWalk (s.walkOf e.t e.lead e.core a u.access)
      let more := r.1.beginWalks e u rest
      (more.1, { base with phase := .walk r.2 } :: more.2)
    else
      let more := s.beginWalks e u rest
      (more.1, Acc.of { base with home := s.homeOf e.tid e.t e.core w.th w.space a } (if w.space = 0 then s.held e.core e.t.ctx a else none) :: more.2)

/-- The operation record of an instruction. -/
def Env.op (e : Env) (s : State) (kind : OpKind) (counter : Option Nat) (lanes : List Acc) : Op :=
  { kind := kind, tid := e.tid, fid := e.fid, core := e.core, hws := e.hws, counter := counter, clause := e.pc, index := e.idx,
    cls := (getHeader e.header).cls % 8, pclass := e.pclass, lanes := lanes, party := e.all, clock := (s.core e.core).clock,
    issued := e.t.lead.issued }

/-- Put an operation in flight: it enters its counter (R26, R27). -/
def State.launchOp (s : State) (e : Env) (o : Op) : State × Nat :=
  let id := s.nextId
  let s : State := { s with ops := s.ops.put id o, nextId := id + 1 }
  (match o.counter with
    | some c => s.enterOc e.tid e.lead o.hws c id
    | none => s, id)

/-- The counter of an instruction's class stands at 63 (R63). -/
def Env.full (e : Env) (c : Nat) : Bool := e.t.countFull e.hws e.lead c

/-- The counter of an instruction's class is full: its clause suspends until it is not (R27, R63). -/
def Env.waitsFor (e : Env) (c : Nat) : Why := .counterFull c e.hws

/-- A lane's line is absent now (R25, R219). -/
def State.absentFor (s : State) (o : Op) (a : Acc) : Bool :=
  match a.home with
  | some (h, x) => o.kind != .prsq && (s.space h).isAbsent x o.bytes
  | none => false

/-- Put an access in flight. It parks the party when a translation is missing (R221), when a line it touches on chip is absent
(R63, R219), or when its instruction always parks. -/
def State.launchAccess (s : State) (e : Env) (o : Op) : Res :=
  let waits := o.lanes.any (fun a => a.home.isNone && a.space == 0)
  let absent := o.lanes.any (s.absentFor o)
  let r := s.launchOp e { o with
    lanes := o.lanes.map (fun a => if s.absentFor o a then { a with phase := .absent } else a)
    parks := o.parks || waits }
  if o.parks || waits || absent then .park r.1 (.access r.2) else .done r.1

/-- An instruction with an outstanding operation: the counter, the checks, the walks, and the operation. With no active
lane nothing happens. -/
def accessBody (u : Use) (counter : Nat) (parks : Bool) (mk : Env → State → List Acc → Op) (ws : List Want) (e : Env)
    (s : State) (fault : State → Raise → Res) : Res :=
  if ws.isEmpty then .done s
  else if e.full counter then .suspend s (e.waitsFor counter)
  else match s.accessFault e u ws with
    | some r => fault s r
    | none =>
      let b := s.beginWalks e u ws
      b.1.launchAccess e { mk e b.1 b.2 with parks := parks }

/-- A fault with no queue entry consumed before it. -/
def plainFault (_ : State) (r : Raise) : Res := .fault r

/-! ## Operands of format M -/

/-- The base address of a lane or of the lead thread (R209): the ADDR register by space. -/
def Env.baseOf (e : Env) (space addr th : Nat) : Nat :=
  if e.lead then e.t.sreg addr
  else if space = 0 then (e.t.thread th).vpair addr else (e.t.thread th).vreg addr

/-- The sum of a base and an offset: a 64-bit sum for global memory, exact for the others (R209). -/
def formAddr (space base : Nat) (off : Int) : Int :=
  if space = 0 then (wrap ((base : Int) + off) 64 : Nat) else (base : Int) + off

/-- The threads an instruction acts for: the active threads, or the lead thread. -/
def Env.agents (e : Env) : List Nat := if e.lead then [leadThread] else e.act

/-- Home lane of an agent. -/
def Env.laneOf (e : Env) (th : Nat) : Nat := if e.lead then 0 else e.t.laneOf th

/-- A DATA group's value, by its number of registers (R212). -/
def Thread.group (t : Thread) (reg n : Nat) : Nat := (upFrom 0 n).foldl (fun v i => v + t.vreg (reg + i) * 2 ^ (32 * i)) 0

/-- DATA of an agent in `bytes` bytes: a lane group, or lead registers of 8 bytes (R104, R212). -/
def Env.dataOf (e : Env) (reg bytes th : Nat) : Nat :=
  if e.lead then (e.t.sreg reg + (if 8 < bytes then e.t.sreg (reg + 1) * 2 ^ 64 else 0)) % 2 ^ (8 * bytes)
  else (e.t.thread th).group reg ((bytes + 3) / 4) % 2 ^ (8 * bytes)

/-- Write a value of a DATA group to an agent's registers: zero-extended (R104, R215). -/
def State.putData (s : State) (tid : Nat) (lead : Bool) (th reg bytes v : Nat) : State :=
  if lead then
    let s := s.setS tid reg (v % 2 ^ 64)
    if 8 < bytes then s.setS tid (reg + 1) (v / 2 ^ 64) else s
  else s.setV tid [(th, groupWrites reg ((bytes + 3) / 4) v)]

/-- Wants of an instruction with an immediate offset. -/
def Env.wants (e : Env) (space addr : Nat) (off : Nat → Int) (data data2 : Nat → Nat) : List Want :=
  e.agents.map (fun th => Want.mk th (e.laneOf th) space (formAddr space (e.baseOf space addr th) (off th)) (data th) (data2 th) false)

/-! ## SPACE 5 -/

/-- The access that a queue entry names (R211). -/
def queueWant (e : Env) (addr : Nat) (off : Int) (entry : Nat) (data : Nat → Nat) (th : Nat) : Want :=
  let sp := bits entry 63 60
  { th := th, lane := e.t.laneOf th, space := sp, addr := (bits entry 51 0 : Int) + sext ((e.t.thread th).vreg addr) 32 + off,
    data := data th, bad := !(sp == 0 || sp == 2 || sp == 3 || sp == 4) || bits entry 59 52 != 0 }

end Sys2Proof.Machine
end

