-- ==== Sys2Proof/Machine/Home.lean ====
section
/-! DEFINITION. What happens at a home: L1 lines (R214, R254, R255), barrier objects (R229 to R234), when an access may be
performed (R219, R245, R250 to R256, R348), performing it (R246), parking and waking its party, mixed sizes (R257). -/

namespace Sys2Proof.Machine

/-! ## Parking and waking a party -/

/-- A blocked party goes on: at its next instruction, or at the next clause after the last one. -/
def State.wakeParty (s : State) (tid : Nat) (fid : Option Nat) : State :=
  match s.teams.look tid with
  | none => s
  | some t => match fid with
    | none =>
      let h := getHeader t.lead.header
      (s.updLead tid (fun l =>
        if h.count ≤ l.idx && l.header != 0 then l.goto (l.pc + 8 * (h.count + 1))
        else { l with run := .running (if l.header = 0 then .unfetched else .waiting) })).trapNext tid
    | some f => match t.formed.look f with
      | none => s
      | some w =>
        let h := getHeader w.header
        if h.count ≤ w.idx && w.header != 0 then s.dissolve tid f (fun _ => some (w.pc + 8 * (h.count + 1)))
        else s.updWarp tid f (fun w => { w with run := if w.header = 0 then .unfetched else .waiting })

/-- What blocks a party now. -/
def State.blockedBy (s : State) (tid : Nat) (fid : Option Nat) : Option Why :=
  match s.teams.look tid with
  | none => none
  | some t => match fid with
    | none => match t.lead.run with
      | .running (.blocked w) => some w
      | _ => none
    | some f => match t.formed.look f with
      | some w => match w.run with
        | .blocked w => some w
        | _ => none
      | none => none

/-- The parties of a team, as formed warps and the lead thread, that an operation has parked. -/
def State.parkedAt (s : State) (tid id : Nat) : List (Option Nat) :=
  match s.teams.look tid with
  | none => []
  | some t => (none :: t.formed.keys.map some).filter (fun f => s.blockedBy tid f == some (.access id))

/-- Wake the parties that an operation parked; a lead thread in the handler no longer returns to the park (R82). -/
def State.unpark (s : State) (id : Nat) : State :=
  match s.ops.look id with
  | none => s
  | some o =>
    let s := s.updOp id (fun o => { o with parks := false })
    let s := (s.parkedAt o.tid id).foldl (fun s f => s.wakeParty o.tid f) s
    if o.fid.isNone then s.updLead o.tid (fun l => if l.retWhy = some (.access id) then { l with retWhy := none } else l) else s

/-- A party that may issue stands parked at an operation. -/
def ClauseRun.park (r : ClauseRun) (id : Nat) : ClauseRun :=
  match r with
  | .blocked w => .blocked w
  | _ => .blocked (.access id)

/-- Park the lead thread of an operation, or the formed warps that hold threads of its lanes, whatever they have issued since (R219);
a party that is suspended stays so, and is not ready until the operation is performed. -/
def State.parkOp (s : State) (id : Nat) : State :=
  match s.ops.look id with
  | none => s
  | some o => match s.teams.look o.tid with
    | none => s
    | some t =>
      if o.fid.isNone then
        ((s.freePort t.core 4 o.tid none).updLead o.tid (fun l => { l with run := match l.run with
          | .running r => .running (r.park id)
          | r => r })).trapNext o.tid
      else
        (t.formed.filter (fun p => p.2.threads.any (fun th => o.lanes.any (fun a => a.thread == th)))).foldl (fun s p =>
          (s.freePort (t.coreOf p.2.quarter) (p.2.quarter % 4) o.tid (some p.1)).updWarp o.tid p.1 (fun w => { w with run := w.run.park id })) s

/-- An operation that may act: its team is not saved (R373). -/
def State.liveOp (s : State) (id : Nat) : Option Op :=
  (s.ops.look id).bind (fun o => match s.teams.look o.tid with
    | some t => match t.place with
      | .saved _ => none
      | _ => some o
    | none => some o)

/-- The environment of an operation's issue, for a fault found later. -/
def State.opEnv (s : State) (o : Op) : Option Env :=
  (s.teams.look o.tid).map (fun t =>
    let ths := o.lanes.map (·.thread)
    let w := match o.fid with
      | some f => t.formed.get { noWarp with threads := ths } f
      | none => noWarp
    { tid := o.tid, t := t, fid := o.fid, w := w, all := w.threads, act := if o.fid.isNone then [] else ths, pc := o.clause,
      idx := o.index, header := if o.fid.isNone then t.lead.header else w.header, core := o.core, pclass := o.pclass })

/-- A fault of an operation found after its issue: it leaves its counter, and its party faults at its index (R28, R73). -/
def State.opFault (s : State) (id : Nat) (r : Raise) : State :=
  match s.ops.look id with
  | none => s
  | some o => match s.opEnv o with
    | none => s.endOp id
    | some e => (s.endOp id).raise e o.cls o.index r

/-! ## L1 lines -/

/-- The team of an operation runs on a pair (R254). -/
def State.pairedOp (s : State) (o : Op) : Bool := ((s.teams.look o.tid).map (·.paired)).getD false

/-- The access behaves at cluster scope or wider: it is performed at the home (R254). -/
def State.wide (s : State) (o : Op) (scope : Nat) : Bool := decide (3 ≤ scope) || (scope == 2 && s.pairedOp o)

/-- The scope at which an access of a home behaves (R243). -/
def Home.scope (h : Home) (scope : Nat) : Nat :=
  match h with
  | .priv _ _ => 1
  | .scratch _ => min scope 2
  | .cluster _ => min scope 3
  | _ => scope

/-- An access of a home behaves at cluster scope or wider (R243, R254). -/
def State.wideAt (s : State) (o : Op) (h : Home) (scope : Nat) : Bool := s.wide o (h.scope scope)

/-- Bytes of an L1 line. -/
def L1Line.bytes (l : L1Line) (off n : Nat) : List Byte := (upFrom off n).map (fun x => l.cells.get 0 x)

/-- Fill an L1 line from the home, with the mark of the EVICT (R214); with EVICT 3 it is kept for the team. -/
def State.fillL1 (s : State) (core a evict tid : Nat) : State :=
  let line := a / 128
  let cells : Tab Byte := (upFrom 0 128).foldl (fun (c : Tab Byte) i => c.set 0 i (s.readByte .glob (128 * line + i))) []
  let poison := (upFrom 0 4).filter (fun i => s.poisonAt .glob (128 * line + 32 * i) 32)
  let s := s.updCore core (fun c => { c with l1 := c.l1.put line { cells := cells, poison := poison, mark := evictMark evict } })
  if evict = 3 then s.keepLine core line tid else s

/-- A core's own store passes through its L1 line, if it holds one (R255). -/
def State.storeL1 (s : State) (core a : Nat) (bs : List Byte) : State :=
  match (s.core core).l1.look (a / 128) with
  | none => s
  | some l => s.updCore core (fun c => { c with l1 := c.l1.put (a / 128) { l with
      cells := writeCells l.cells (a % 128) bs
      poison := (wholeSectors (a % 128) bs.length).foldl NatSet.rem l.poison } })

/-- An access that hits its L1 line marks it as its EVICT says (R214). -/
def State.markL1 (s : State) (core line evict tid : Nat) : State :=
  if 3 < evict then s
  else
    let s := s.updCore core (fun c => { c with l1 := c.l1.upd line (fun l => { l with mark := evictMark evict }) })
    if evict = 3 then s.keepLine core line tid else s

/-- A core flushes its own delta line before another access to the line (R315). -/
def State.flushOwn (s : State) (h : Home) (core a : Nat) : State :=
  if h = .glob && ((s.core core).deltas.look (a / 128)).isSome then s.recallOne (a / 128) core else s

/-- The L1 line that serves an access, where its scope lets L1 serve it (R254). -/
def State.l1Hit (s : State) (o : Op) (h : Home) (a : Nat) : Option L1Line :=
  if h = .glob && !s.wideAt o h o.scope then (s.core o.core).l1.look (a / 128) else none

/-- Read bytes for an access: through L1 where its scope allows, else at the home after a recall (R254, R316). A line read at its
home without being kept in L1 leaves no older copy there (R248). -/
def State.readFor (s : State) (o : Op) (c : Acc) (h : Home) (a n : Nat) : State × List Byte × Bool :=
  let s := s.flushOwn h o.core a
  let evict := evictOf o.evict c.cache
  match s.l1Hit o h a with
  | some l => (s.markL1 o.core (a / 128) evict o.tid, l.bytes (a % 128) n,
      (upFrom (a % 128) n).any (fun x => l.poison.has (x / 32)))
  | none =>
    let s := (s.recall h a n).touchL2 h a n evict
    let bs := s.readHome h a n
    let p := s.poisonAt h a n
    let s := if h = .glob then (if evict ≤ 3 then s.fillL1 o.core a evict o.tid else s.dropLine o.core a) else s
    (s.afterRead h a n, bs, p)

/-- Write bytes of an access at the home, and through the L1 line of its core, which it allocates unless its EVICT does not (R214,
R255). -/
def State.writeFor (s : State) (o : Op) (c : Acc) (h : Home) (a : Nat) (bs : List Byte) : State :=
  let evict := evictOf o.evict c.cache
  let s := ((s.flushOwn h o.core a).recall h a bs.length).writeHome h a bs
  if h != .glob then s
  else if ((s.core o.core).l1.look (a / 128)).isSome then (s.storeL1 o.core a bs).markL1 o.core (a / 128) evict o.tid
  else if evict ≤ 3 then s.fillL1 o.core a evict o.tid
  else s

/-! ## Barrier objects -/

/-- The words 0 and 1 of a barrier object (R229). -/
structure Bar where
  phase : Bool
  err : Bool
  poison : Bool
  abandon : Bool
  pending : Nat
  parts : Nat
  tx : Int
  deriving DecidableEq, Repr

/-- Read a barrier object from its two words. -/
def Bar.ofWords (w0 w1 : Nat) : Bar :=
  { phase := bit w0 31, err := bit w0 30, poison := bit w0 29, abandon := bit w0 28, pending := bits w0 27 16, parts := bits w0 11 0,
    tx := sext w1 32 }

/-- The two words of a barrier object. -/
def Bar.word0 (b : Bar) : Nat :=
  b2n b.phase * 2 ^ 31 + b2n b.err * 2 ^ 30 + b2n b.poison * 2 ^ 29 + b2n b.abandon * 2 ^ 28 + b.pending * 2 ^ 16 + b.parts

def Bar.bytes (b : Bar) : List Byte := bytesOf 4 b.word0 ++ bytesOf 4 (wrap b.tx 32)

/-- An update of a barrier object (R22, R232). -/
inductive BarUpd where
  | init (n scope : Nat)
  | abandon
  /-- Sticky error, with no bytes. -/
  | error
  | credit (k : Nat) (poisoned err : Bool)
  | expect (b : Nat)
  /-- BARRX: the expected bytes are added, then the arrival is made, as one update. -/
  | expectArrive (b : Nat)
  | arrive
  | drop
  deriving DecidableEq, Repr

/-- Add expected bytes, saturating (R232). -/
def Bar.add (x : Bar) (b : Nat) : Bar :=
  if x.tx + b > 2 ^ 31 - 1 then { x with tx := 2 ^ 31 - 1, err := true } else { x with tx := x.tx + b }

def Bar.arrive (x : Bar) : Bar := if x.pending = 0 then { x with err := true } else { x with pending := x.pending - 1 }

/-- The completion rule at the end of an update (R232). -/
def Bar.finish (x : Bar) : Bar :=
  if x.pending = 0 && decide (x.tx ≤ 0) then
    { x with err := x.err || decide (x.tx < 0), phase := !x.phase, pending := x.parts, tx := 0 }
  else x

/-- apply(u) of R232. -/
def Bar.apply (x : Bar) : BarUpd → Bar
  | .init n _ => { phase := false, err := false, poison := false, abandon := false, pending := n, parts := n, tx := 0 }
  | .abandon => { x with abandon := true }
  | .error => { x with err := true }
  | .credit k p e => Bar.finish { x with tx := x.tx - k, poison := x.poison || p, err := x.err || e }
  | .expect b => (x.add b).finish
  | .expectArrive b => (x.add b).arrive.finish
  | .arrive => x.arrive.finish
  | .drop => Bar.finish (if x.pending = 0 || x.parts = 0 then { x with err := true } else { x with pending := x.pending - 1, parts := x.parts - 1 })

/-- The barrier object at an address of a home. -/
def State.barAt (s : State) (h : Home) (a : Nat) : Bar :=
  Bar.ofWords (natOf (s.readHome h a 4)) (natOf (s.readHome h (a + 4) 4))

/-- Apply an update at an object's home, indivisibly: the new state, PHASE before it, and whether the object is poisoned,
in which case it is unchanged (R220, R232). -/
def State.barUpdate (s : State) (h : Home) (a : Nat) (u : BarUpd) : State × Bool × Bool :=
  let s := s.recall h a 16
  if s.poisonAt h a 16 then (s, false, true)
  else
    let x := s.barAt h a
    let s := s.putHome h a (x.apply u).bytes
    let s := match u with
      | .init _ scope => s.updSpace h (fun m => { m with scopes := m.scopes.put a scope, credited := m.credited.rem a })
      | .credit _ _ _ => s.updSpace h (fun m => { m with credited := m.credited.ins a })
      | _ => s
    (s, x.phase, false)

/-- Declared scope of an object; with no BINIT seen, an undefined scope from 1 to 7 (R230). Of an object in another package, what a BINIT of
this package declared; where another package made the BINIT, the widest (log entry 160). -/
def State.barScope (s : State) (h : Home) (a : Nat) : Nat :=
  match h with
  | .remote p => s.farScopes.get 7 (p * 2 ^ 43 + a)
  | _ => match (s.space h).scopes.look a with
    | some k => k
    | none => 1 + (Config.freeWord s.free).toNat % 7

/-! ## When an access may be performed -/

/-- The access of a lane reaches a home of this kind at a scope that waits for acknowledgements (R249, R254): its own scope, or, for an
arrival, the scope declared for its object. -/
def State.releasesWide (s : State) (o : Op) (b : Acc) : Bool :=
  match b.home with
  | some (h, x) => s.wideAt o h (if o.kind.barrier then s.barScope h x else o.scope)
  | none => true

/-- The access of a thread that comes before in program order allows a later one of the same thread (R245, R249, R252, R255, R256): the
same bytes in order; an acquire complete; before a release every earlier access performed, and, where the release is at cluster scope or
wider, acknowledged, where a narrower one does not wait for the registration of a RED (R249); before a load of the total order the earlier
stores of that order. -/
def State.letsPass (s : State) (o : Op) (a : Acc) (later : Op) (b : Acc) : Bool :=
  let apart := match a.home, b.home with
    | some (h, x), some (k, y) => h != k || !overlaps x o.bytes y later.bytes
    | _, _ => !o.kind.touches
  (a.performed || apart)
    && (!o.acquires || a.phase == .done)
    && (!later.releases || o.kind.far || (if o.kind.acked && s.releasesWide later b then a.phase == .done
      else a.performed || (o.kind == .red && a.space == 0)))
    && (!(o.sc && later.sc) || a.performed)

/-- No older RED of the same core and team to the line of an access is still to be taken by L1: the access would miss what it adds
(R247, R249). -/
def State.redsTaken (s : State) (id : Nat) (o : Op) (b : Acc) : Bool :=
  b.space != 0 || s.ops.all (fun p => decide (id ≤ p.1) || p.2.kind != .red || p.2.tid != o.tid || p.2.core != o.core
    || p.2.lanes.all (fun a => a.performed || a.space != 0 || (match a.home, b.home with
        | some (h, x), some (k, y) => h != k || x / 128 != y / 128
        | _, _ => false)))

/-- Every earlier access of the same thread lets this one pass, and what the thread has acquired with queue entries is done (R109). -/
def State.clearAhead (s : State) (id : Nat) (o : Op) (b : Acc) : Bool :=
  s.redsTaken id o b &&
  s.ops.all (fun p => decide (id ≤ p.1) || p.2.tid != o.tid || p.2.lanes.all (fun a => a.thread != b.thread || s.letsPass p.2 a o b))
    && (o.fid.isNone || s.popsDone o.tid b.thread id)

/-- The lower lanes of an operation that touch the same bytes have been performed (R223). -/
def Op.lanesAhead (o : Op) (b : Acc) : Bool :=
  o.lanes.all (fun a => decide (b.lane ≤ a.lane) || a.performed || (match a.home, b.home with
      | some (h, x), some (k, y) => h != k || !overlaps x o.bytes y o.bytes
      | _, _ => false))

/-- A write that is checked against the tracking table (R348): its leaf, as the access was translated, has SNAP = 1. -/
def Op.snapTracks (o : Op) (a : Acc) : Bool :=
  (match o.kind with
    | .ld | .ldq | .prsq | .bwait | .btest | .waita | .rfold => false
    | _ => true)
    && (a.space == 4 || (a.space == 0 && a.snap))

/-- A write that must wait for a snapshot copy of its granule (R348), and one that is dropped because its granule cannot
be saved (R350). -/
def State.snapHolds (s : State) (o : Op) (a : Acc) : Bool :=
  match s.teams.look o.tid with
  | none => false
  | some t => o.snapTracks a && !(s.uncopied t.ctx (a.space == 4) a.addr o.bytes).isEmpty
def State.snapDrops (s : State) (o : Op) (a : Acc) : Bool :=
  match s.teams.look o.tid with
  | none => false
  | some t => o.snapTracks a && s.lostWrite t.ctx (a.space == 4) a.addr o.bytes

/-- The lane's home is on chip. -/
def Acc.onChip (a : Acc) : Bool := (a.home.map (·.1.onChip)).getD false

/-- A lane is ready at its home: no walk pending in the operation, no earlier access ahead, nothing held. -/
def State.canPerform (s : State) (id : Nat) (o : Op) (a : Acc) : Bool :=
  a.home.isSome && (match a.phase with
    | .ready | .absent => true
    | _ => false)
    && o.lanes.all (fun b => match b.phase with
      | .walk _ => false
      | _ => true)
    && s.clearAhead id o a && !s.snapHolds o a

/-! ## Mixed-size strong overlap -/

/-- Strong accesses of another size that a home has applied and not yet acknowledged. -/
def State.mixed (s : State) (id : Nat) (o : Op) (a : Acc) : List Clash :=
  match a.home with
  | some (h, x) => if o.strong then s.clashes (some id) h x o.bytes (fun b => b.phase == .applied) else []
  | none => []

/-- An imprecise trap of a team: its record, and its entry into the handler, or a kill (R81, R257). LEAD_TRAP_WARP.QUARTER and
LEAD_TRAP_CAUSE.INDEX, whose fields cannot hold the 0xFF of the record, read 3 and 0 (log entry 129). -/
def State.imprecise (s : State) (tid code addr : Nat) : State :=
  match s.teams.look tid with
  | none => s
  | some t =>
    let rec_ : LogRec :=
      { type := 1, severity := 2, code := code, engine := 10, vdie := t.vdie, core := t.core % 20,
        team := t.number, launch := s.identOf t, address := addr }
    let logged := s.ctxLog t.ctx rec_
    let s := logged.1.showRecord t logged.2
    if (s.ctx t.ctx).trapBase = 0 then s.killLaunch t.launch code
    else
      let tr : TrapRec := { code := code, kind := 1, addr := addr, elog := logged.2.getD 0, elogNone := logged.2.isNone, quarter := 3, homewarp := 0xFFFF }
      s.deliverTrap tid { tr with clock := s.clockOf t }

/-- The trap of R257 in a context whose MIXTRAP is 1: to the team of the second access (none for an engine, which may act for a context), else
of the first, else a record only. -/
def State.mixTrap (s : State) (second ctx : Option Nat) (h : Home) (x va : Nat) (l : List Clash) : State :=
  match l with
  | [] => s
  | c :: _ =>
    let va := if second.isSome || ctx.isSome then va + (c.lo - x) else c.addr
    let watched := fun (tid : Nat) => match s.teams.look tid with
      | some t => (s.ctx t.ctx).mixtrap
      | none => false
    let live := fun (tid : Nat) => match s.teams.look tid with
      | some t => t.place != .retired && (match s.launches.look t.launch with
        | some l => l.killing.isNone
        | none => true)
      | none => false
    if h.onChip then s
    else match (second.toList ++ c.tid.toList).filter watched with
      | [] => match (ctx.toList ++ c.ctx.toList).find? (fun k => (s.ctx k).mixtrap) with
        | some k => (s.ctxLog k { type := 1, severity := 2, code := 0x0B, engine := 10, address := va }).1
        | none => s
      | w :: _ => match (second.toList ++ c.tid.toList).find? (fun tid => watched tid && live tid) with
        | some tid => s.imprecise tid 0x0B (if some tid = c.tid then c.addr else va)
        | none => match s.teams.look w with
          | some t => (s.ctxLog t.ctx { type := 1, severity := 2, code := 0x0B, engine := 10, address := va }).1
          | none => s

/-- The bytes that two strong accesses in flight of different sizes share, where one of them touches a range (R257). -/
def State.contested (s : State) (h : Home) (x n : Nat) : List Clash :=
  s.ops.flatMap (fun q =>
    if !q.2.strong then []
    else q.2.lanes.flatMap (fun b => match b.home with
      | some (k, y) => if k = h && b.phase != .done && overlaps x n y q.2.bytes then s.clashes (some q.1) h y q.2.bytes (fun _ => true) else []
      | none => []))

/-- Bytes read at address x of a home, with shared ones undefined (R257). -/
def State.blurMixed (s : State) (l : List Clash) (x : Nat) (bs : List Byte) : State × List Byte :=
  if l.isEmpty then (s, bs)
  else (s.drawn, bs.zipIdx.map (fun p =>
    if l.any (fun c => decide (c.lo ≤ x + p.2) && decide (x + p.2 < c.hi)) then s.freeByte (x + p.2) else p.1))

/-- Loads that have read shared bytes and are still in flight return undefined values for them (R257). -/
def State.blurLoads (s : State) (l : List Clash) : State :=
  l.foldl (fun s c => match c.op with
    | none => s
    | some (id, lane) => match s.ops.look id with
      | some o => if o.kind.returns && !o.kind.barrier then
          s.drawn.updAcc id lane (fun a => match a.home with
            | some (_, y) => { a with result := natOf (s.blurMixed [c] y (bytesOf o.bytes a.result)).2 }
            | none => a)
        else s
      | none => s) s

/-- The traps that combined REDs are due for (R257): the home has found the overlap when it combined them, and its trap is imprecise. -/
def State.trapOverlaps (s : State) : State :=
  let l := s.ms.overlaps
  if l.isEmpty then s
  else l.foldl (fun s x => s.mixTrap (some x.1) none .glob x.2.1 (x.2.2.addr + x.2.1 - x.2.2.lo) [x.2.2]) (s.updMs (fun m => { m with overlaps := [] }))

/-- An engine, or a copy request or a tile fetch of a team, accesses n bytes of a home, which it reaches at a virtual address: strong accesses
of another size that share bytes with it meet R257; its lines are allocated as an EVICT value says (R311). -/
def State.mixEngine (s : State) (tid ctx : Option Nat) (h : Home) (x n va : Nat) (evict : Nat := 0) : State :=
  let l := s.clashes none h x n (fun b => b.phase == .applied)
  ((s.touchL2 h x n evict).mixTrap tid ctx h x va l).blurLoads l

/-- Bytes that an engine reads of a home, with those shared by a strong access in flight undefined (R257). -/
def State.mixRead (s : State) (h : Home) (x : Nat) (bs : List Byte) : State × List Byte :=
  s.blurMixed (s.clashes none h x bs.length (fun _ => true)) x bs

end Sys2Proof.Machine
end

