-- ==== Sys2Proof/Machine/Links.lean ====
section
/-! DEFINITION. The way of packets in the package network: links, escape routes and retry answers (R351 to R356). -/

namespace Sys2Proof.Machine

/-- The links of base die b: 1 to b XOR 1, 2 to b XOR 2, 3 to the Saddle; numbered 4 b + link. A ring link has two ends. -/
def linkEnds (k : Nat) : List Nat :=
  let b := k / 4
  if k % 4 = 3 then [k] else [k, 4 * Nat.xor b (k % 4) + k % 4]

/-- A link of a base die is up. -/
def MemSide.up (m : MemSide) (b link : Nat) : Bool := !m.down.has (4 * b + link)

/-- The links between two routers, base dies 0 to 3 and the Saddle as 4: adjacent base dies by their ring link, diagonal ones through
the Saddle (R351). -/
def linksBetween (b d : Nat) : List Nat :=
  if b = d then []
  else if b = 4 then [4 * d + 3]
  else if d = 4 then [4 * b + 3]
  else if Nat.xor b d = 3 then [4 * b + 3, 4 * d + 3]
  else [4 * b + Nat.xor b d]

/-- A packet bound for a failed link has an escape route (R353): ring traffic through the Saddle; Saddle traffic between diagonal
base dies over the ring through b XOR 1. -/
def MemSide.escape (m : MemSide) (k : Nat) (diagonal : Bool) : Bool :=
  let b := k / 4
  if k % 4 = 3 then diagonal && m.up b 1 && m.up (Nat.xor b 1) 2
  else m.up b 3 && m.up (Nat.xor b (k % 4)) 3

/-- The packets between two routers are bound for a diagonal (R353). -/
def diagonal (b d : Nat) : Bool := decide (b < 4) && decide (d < 4) && Nat.xor b d == 3

/-- A base die is cut off from the Saddle and from both its ring links (R467). -/
def MemSide.cutOff (m : MemSide) : Bool := (upFrom 0 4).any (fun b => !m.up b 1 && !m.up b 2 && !m.up b 3)

/-- A packet goes from one router to another (R353): the escape channel is counted, and a packet that has no route is answered with
retry. -/
def State.packet (s : State) (b d : Nat) : State × Bool :=
  match (linksBetween b d).filter s.ms.down.has with
  | [] => (s, true)
  | k :: rest =>
    let at_ := if b = 4 then d else b
    if (k :: rest).all (fun k => s.ms.escape k (diagonal b d)) then
      (s.updMs (fun m => { m with rerouted := m.rerouted.set 0 at_ (satNat (m.rerouted.get 0 at_ + 1) 0xFFFF) }), true)
    else (s.updMs (fun m => { m with retried := m.retried.set 0 at_ (satNat (m.retried.get 0 at_ + 1) 0xFFFF) }), false)

/-- The router at a home: its base die, or the Saddle for another package; none for memory on the compute die (R312, R344, R421). -/
def State.routerOf (s : State) (h : Home) (x : Nat) : Option Nat :=
  match h with
  | .glob => (s.homeSlice x).map (· / 64)
  | .chip k => some (k / 64)
  | .remote _ => some 4
  | _ => none

/-- Home and place of a physical address (R334 to R336). -/
def State.physPlace (s : State) (a : Nat) : Home × Nat :=
  if a / 2 ^ 43 = s.pkg then (.glob, s.loc (a % 2 ^ 43)) else (.remote (a / 2 ^ 43), a % 2 ^ 43)

/-! ## Accesses of cores -/

/-- A request gets a retry answer (R354): it is sent again after 1,024 core clocks. -/
def State.retryLane (s : State) (id lane : Nat) : State :=
  match s.ops.look id with
  | none => s
  | some o => s.updAcc id lane (fun a =>
      if a.phase == .ready || a.phase == .watching then
        { a with phase := .away, retries := a.retries + 1, poll := (s.core o.core).clock + 1024, monitor := false }
      else a)

/-- The router of a lane's home, where links lie between it and the core of the operation. -/
def State.routerFrom (s : State) (o : Op) (a : Acc) : Option Nat :=
  match a.home with
  | none => none
  | some (h, x) => match s.routerOf h x with
    | some d => if d = baseOf (dieOf o.core) then none else some d
    | none => none

/-- Packets go to each of some homes, and their answers come back (R351). -/
def State.roundTrip (s : State) (b : Nat) (homes : List Nat) : State × Bool :=
  homes.foldl (fun (r : State × Bool) d =>
    if !r.2 then r
    else
      let p := r.1.packet b d
      if p.2 then p.1.packet d b else p) (s, true)

/-- A lane's request goes to its home, once, or is answered with retry (R353, R354); a read that waits and a registration are answered at
once. A load that its core's L1 holds sends nothing. -/
def State.sendLane (s : State) (id : Nat) (o : Op) (a : Acc) : State × Bool :=
  match a.home with
  | none => (s, true)
  | some (h, x) =>
    if (s.l1Hit o h x).isSome && (o.kind == .ld || o.kind == .ldq) then (s, true)
    else match s.routerFrom o a with
      | none => (s, true)
      | some d =>
        let b := baseOf (dieOf o.core)
        if a.net = 1 then (s, true)
        else if o.kind == .red || ((o.kind == .bwait || o.kind == .waita) && d != 4) then
          let r := s.roundTrip b [d]
          if r.2 then r else (r.1.retryLane id a.lane, false)
        else
          let r := s.packet b d
          if r.2 then (r.1.updAcc id a.lane (fun a => { a with net := 1 }), true) else (r.1.retryLane id a.lane, false)

/-- The answers of an operation's lanes come from the routers of their homes (R351, R353): one that has no route is answered with retry, and
is looked for again after 1,024 clocks; after 64 such answers in a row the request fails (R354). The lanes that have failed. -/
def State.answerLanes (s : State) (id : Nat) (o : Op) : State × Bool × List Nat :=
  o.lanes.foldl (fun (r : State × Bool × List Nat) a =>
    if a.net != 1 || a.phase != .applied then r
    else match s.routerFrom o a with
      | none => r
      | some d =>
        if a.retries != 0 && decide ((s.core o.core).clock < a.poll) then (r.1, false, r.2.2)
        else
          let p := r.1.packet d (baseOf (dieOf o.core))
          if p.2 then (p.1.updAcc id a.lane (fun a => { a with net := 2, retries := 0, poll := 0 }), r.2)
          else if 64 ≤ a.retries + 1 then (p.1.updAcc id a.lane (fun a => { a with net := 2, retries := 0, poll := 0 }), r.2.1, a.lane :: r.2.2)
          else (p.1.updAcc id a.lane (fun a => { a with retries := a.retries + 1, poll := (s.core o.core).clock + 1024 }), false, r.2.2)) (s, true, [])

/-! ## Requests of other agents -/

/-- A requester that is no lane of a core's access, in the tables of retry answers: a copy request; a tile fetch; a walk; a port of the Saddle
or its Awl; the fetch of code of a core; the credits of a copy request; a host hart; the root port; the snapshot engine that serves a launch;
the credit of a host hart (R463); the scheduler for a context; the watch on a tile's entry (R398). -/
inductive Requester where
  | copy (id : Nat)
  | tile (op : Nat)
  | walk (req : Nat)
  | saddle (p : Nat)
  | fetch (core : Nat)
  | credit (id : Nat)
  | hart (n : Nat)
  | root
  | snap (lid : Nat)
  | hostCredit (n : Nat)
  | sched (ctx : Nat)
  | watch (tile : Nat)
  deriving DecidableEq, Repr

/-- The number of a requester. -/
def Requester.key : Requester → Nat
  | .copy n => 16 * n
  | .tile n => 16 * n + 1
  | .walk n => 16 * n + 2
  | .saddle n => 16 * n + 3
  | .fetch n => 16 * n + 4
  | .credit n => 16 * n + 5
  | .hart n => 16 * n + 6
  | .root => 7
  | .snap n => 16 * n + 8
  | .hostCredit n => 16 * n + 9
  | .sched n => 16 * n + 10
  | .watch n => 16 * n + 11

/-- What becomes of a request: it goes; it waits to be sent again; it fails after 64 retry answers in a row (R354). -/
inductive Sending where
  | go
  | wait
  | lost
  deriving DecidableEq, Repr

/-- The last packet for a requester arrived with its payload poisoned (R352). -/
def State.tainted (s : State) (q : Requester) : Bool := s.ms.tainted.has q.key

/-- A request of an agent goes from its router to those of its homes and is answered, at a time of the agent's own clock (R353, R354); one
whose poisoned copy the receiver has forwarded has gone (R352). -/
def State.request (s : State) (q : Requester) (b : Nat) (homes : List Nat) (clock : Nat) : State × Sending :=
  if s.tainted q then (s, .go)
  else match s.ms.retry.look q.key with
  | some (n, due) =>
    if clock < due then (s, .wait)
    else
      let r := s.roundTrip b homes
      if r.2 then (r.1.updMs (fun m => { m with retry := m.retry.del q.key }), .go)
      else if 64 ≤ n + 1 then (r.1.updMs (fun m => { m with retry := m.retry.del q.key }), .lost)
      else (r.1.updMs (fun m => { m with retry := m.retry.put q.key (n + 1, clock + 1024) }), .wait)
  | none =>
    let r := s.roundTrip b homes
    if r.2 then (r.1, .go) else (r.1.updMs (fun m => { m with retry := m.retry.put q.key (1, clock + 1024) }), .wait)

/-- The poisoned payload has been taken. -/
def State.untaint (s : State) (q : Requester) : State :=
  if s.tainted q then s.updMs (fun m => { m with tainted := m.tainted.rem q.key }) else s

/-- A poisoned payload is on its way to a requester. -/
def State.taint (s : State) (q : Requester) : State := s.updMs (fun m => { m with tainted := m.tainted.ins q.key })

/-! ## Reads of other packages by engines (R421) -/

/-- The parts of a read that lie in other packages: package, package-local address, bytes. -/
abbrev Far := List (Nat × Nat × Nat)

/-- A requester needs parts of other packages: each one that has not been asked for is asked for (R421). The answers, once all have come; those
of a package to which there is no way are poisoned at once (R422, R469). -/
def State.ask (s : State) (q : Requester) (l : Far) : State × Option (List (List Byte × Nat)) :=
  let mine := fun (p : Nat × Nat × Nat) (x : Ask) => x.who == q.key && x.pkg == p.1 && x.addr == p.2.1 && x.len == p.2.2
  let new := l.filter (fun p => !s.ms.asks.any (mine p))
  let found := l.filterMap (fun p => (s.ms.asks.find? (mine p)).bind (·.answer))
  if found.length = l.length then (s, some found)
  else if !(new.filter (fun p => !s.wayTo p.1)).isEmpty then (s, some (l.map (fun p => ((upFrom 0 p.2.2).map (fun _ => 0), 2 ^ ((p.2.2 + 31) / 32) - 1))))
  else ({ s.updMs (fun m => { m with asks := m.asks ++ new.map (fun p => { who := q.key, pkg := p.1, addr := p.2.1, len := p.2.2 }) }) with
    sent := s.sent ++ new.map (fun p => Sent.remoteRead p.1 p.2.1 p.2.2 q.key) }, none)

/-- A requester has taken the answers to some parts. -/
def State.unask (s : State) (q : Requester) (l : Far) : State :=
  s.updMs (fun m => { m with asks := m.asks.filter (fun x => x.who != q.key || !l.contains (x.pkg, x.addr, x.len)) })

/-- What a requester has asked for is no longer wanted. -/
def State.forget (s : State) (q : Requester) : State := s.updMs (fun m => { m with asks := m.asks.filter (fun x => x.who != q.key) })

/-- The answer to the n-th read of other packages comes (R421), or the network has lost it: its bytes are poisoned (R422). -/
def State.askAnswered (s : State) (n : Nat) (data : List Byte) (poison : Nat) : State :=
  s.updMs (fun m => { m with asks := m.asks.zipIdx.map (fun x =>
    if x.2 = n && x.1.answer.isNone then { x.1 with answer := some ((upFrom 0 x.1.len).map (fun i => data.getD i 0), poison) } else x.1) })

/-- The record of a request that fails (R354). -/
def State.lostRecord (s : State) (launch team : Nat) : State :=
  s.pkgLog { type := 4, severity := 3, engine := 10, code := 0x0A, launch := launch, team := team }

end Sys2Proof.Machine
end

