-- ==== Sys2Proof/Machine/Perform.lean ====
section
/-! DEFINITION. Performing accesses at their homes, and the steps that complete them (R26, R219, R220, R224 to R227, R233,
R236 to R239, R246, R314 to R318). -/

namespace Sys2Proof.Machine

/-- Set what a lane's access got. -/
def State.setAcc (s : State) (id lane : Nat) (ph : Phase) (value : Nat) (poisoned : Bool) : State :=
  s.updAcc id lane (fun a => { a with phase := ph, result := value, poisoned := poisoned, read := true })

/-- The write of a lane as an atomic at its home (R224 to R227): old value, or poison. Bytes that a strong access of another size shares are
undefined (R257). -/
def State.atomicAt (s : State) (o : Op) (h : Home) (x : Nat) (f : Nat → Option Nat) : State × Nat × Bool :=
  let n := 2 ^ o.size
  let s := (s.flushOwn h o.core x).recall h x n
  if s.poisonAt h x n then (s, 0, true)
  else
    let b := s.blurMixed (s.contested h x n) x (s.readHome h x n)
    let old := natOf b.2
    let s := b.1.afterRead h x n
    let s := match f old with
      | some v => s.writeHome h x (bytesOf n v)
      | none => s
    (if h = .glob then s.dropLine o.core x else s, old, false)

/-- The kind of delta of a RED (R314). -/
def Op.deltaKind (o : Op) : DeltaKind := { aop := o.aop, atype := o.atype, size := o.size, e := o.e }

/-- The contribution of a RED operand: the word, or its conversion to a slot (R141, R227). -/
def Op.redWord (o : Op) (d : Nat) : Nat :=
  if o.atype = 4 then
    let q := toX128 (f32.val d) (sext o.e 7)
    mkSlot q.1 q.2.1 q.2.2
  else d

/-- The update that a barrier instruction makes. -/
def Op.barUpd (o : Op) (d : Nat) : BarUpd :=
  match o.kind with
  | .binit => .init (d % 4096) o.scope
  | .barr => .arrive
  | .barrx => .expectArrive d
  | .bexp => .expect d
  | _ => .drop

/-- The status of a barrier object for a token (R233), and whether a BWAIT completes. -/
def Bar.status (x : Bar) (token : Nat) : Nat × Bool :=
  let done := x.phase != (token % 2 == 1)
  (b2n x.err * 4 + b2n x.poison * 8 + b2n x.abandon * 16, done || x.err || x.abandon)

/-- The condition of WAITA (R236). -/
def Op.condMet (o : Op) (v comparand : Nat) : Bool := if o.evict = 0 then v == comparand else v != comparand

/-- Whether a core has a line monitor free for a line (R237): it watches fewer than 64 lines, or this one already. -/
def State.monitorFree (s : State) (core : Nat) (h : Home) (x : Nat) : Bool :=
  let lines := s.ops.foldl (fun (acc : List (Home × Nat)) p =>
    if p.2.core != core then acc else p.2.lanes.foldl (fun acc a => match a.home with
      | some (k, y) => if a.monitor && a.phase == .watching && !acc.contains (k, y / 128) then (k, y / 128) :: acc else acc
      | none => acc) acc) []
  lines.contains (h, x / 128) || decide (lines.length < 64)

/-- A waiting lane's read at its home: the value or status, whether its wait ends, and poison. -/
def State.waitRead (s : State) (o : Op) (a : Acc) (h : Home) (x : Nat) : State × Nat × Bool × Bool :=
  if o.kind == .waita then
    let n := 2 ^ o.size
    let s := s.recall h x n
    let b := s.blurMixed (s.contested h x n) x (s.readHome h x n)
    let v := natOf b.2
    let poisoned := s.poisonAt h x n
    let s := if h = .glob then b.1.dropLine o.core x else b.1
    (s.afterRead h x n, v, o.condMet v a.data, poisoned)
  else
    let s := s.recall h x 16
    let r := (s.barAt h x).status a.data
    (s, r.1, r.2, s.poisonAt h x 16)

/-- The register that a completed lane writes: DATA, in the operation's size. -/
def State.giveReg (s : State) (id : Nat) (o : Op) (th v : Nat) : State := s.land o.tid id th false (o.writesOf v)

/-- The end of a parked operation when each of its lanes is done: it leaves its counter and its party goes on. -/
def State.closeWait (s : State) (id : Nat) : State :=
  match s.ops.look id with
  | none => s
  | some o => if o.lanes.all (fun a => a.phase == .done) then (s.unpark id).endOp id else s

/-- Poison reached a consumer (R30, R220): the operation ends and its launch is killed. -/
def State.poisonOp (s : State) (id : Nat) : State :=
  match s.ops.look id with
  | none => s
  | some o => match s.teams.look o.tid with
    | none => s.endOp id
    | some t => (s.endOp id).killLaunch t.launch 0x0A

/-- The scope of an acquire that a lane makes: that of its instruction, or, at a barrier object, the one declared for it (R230, R233,
R249). -/
def State.acquireScope (s : State) (o : Op) (h : Home) (x : Nat) : Nat := if o.kind.barrier then s.barScope h x else o.scope

/-- The completing access of a lane is an acquire that drops L1 lines (R243, R254, R255). What an engine credited to a barrier object counts
for every waiter (R259): it acquires from outside the core whatever the object's scope. -/
def State.acquiresWide (s : State) (o : Op) (a : Acc) : Bool :=
  o.acquires && (match a.home with
    | some (h, x) => s.wideAt o h (s.acquireScope o h x) || (o.kind.barrier && (s.space h).credited.has x)
    | none => false)

/-- The wait of a lane ends with a value: it is written, and an acquire takes effect (R233, R236, R255). -/
def State.endLane (s : State) (id lane : Nat) (o : Op) (a : Acc) (v : Nat) : State :=
  let acquire := s.acquiresWide o a
  let s := s.giveReg id o a.thread v
  let s := if acquire then s.dropL1 o.core else s
  (s.updAcc id lane (fun a => { a with phase := .done, result := v, monitor := false })).closeWait id

/-- Send a lane's access to its home in another package (R421); a BINIT declares the scope of its object there (R230). One for a package to which
there is no way stays out, to be lost (R422, R469). -/
def State.sendRemote (s : State) (pkg id lane : Nat) : State :=
  let declares : List (Nat × Nat) := match s.ops.look id with
    | some o => if o.kind == .binit then (o.lanes.filter (fun a => a.lane == lane)).filterMap (fun a => a.home.map (fun h => (pkg * 2 ^ 43 + h.2, o.scope))) else []
    | none => []
  ({ s with
      sent := if s.wayTo pkg then s.sent ++ [Sent.remoteOp pkg id lane] else s.sent
      farScopes := declares.foldl (fun (m : Tab Nat) d => m.put d.1 d.2) s.farScopes } : State).updAcc id lane
    (fun a => { a with phase := .away, retries := if s.wayTo pkg then 0 else 64 })

/-- Read for a waiting lane (R233, R236, R237): it ends, or it watches its line; a failed re-read is counted. -/
def State.pollLane (s : State) (id lane : Nat) (again : Bool) : State :=
  match s.ops.look id with
  | none => s
  | some o => match o.lanes.find? (fun a => a.lane == lane) with
    | none => s
    | some a => match a.home with
      | none => s
      | some (.remote pkg, _) => s.sendRemote pkg id lane
      | some (h, x) =>
        let r := s.waitRead o a h x
        let s := r.1
        if r.2.2.2 then s.poisonOp id
        else if r.2.2.1 then
          s.endLane id lane o a r.2.1
        else
          let s := if again && o.kind == .waita then s.updCore o.core (fun c => { c with reread := satNat (c.reread + 1) 0xFFFF }) else s
          let clock := (s.core o.core).clock
          if again && (a.monitor || a.poll != 0) then
            s.updAcc id lane (fun a => { a with result := r.2.1, read := true, seen := false, retries := 0, net := 0, poll := if a.monitor then 0 else clock + 256 })
          else if s.monitorFree o.core h x then
            s.updAcc id lane (fun a => { a with phase := .watching, result := r.2.1, read := true, seen := false, retries := 0, monitor := true })
          else
            (s.updCore o.core (fun c => { c with polled := satNat (c.polled + 1) 0xFFFF })).updAcc id lane
              (fun a => { a with phase := .watching, result := r.2.1, read := true, seen := false, retries := 0, poll := clock + 256 })

/-- The bytes of a weak access that are performed now, by their place in it: all that are left, or those of a mask (R244). -/
def Op.bytesNow (o : Op) (a : Acc) (mask : Nat) : List Nat :=
  let left := (upFrom 0 o.bytes).filter (fun i => !bit a.part i)
  let now := left.filter (fun i => bit mask i)
  if o.strong || now.isEmpty then left else now

/-- A weak access has performed some of its bytes: it stands performed when it has performed all of them (R244). -/
def State.setPart (s : State) (id : Nat) (o : Op) (a : Acc) (now : List Nat) (value : Nat) (poisoned : Bool) : State :=
  let part := Nat.lor a.part (maskOf now)
  let value := natOf ((upFrom 0 o.bytes).map (fun i => BitVec.ofNat 8 ((if now.contains i then value else a.result) / 256 ^ i)))
  s.updAcc id a.lane (fun c => { c with
    phase := if part + 1 = 2 ^ o.bytes then .applied else c.phase, part := part, result := value, poisoned := c.poisoned || poisoned, read := true })

/-- The lanes of a store that are performed clear the poison of a sector that they write whole together, at the home and in the L1 line of
their core (R30, R220). -/
def State.clearCovered (s : State) (id : Nat) (h : Home) (x : Nat) : State :=
  match s.ops.look id with
  | none => s
  | some o =>
    let wrote := fun (b : Nat) => o.lanes.any (fun a => a.home == some (h, a.home.elim 0 (·.2)) && a.phase == .applied && !a.poisoned
      && decide (a.home.elim 0 (·.2) ≤ b) && decide (b < a.home.elim 0 (·.2) + o.bytes))
    let whole := (upFrom (x / 32) ((x + o.bytes + 31) / 32 - x / 32)).filter (fun k => (upFrom (32 * k) 32).all wrote)
    let s := s.updSpace h (fun m => { m with poison := whole.foldl NatSet.rem m.poison })
    if h != .glob then s
    else whole.foldl (fun s k => s.updCore o.core (fun c => { c with l1 := c.l1.upd (k / 4) (fun l => { l with poison := l.poison.rem (k % 4) }) })) s

/-- Perform one lane's access at its home (R246): all of it, or, of a weak access, the bytes of a mask (R244). A request whose payload
arrived poisoned carries the poison (R29, R352). -/
def State.performLane (s : State) (id lane mask : Nat) : State :=
  match s.ops.look id with
  | none => s
  | some o => match o.lanes.find? (fun a => a.lane == lane) with
    | none => s
    | some a => match a.home with
      | none => s
      | some (h, x) =>
        let mix := s.mixed id o a
        let s := ((s.mixTrap (some o.tid) none h x a.addr mix).blurLoads mix).through a.prot
        let s := if o.kind == .ld || o.kind == .ldq then s else s.touchL2 h x o.bytes (evictOf o.evict a.cache)
        let now := o.bytesNow a mask
        State.through (if s.snapDrops o a then s.drawn.setAcc id lane .applied ((Config.freeWord s.free).toNat % 2 ^ (8 * o.bytes)) false
        else match o.kind with
        | .ld | .ldq =>
          let r := s.readFor o a h x o.bytes
          let b := r.1.blurMixed (s.contested h x o.bytes) x r.2.1
          b.1.setPart id o a now (natOf b.2) r.2.2
        | .prsq =>
          let m := s.space h
          s.setAcc id lane .applied (b2n (!m.absent.has (x / 128))
            + (upFrom 0 4).foldl (fun v i => v + b2n (m.poison.has (x / 128 * 4 + i)) * 2 ^ (1 + i)) 0) false
        | .st | .stq =>
          let s := if now.length = o.bytes then s.writeFor o a h x (bytesOf o.bytes a.data)
            else now.foldl (fun s i => s.writeFor o a h (x + i) [BitVec.ofNat 8 (a.data / 256 ^ i)]) s
          let s := (if a.poisoned then s.updSpace h (fun m => m.markPoison x o.bytes) else s).setPart id o a now 0 false
          s.clearCovered id h x
        | .atom =>
          if a.poisoned then s.setAcc id lane .applied 0 true else
          let r := s.atomicAt o h x (fun old => some (atomNew o.aop (o.atype == 1) (8 * o.bytes) old a.data))
          r.1.setAcc id lane .applied r.2.1 r.2.2
        | .acas =>
          if a.poisoned then s.setAcc id lane .applied 0 true else
          let r := s.atomicAt o h x (fun old => if old = a.data then some a.data2 else none)
          r.1.setAcc id lane .applied r.2.1 r.2.2
        | .red =>
          let r := s.atomicAt o h x (fun old => some (o.deltaKind.combine old (o.redWord a.data)))
          (if a.poisoned then r.1.updSpace h (fun m => m.markPoison x o.bytes) else r.1).setAcc id lane .applied 0 false
        | .binit | .barr | .barrx | .bexp | .bdrop =>
          if a.poisoned then s.setAcc id lane .applied 0 true else
          let s := s.flushOwn h o.core x
          let r := s.barUpdate h x (o.barUpd a.data)
          (if h = .glob then r.1.dropLine o.core x else r.1).setAcc id lane .applied (b2n r.2.1) r.2.2
        | .btest =>
          let s := (s.flushOwn h o.core x).recall h x 16
          let b := s.barAt h x
          s.setAcc id lane .applied ((b.status a.data).1 + b2n (b.phase == (a.data % 2 == 1))) (s.poisonAt h x 16)
        | .bwait | .waita => (s.flushOwn h o.core x).pollLane id lane a.read
        | _ => s) none

/-- A lane on chip of an operation has been performed: the rest of it follows, whatever their lines (R219). -/
def Op.begun (o : Op) : Bool := o.lanes.any (fun a => a.onChip && a.performed)

/-- A lane on chip of an arriving operation (R219): if a line that the instruction touches is absent, none of its lanes is performed, and
its party parks; else the lane is performed. -/
def State.performOnChip (s : State) (id : Nat) (o : Op) (a : Acc) (mask : Nat) : State :=
  let gone := if o.begun then [] else o.lanes.filter (fun a => a.onChip && s.absentFor o a)
  if !gone.isEmpty then (gone.foldl (fun s a => s.updAcc id a.lane (fun a => { a with phase := .absent })) s).parkOp id
  else if s.canPerform id o a && o.lanesAhead a then s.performLane id a.lane mask
  else s

/-- A lane on chip of an operation, as it stands now, is performed (R219). -/
def State.performRest (s : State) (id lane : Nat) : State :=
  match s.ops.look id with
  | none => s
  | some o => match o.lanes.find? (fun a => a.lane == lane) with
    | none => s
    | some a => s.performOnChip id o a 0

/-- Accesses on chip that have begun are performed whole before a presence bit changes (R219). -/
def State.finishBegun (s : State) : State :=
  s.ops.foldl (fun s p =>
    if p.2.begun then (p.2.lanes.filter (fun a => a.onChip && (a.phase == .ready || a.phase == .absent))).foldl (fun s a => s.performLane p.1 a.lane 0) s
    else s) s

/-- A party that was parked on lines that are present again goes on once its operation has been performed (R219). -/
def State.unparkPresent (s : State) (id : Nat) : State :=
  match s.ops.look id with
  | some o =>
    if o.kind == .bwait || o.kind == .waita || o.parks || o.lanes.any (fun a => a.phase == .absent) || !o.lanes.all (fun a => !a.onChip || a.performed) then s
    else s.unpark id
  | none => s

/-- Operations that a home applies in one step of HOME_ACCESS_APPLY; barrier updates and update-only REDs have steps of
their own. -/
def OpKind.byAccess : OpKind → Bool
  | .ld | .ldq | .prsq | .st | .stq | .atom | .acas | .red | .btest | .bwait | .waita => true
  | _ => false

/-- Barrier updates (R232). -/
def OpKind.byBarrier : OpKind → Bool
  | .binit | .barr | .barrx | .bexp | .bdrop => true
  | _ => false

/-- A RED to global memory is first taken by its core's L1 (R227, R314). -/
def Op.updateOnly (o : Op) (a : Acc) : Bool := o.kind == .red && a.space == 0

/-- A RED with nothing to return ends when its home has applied it (R26). -/
def State.closeRed (s : State) (id : Nat) : State :=
  match s.ops.look id with
  | none => s
  | some o => if o.kind == .red && o.lanes.all (fun a => a.phase == .done || (a.phase == .applied && a.space != 0)) then s.endOp id else s

/-- An arriving access is applied at its home (R219, R246). -/
def State.arrive (s : State) (id lane mask : Nat) (kinds : OpKind → Bool) : State :=
  match s.liveOp id with
  | none => s
  | some o => match o.lanes.find? (fun a => a.lane == lane) with
    | none => s
    | some a =>
      if !kinds o.kind || a.alias_ != 0 then s
      else if a.onChip then ((s.performOnChip id o a mask).unparkPresent id).closeRed id
      else if !s.canPerform id o a || !o.lanesAhead a || !o.lanes.all (fun b => !b.onChip || b.performed) then s
      else match a.home with
        | some (.remote pkg, _) =>
          let g := s.sendLane id o a
          if a.phase == .ready && g.2 then g.1.sendRemote pkg id lane else g.1
        | _ =>
          if o.updateOnly a then s
          else
            let g := s.sendLane id o a
            if g.2 then (g.1.performLane id lane mask).closeRed id else g.1

/-- HOME_ACCESS_APPLY: lane b of operation a; c is the mask of the bytes that a weak access performs now, 0 for all (R244). -/
def execHomeAccessApply (s : State) : Host.Outcome State Fault Refusal := .next (s.arrive s.arg.a s.arg.b s.arg.c OpKind.byAccess)
def execBarrierUpdateApply (s : State) : Host.Outcome State Fault Refusal := .next (s.arrive s.arg.a s.arg.b 0 OpKind.byBarrier)

/-- The lanes of an operation that wait with one of it that was parked on an absent line (R219). -/
def Op.heldLanes (o : Op) : List Nat := (o.lanes.filter (fun a => a.onChip && (a.phase == .ready || a.phase == .absent))).map (·.lane)

/-- PRESENCE_PARK_RELEASE: the lines of a parked operation are present again; the whole instruction is performed, or one lane of it where
its lanes are ordered with other accesses of the clock (R223), and a party parked for it alone goes on with the last (R219). -/
def State.presenceRelease (s : State) (id : Nat) (lane : Option Nat) : State :=
  match s.liveOp id with
  | none => s
  | some o =>
    if o.lanes.any (fun a => a.phase == .absent) && o.lanes.all (fun a => !a.onChip || !s.absentFor o a) then
      let s := (o.heldLanes.filter (fun l => lane.all (· == l))).foldl (fun s l => s.performRest id l) s
      (if ((s.ops.look id).map (fun o => o.lanes.any (fun a => a.phase == .absent))).getD false then s else s.unparkPresent id).closeRed id
    else s

def execPresenceParkRelease (s : State) : Host.Outcome State Fault Refusal := .next (s.presenceRelease s.arg.a s.arg.opt)

/-! ## Completion -/

/-- The answers of an operation's lanes have come (R351). Where one is lost, a read returns poisoned bytes; a store or an atomic kills its
launch (R354). -/
def State.answersIn (s : State) (id : Nat) (o : Op) : State × Bool :=
  let r := s.answerLanes id o
  if r.2.2.isEmpty then (r.1, r.2.1)
  else match s.teams.look o.tid with
    | none => (r.1, r.2.1)
    | some t =>
      let s := r.1.lostRecord (s.identOf t) t.number
      if o.kind.returns && !o.kind.barrier && o.kind != .atom && o.kind != .acas then
        (r.2.2.foldl (fun s l => s.updAcc id l (fun a => { a with poisoned := true })) s, r.2.1)
      else (s.killLaunch t.launch 0x0A, false)

/-- The end of an operation whose lanes have been performed: poison is consumed, or the results are written, the acquire
takes effect, the operation leaves its counter, and a parked party goes on (R26, R220, R255). -/
def State.completeOp (s : State) (id : Nat) (kinds : OpKind → Bool) : State :=
  match s.liveOp id with
  | none => s
  | some o =>
    let r := s.answersIn id o
    let lost := o.lanes.any (fun a => a.poisoned) || ((r.1.ops.look id).map (fun o => o.lanes.any (fun a => a.poisoned))).getD false
    if !kinds o.kind || !o.allPerformed then s
    else if !r.2 then r.1
    else if lost then r.1.poisonOp id
    else
      let s := r.1
      let drop := o.lanes.any (fun a => s.acquiresWide o a && (o.kind != .btest || a.result % 2 == 0))
      let s := if o.kind.returns then o.lanes.foldl (fun s a => s.giveReg id o a.thread a.result) s else s
      let s := if drop then s.dropL1 o.core else s
      (s.unpark id).endOp id

/-- LOAD_COMPLETE: loads, PRSQ and BTEST (R26). -/
def execLoadComplete (s : State) : Host.Outcome State Fault Refusal :=
  .next (s.completeOp s.arg.a (fun k => k == .ld || k == .ldq || k == .prsq || k == .btest))
/-- ATOMIC_COMPLETE: ATOM, ACAS and the counted barrier updates (R26, R224). -/
def execAtomicComplete (s : State) : Host.Outcome State Fault Refusal :=
  .next (s.completeOp s.arg.a (fun k => k == .atom || k == .acas || k == .barr || k == .barrx || k == .bexp || k == .bdrop))

/-- STORE_ACK: the home acknowledges a store, a BINIT, or a RED that it applied (R26, R255, R318). Only a BINIT consumes poison (R30). -/
def State.storeAck (s : State) (id : Nat) : State :=
  match s.liveOp id with
  | none => s
  | some o =>
    let r := s.answersIn id o
    if !o.kind.acked || !o.lanes.all (fun a => a.phase == .applied || a.phase == .done) then s
    else if !r.2 then r.1
    else if o.kind == .binit && o.lanes.any (fun a => a.poisoned) then r.1.poisonOp id
    else (r.1.unpark id).endOp id

def execStoreAck (s : State) : Host.Outcome State Fault Refusal := .next (s.storeAck s.arg.a)

/-! ## Waits -/

/-- A lane that watches its line. -/
def State.watcher (s : State) (id lane : Nat) (kind : OpKind) (p : Acc → Bool) : Bool :=
  match s.liveOp id with
  | none => false
  | some o => o.kind == kind && o.lanes.any (fun a => a.lane == lane && a.phase == .watching && p a)

/-- A waiting lane reads again, over the package network (R237, R354); an absent line parks it (R219). -/
def State.reread (s : State) (id lane : Nat) : State :=
  match s.ops.look id with
  | none => s
  | some o => match o.lanes.find? (fun a => a.lane == lane) with
    | none => s
    | some a =>
      if s.absentFor o a then s.updAcc id lane (fun a => { a with phase := .absent, monitor := false, seen := false })
      else
        let g := s.sendLane id o a
        if g.2 then g.1.pollLane id lane true else g.1

/-- BWAIT_WAKE: the monitor of a BWAIT lane has seen a write (R233, R237). -/
def execBwaitWake (s : State) : Host.Outcome State Fault Refusal :=
  .next (if s.watcher s.arg.a s.arg.b .bwait (fun a => a.monitor && a.seen) then s.reread s.arg.a s.arg.b else s)
/-- WAITA_MONITOR_WAKE (R237). -/
def execWaitaMonitorWake (s : State) : Host.Outcome State Fault Refusal :=
  .next (if s.watcher s.arg.a s.arg.b .waita (fun a => a.monitor && a.seen) then s.reread s.arg.a s.arg.b else s)
/-- WAITA_POLL_REREAD: a lane without a monitor reads again when its 256 clocks are over (R237). -/
def execWaitaPollReread (s : State) : Host.Outcome State Fault Refusal :=
  let due := fun (a : Acc) => !a.monitor && (match s.ops.look s.arg.a with
    | some o => decide (a.poll ≤ (s.core o.core).clock)
    | none => false)
  .next (if s.watcher s.arg.a s.arg.b .waita due || s.watcher s.arg.a s.arg.b .bwait due then s.reread s.arg.a s.arg.b else s)

/-- A timer ends the wait of every lane of an operation (R127, R128, R233, R236): BWAIT with TIMEOUT and what the last status that
returned held, WAITA with the last value that returned, if any. -/
def State.timeoutOp (s : State) (id : Nat) : State :=
  match s.ops.look id with
  | none => s
  | some o =>
    let s := o.lanes.foldl (fun s a =>
      if a.phase == .done then s
      else
        let s := if o.kind == .bwait then s.giveReg id o a.thread (2 + (if a.read then a.result / 4 * 4 else 0)) else if a.read then s.giveReg id o a.thread a.result else s
        s.updAcc id a.lane (fun a => { a with phase := .done, monitor := false })) s
    s.closeWait id

/-- Whether every earlier access of an operation's agents has got so far (R238, R123, R269): stores and REDs acknowledged; where loads and
atomics are to be complete, REDs too, which are atomics (R224); loads and
atomics performed, which a release orders too (R250), or complete; and what the agents acquired with queue entries is done (R109). -/
def State.earlierDone (s : State) (id : Nat) (stores performed complete : Bool) : Bool :=
  match s.ops.look id with
  | none => false
  | some o => s.ops.all (fun p => decide (id ≤ p.1) || p.2.tid != o.tid || p.2.kind.far || !p.2.kind.touches
      || p.2.lanes.all (fun a => !o.lanes.any (fun b => b.thread == a.thread)
        || a.phase == .done || (if p.2.kind.acked then !(stores || (complete && p.2.kind == .red)) || (p.2.kind == .red && a.phase == .applied && a.space != 0)
          else (!performed || a.performed) && !complete && !p.2.acquires)))
      && (o.fid.isNone || o.lanes.all (fun a => s.popsDone o.tid a.thread id))

/-- FENCE_COMPLETE: a release part waits for earlier stores and REDs, an acquire part for earlier loads and atomics to complete, and
then drops the core's L1 lines at cluster scope or wider (R238). -/
def State.fenceDone (s : State) (id : Nat) : State :=
  match s.liveOp id with
  | none => s
  | some o =>
    let acq := o.ord == 1 || o.ord == 3
    let rel := o.ord == 2 || o.ord == 3
    if o.kind == .fence && s.earlierDone id rel rel acq then
      let s := if acq && s.wide o o.scope then s.dropL1 o.core else s
      (s.unpark id).endOp id
    else s

def execFenceComplete (s : State) : Host.Outcome State Fault Refusal := .next (s.fenceDone s.arg.a)

/-- CCTL_COMPLETE: the operation takes effect and leaves oc1 (R239). `data` is its code. .IINV waits for the stores before it, which later
fetches are to observe. A line whose address no longer translates cannot be
told from others, and every line is dropped (log entry 132). -/
def State.cctlDone (s : State) (id : Nat) : State :=
  match s.liveOp id with
  | none => s
  | some o =>
    if o.kind != .cctl || (o.data = 0 && !s.earlierDone id true false false) then s
    else
      let c := ((s.teams.look o.tid).map (·.ctx)).getD 0
      let s : State := match o.data with
        | 0 => s.updCore o.core (fun k => { k with icache := [], ipoison := [] })
        | 1 => s.dropL1 o.core
        | 2 => o.lanes.foldl (fun s a =>
            let leaf := match s.held o.core c a.addr with
              | some l => some l
              | none => match s.walk c a.addr with
                | .ok l => some l
                | _ => none
            match leaf with
            | some l => s.dropLine o.core (s.place l a.addr).2
            | none => s.dropL1 o.core) s
        | _ => s.unkeepTeam o.tid
      s.endOp id

def execCctlComplete (s : State) : Host.Outcome State Fault Refusal := .next (s.cctlDone s.arg.a)

/-! ## Update-only lines -/

/-- The core combines a RED into its delta line (R314). -/
def State.combineDelta (s : State) (core line : Nat) (o : Op) (a : Acc) (x : Nat) : State :=
  let k := o.deltaKind
  s.updCore core (fun c =>
    let dl := c.deltas.get { kind := k, words := [] } line
    { c with l1 := c.l1.del line
             deltas := c.deltas.put line { dl with mode := a.prot, tid := if dl.words.isEmpty then o.tid else dl.tid, words := dl.words.put (x % 128) (k.combine (dl.words.get k.ident (x % 128)) (o.redWord a.data)) } })

/-- The core's L1 takes a RED into a delta line, or the home applies it (R314, R315, R318). -/
def State.registerAt (s : State) (id lane : Nat) (o : Op) (a : Acc) (x : Nat) : State :=
  if s.snapDrops o a then (s.setAcc id lane .done 0 false).closeRed id
  else
    let line := x / 128
    let k := o.deltaKind
    let other := fun (c : Nat) => match (s.core c).deltas.look line with
      | some d => d.kind != k
      | none => false
    if other o.core then (s.recallOne line o.core).performLane id lane 0
    else
      let s := if (s.ms.holders.get [] line).any other then s.recallLine line else s
      let holders := s.ms.holders.get [] line
      if holders.contains o.core then ((s.combineDelta o.core line o a x).setAcc id lane .done 0 false).closeRed id
      else if 16 ≤ holders.length then s.performLane id lane 0
      else
        let s := s.updMs (fun m => { m with holders := m.holders.put line (m.holders.get [] line ++ [o.core]) })
        ((s.combineDelta o.core line o a x).setAcc id lane .done 0 false).closeRed id

/-- UPDATE_ONLY_REGISTRATION (R314, R315, R318): the core's L1 takes a RED into a delta line; the first one registers the
core at the home, which first recalls a line of another kind; a full holder set of 16 cores refuses, and the home then
applies the RED as an atomic. A RED of another kind than the core's own delta line flushes that line and proceeds at the home. -/
def State.register (s : State) (id lane : Nat) : State :=
  match s.liveOp id with
  | none => s
  | some o => match o.lanes.find? (fun a => a.lane == lane) with
    | none => s
    | some a => match a.home with
      | some (.glob, x) =>
        let g := s.sendLane id o a
        let mine := (s.ms.holders.get [] (x / 128)).contains o.core
        if !o.updateOnly a || !s.canPerform id o a || !o.lanesAhead a then s
        else if !mine && !g.2 then g.1
        else (if mine then s else g.1).registerAt id lane o a x
      | _ => s

def execUpdateOnlyRegistration (s : State) : Host.Outcome State Fault Refusal := .next (s.register s.arg.a s.arg.b)

/-- UPDATE_ONLY_RECALL: the home recalls and combines every holder of a line, as before an eviction (R316, R317). -/
def execUpdateOnlyRecall (s : State) : Host.Outcome State Fault Refusal := .next (s.recallLine s.arg.a)

end Sys2Proof.Machine
end

