-- ==== Sys2Proof/Machine/SadTree.lean ====
section
/-! DEFINITION. The fixed tree of a collective (R401, R403), the values of its nodes (R402), and the payloads that carry
them (R420). -/

namespace Sys2Proof.Machine

/-! ## Shape -/

/-- The largest power of two less than n, for n from 2 to 512 (R401). -/
def powBelow (n : Nat) : Nat := ([256, 128, 64, 32, 16, 8, 4, 2, 1].find? (fun p => decide (p < n))).getD 1

/-- The split point of a node with at least two leaves (R401). -/
def splitOf (a b : Nat) : Nat := a + powBelow (b - a)

/-- Levels of a tree of at most 512 leaves, with room. -/
def treeFuel : Nat := 12

/-- Height of a node (R401). -/
def heightOf : Nat → Nat → Nat → Nat
  | 0, _, _ => 0
  | n + 1, a, b => if b ≤ a + 1 then 0 else max (heightOf n a (splitOf a b)) (heightOf n (splitOf a b) b) + 1

/-- Parent of a node, searched from [a, b) down. -/
def parentFrom : Nat → Nat → Nat → Nat → Nat → Nat × Nat
  | 0, a, b, _, _ => (a, b)
  | n + 1, a, b, lo, hi =>
    let m := splitOf a b
    if (lo = a && hi = m) || (lo = m && hi = b) then (a, b)
    else if lo < m then parentFrom n a m lo hi else parentFrom n m b lo hi

/-- Parent of a node that is not the root of a tree of c leaves. -/
def parentOf (c lo hi : Nat) : Nat × Nat := parentFrom treeFuel 0 c lo hi

/-- Sibling of a node under its parent. -/
def siblingOf (p : Nat × Nat) (lo hi : Nat) : Nat × Nat :=
  let m := splitOf p.1 p.2
  if lo = p.1 && hi = m then (m, p.2) else (p.1, m)

/-- The range is a node of the tree below [a, b). -/
def isNode : Nat → Nat → Nat → Nat → Nat → Bool
  | 0, _, _, _, _ => false
  | n + 1, a, b, lo, hi =>
    if lo = a && hi = b then true
    else if b ≤ a + 1 then false
    else if lo < splitOf a b then isNode n a (splitOf a b) lo hi else isNode n (splitOf a b) b lo hi

/-- Effective site of an internal node [lo, hi), descending from [a, b), whose own effective site is `up` (R403). -/
def esiteFrom (trusted : Nat → Bool) (sites : List Nat) : Nat → Nat → Nat → Nat → Nat → Nat → Nat
  | 0, _, _, _, _, up => up
  | n + 1, a, b, lo, hi, up =>
    let site := sites.getD (splitOf a b) 0
    let here := if trusted site then site else up
    if lo = a && hi = b then here
    else if lo < splitOf a b then esiteFrom trusted sites n a (splitOf a b) lo hi here
    else esiteFrom trusted sites n (splitOf a b) b lo hi here

/-- ESITE of an internal node; of a lone leaf, which is the root, PKG(0) (R403). -/
def TileEntry.esite (e : TileEntry) (trusted : Nat → Bool) (lo hi : Nat) : Nat :=
  if e.ncontrib ≤ 1 then e.pkgs.getD 0 0
  else esiteFrom trusted e.sites treeFuel 0 e.ncontrib lo hi (e.pkgs.getD 0 0)

/-- Where a node goes: the effective site of its parent, or for a root leaf PKG(0). -/
def TileEntry.destOf (e : TileEntry) (trusted : Nat → Bool) (lo hi : Nat) : Nat :=
  if lo = 0 && hi = e.ncontrib then e.pkgs.getD 0 0
  else let p := parentOf e.ncontrib lo hi; e.esite trusted p.1 p.2

/-- The internal nodes below [a, b). -/
def innerNodes : Nat → Nat → Nat → List (Nat × Nat)
  | 0, _, _ => []
  | n + 1, a, b => if b ≤ a + 1 then [] else (a, b) :: (innerNodes n a (splitOf a b) ++ innerNodes n (splitOf a b) b)

/-- The greatest height among the nodes combined at a package (R408). -/
def TileEntry.siteHeight (e : TileEntry) (trusted : Nat → Bool) (pkg : Nat) : Nat :=
  (innerNodes treeFuel 0 e.ncontrib).foldl (fun h p =>
    if e.esite trusted p.1 p.2 = pkg then max h (heightOf treeFuel p.1 p.2) else h) 0

/-! ## Values -/

/-- An F32 code is a NaN. -/
def nan32 (x : Nat) : Bool := (f32.val x).isNan

/-- comb of R402: .SUM, .MAX or .MIN of two F32 values. -/
def combine32 (op x y : Nat) : Nat :=
  if nan32 x || nan32 y then 0x7FC00000
  else if op = 0 then addF32 x y else f32.minMax (op == 1) x y

/-- The value of the node [lo, hi) from those of its children, with what they carry (R402, R407, R34). -/
def joinNodes (op : Nat) (l r : Node) : Node :=
  let base : Node := { lo := l.lo, hi := r.hi, missing := Nat.lor l.missing r.missing, nan := min l.nan r.nan,
                       incomplete := Nat.lor l.missing r.missing != 0, backup := l.backup || r.backup }
  match l.vals, r.vals with
  | some x, some y => { base with vals := some (List.zipWith (combine32 op) x y), poison := Nat.lor l.poison r.poison }
  | some x, none => { base with vals := some x, poison := l.poison }
  | none, y => { base with vals := y, poison := r.poison }

/-- An absent leaf. -/
def absentLeaf (j : Nat) : Node := { lo := j, hi := j + 1, missing := 2 ^ j, incomplete := true }

/-! ## Payloads -/

/-- Bytes of an element: 0 F32, 1 B16. -/
def elemBytes (fmt : Nat) : Nat := if fmt = 1 then 2 else 4

/-- n elements of some bytes each. -/
def elements (size : Nat) : Nat → List Byte → List Nat
  | 0, _ => []
  | n + 1, l => natOf (l.take size) :: elements size n (l.drop size)

/-- 256 elements of a payload widened exactly to F32 (R402). -/
def widen (fmt : Nat) (data : List Byte) : List Nat :=
  (elements (elemBytes fmt) 256 data).map (fun x => if fmt = 1 then x * 2 ^ 16 else x)

/-- Poison of a payload by sectors of the widened elements. -/
def widenPoison (fmt p : Nat) : Nat :=
  if fmt = 1 then maskOf ((setBits p 16).flatMap (fun s => [2 * s, 2 * s + 1])) else p % 2 ^ 32

/-- F32 elements rounded to an output format (R402, R143): the bytes. -/
def roundTo (fmt : Nat) (vals : List Nat) : List Byte :=
  vals.flatMap (fun x => if fmt = 1 then bytesOf 2 (b16.rne (f32.val x)) else bytesOf 4 (f32.rne (f32.val x)))

/-- Poison of the narrowed elements: a sector that takes from a poisoned one is poisoned (R34). -/
def roundPoison (fmt p : Nat) : Nat :=
  if fmt = 1 then maskOf ((upFrom 0 16).filter (fun s => bit p (2 * s) || bit p (2 * s + 1))) else p

/-- A leaf or a backup as it is formed from a payload of contributor j. -/
def leafNode (j fmt : Nat) (data : List Byte) (poison : Nat) : Node :=
  let v := widen fmt data
  { lo := j, hi := j + 1, vals := some v, poison := widenPoison fmt poison, nan := if v.any nan32 then j else 0xFFFF }

/-- The node that a leaf, backup or partial carries. -/
def Packet.node (p : Packet) : Node :=
  if p.kind = 5 then
    { lo := p.lo, hi := p.hi, vals := if p.data.isEmpty then none else some (widen p.fmt p.data), poison := widenPoison p.fmt p.poison,
      missing := p.missing, nan := p.addr % 2 ^ 16, incomplete := bit p.flags 0, backup := bit p.flags 1 }
  else { leafNode p.lo p.fmt p.data p.poison with backup := p.kind == 7 }

/-- FLAGS of a node's packet. -/
def Node.flags (n : Node) : Nat := b2n n.incomplete + 2 * b2n n.backup

/-- The packet of a partial: F32 elements, or no payload where the node is absent. -/
def Node.partialOf (n : Node) (job coll tile chunk round : Nat) : Packet :=
  { kind := 5, flags := n.flags, job := job, coll := coll, tile := tile, chunk := chunk, fmt := 0, lo := n.lo, hi := n.hi,
    round := round, poison := n.poison, addr := n.nan, data := ((n.vals.getD []).flatMap (bytesOf 4)), missing := n.missing }

/-- The packet of a result: the root rounded to the output format; +0 where it is absent (R402). -/
def Node.resultOf (n : Node) (out job coll tile chunk round : Nat) : Packet :=
  { kind := 6, flags := n.flags, job := job, coll := coll, tile := tile, chunk := chunk, fmt := out, lo := n.lo, hi := n.hi,
    round := round, poison := roundPoison out n.poison, addr := n.nan,
    data := roundTo out (n.vals.getD (List.replicate 256 0)), missing := n.missing }

/-! ## Wire form -/

/-- A packet from the bytes of its transport payload (R420). -/
def Packet.ofBytes (l : List Byte) : Packet :=
  let f := fun (o n : Nat) => natOf ((l.drop o).take n)
  let kind := f 0 1
  let size := if kind = 10 then l.length - 42 else if 4 ≤ kind && kind ≤ 7 || kind = 12 || kind = 13 then 256 * elemBytes (f 0x0B 1) else 0
  { kind := kind, flags := f 1 1 % 16, job := f 2 2, src := f 4 2, coll := f 6 2, tile := f 8 2, chunk := f 0x0A 1, fmt := f 0x0B 1,
    lo := f 0x0C 2, hi := f 0x0E 2, round := f 0x10 4, poison := f 0x14 4, addr := f 0x18 8, data := (l.drop 32).take size,
    missing := if kind = 5 || kind = 6 then f (32 + size) 64 else 0
    dbar := if kind = 10 then f (32 + size) 8 else 0, dctr := if kind = 10 then f (40 + size) 2 else 0
    send := if kind = 11 then f 0x18 8 else 0 }

end Sys2Proof.Machine
end

