-- ==== Sys2Proof/Machine/Waits.lean ====
section
/-! DEFINITION. How the Saddle and the Awls reach memory: the parts of their state, translation through a port's cache
(R328), waiting for a walk and its denial (R331, R414). -/

namespace Sys2Proof.Machine

/-- A port of the Saddle; one that was never changed is at reset. -/
def State.port (s : State) (p : Nat) : SadPort := s.sad.ports.get {} p

/-- Change the Saddle. -/
def State.updSad (s : State) (f : Saddle → Saddle) : State := { s with sad := f s.sad }

/-- Change a port. -/
def State.updPort (s : State) (p : Nat) (f : SadPort → SadPort) : State :=
  s.updSad (fun d => { d with ports := d.ports.put p (f (s.port p)) })

/-- An Awl; one that was never changed is at reset. -/
def State.awl (s : State) (n : Nat) : Awl := s.awls.get {} n

/-- Change an Awl. -/
def State.updAwl (s : State) (n : Nat) (f : Awl → Awl) : State := { s with awls := s.awls.put n (f (s.awl n)) }

/-- Change every wait of the Saddle and of the Awls. -/
def State.mapWaits (s : State) (f : Wait → Wait) : State :=
  let sad := s.sad
  { s with
    awls := s.awls.map (fun (p : Nat × Awl) => (p.1, { p.2 with wait := f p.2.wait }))
    sad := { sad with
      ports := sad.ports.map (fun (p : Nat × SadPort) =>
        (p.1, { p.2 with handlers := p.2.handlers.map (fun (h : Nat × Handler) => (h.1, { h.2 with wait := f h.2.wait })) }))
      tiles := sad.tiles.map (fun (t : Nat × Tile) => (t.1, { t.2 with wait := f t.2.wait }))
      backups := sad.backups.map (fun (b : SadBackup) => { b with wait := f b.wait })
      credits := sad.credits.map (fun (c : SadCredit) => { c with wait := f c.wait })
      sends := sad.sends.map (fun (p : Nat × Send) => (p.1, { p.2 with wait := f p.2.wait })) } }

/-- A walk has succeeded: what waited for it tries again. -/
def State.freeWaits (s : State) (req : Nat) : State := s.mapWaits (fun w => if w.map (·.1) = some req then none else w)

/-- A walk has been answered with fail: what waited for it is denied. -/
def State.denyWaits (s : State) (req : Nat) : State := s.mapWaits (fun w => if w.map (·.1) = some req then some (req, true) else w)

/-- The translation that a port holds: in its own cache, or in the shared one of base die (port mod 4) (R328). -/
def State.heldAt (s : State) (port c va : Nat) : Option Leaf :=
  match (s.ms.xlat.get [] (4 + port)).look (xkey c va) with
  | some l => some l
  | none => (s.ms.xlat.get [] (port % 4)).look (xkey c va)

/-- A part of a range in one page, once translated: home, address, and bytes. -/
structure Piece where
  home : Home
  addr : Nat
  len : Nat
  /-- The protection mode and CACHE of its page (R326, R338), and the context and virtual address through which it is reached. -/
  prot : Option Nat := none
  cache : Nat := 0
  ctx : Option Nat := none
  va : Nat := 0
  /-- Its payload arrives poisoned (R352). -/
  bad : Bool := false
  /-- What another package answered (R421). -/
  data : Option (List Byte × Nat) := none
  deriving DecidableEq, Repr

/-- A range translated for a port: its pieces; the first address that misses; or a fault code with its address (R329, R339). -/
inductive RangeRes where
  | ok (l : List Piece)
  | miss (va : Nat)
  | fault (code va : Nat)
  deriving DecidableEq, Repr

/-- One page of a range. -/
def State.pageRes (s : State) (port c va n : Nat) (write : Bool) : RangeRes :=
  if 2 ^ 52 < va + n then .fault 0x09 va
  else match s.heldAt port c va with
    | none => .miss va
    | some l =>
      if inTail l va n then .fault 0x0C va
      else if l.alias_ != 0 || (write && !l.w) || s.shut l then .fault 0x09 va
      else .ok ((lineParts va n).map (fun p => let h := s.place l p.1; { home := h.1, addr := h.2, len := p.2, prot := some l.prot, cache := l.cache, ctx := some c, va := p.1 }))

/-- A range of n bytes, page by page. -/
def State.rangeRes (s : State) (port c : Nat) (write : Bool) : Nat → Nat → Nat → RangeRes
  | 0, _, _ => .ok []
  | k + 1, va, n =>
    if n = 0 then .ok []
    else
      let here := min n (2 ^ 21 - va % 2 ^ 21)
      match s.pageRes port c va here write with
      | .ok l => match s.rangeRes port c write k (va + here) (n - here) with
        | .ok m => .ok (l ++ m)
        | r => r
      | r => r

/-- What becomes of an access that may have to wait: it goes on, it waits, or it fails. -/
inductive Reach where
  | go (s : State) (l : List Piece)
  | wait (s : State) (w : Wait)
  | fail (s : State) (code va : Nat)

/-- The network waits of a port: a number that no walk has. -/
def netWait : Wait := some (2 ^ 64, false)

/-- The parts of a range in other packages. -/
def farPieces (l : List Piece) : Far :=
  l.filterMap (fun p => match p.home with
    | .remote pkg => some (pkg, p.addr, p.len)
    | _ => none)

/-- Give the pieces of other packages their answers, in order. -/
def takeAnswers : List Piece → List (List Byte × Nat) → List Piece
  | [], _ => []
  | p :: rest, l => match p.home, l with
    | .remote _, x :: more => { p with data := some x } :: takeAnswers rest more
    | _, _ => p :: takeAnswers rest l

/-- The packets of a read or a write of some pieces go over the package network, and a read of other packages is answered by them (R353, R354,
R421): the pieces, with their answers; `wait` while answers are out, `lost` where the network has lost them. -/
def State.piecesSent (s : State) (q : Requester) (b clock : Nat) (write : Bool) (l : List Piece) : State × Sending × List Piece :=
  let r := if s.ms.asks.any (fun x => x.who == q.key) then (s, .go)
    else s.request q b ((l.filterMap (fun p => s.routerOf p.home p.addr)).eraseDups) clock
  match r.2 with
  | .go =>
    let bad := r.1.tainted q
    let l := if bad then l.map (fun p => { p with bad := true }) else l
    let x := if write then (r.1, some []) else r.1.ask q (farPieces l)
    match x.2 with
    | some found => ((x.1.unask q (farPieces l)).untaint q, .go, takeAnswers l found)
    | none => (x.1, .wait, l)
  | .wait => (r.1, .wait, l)
  | .lost => (r.1, .lost, l)

/-- The pieces of a range that an engine reaches in a context, where it reaches them. -/
def State.enginePieces (s : State) (c va n : Nat) (write : Bool) : List Piece :=
  (lineParts va n).filterMap (fun p => match s.engineLeaf c p.1 p.2 write with
    | .ok l => let h := s.place l p.1; some { home := h.1, addr := h.2, len := p.2, prot := some l.prot, cache := l.cache, ctx := some c, va := p.1 }
    | .error _ => none)

/-- The packets of the scheduler (R351 to R354, R421; log entry 163): a read of other packages goes on once their answers have come. -/
def State.schedSent (s : State) (c : Nat) (l : List Piece) (write : Bool) : State × Sending :=
  let q := if s.ms.asks.any (fun x => x.who == (Requester.sched c).key) then (s, .go)
    else s.request (.sched c) 4 ((l.filterMap (fun p => s.routerOf p.home p.addr)).eraseDups) (s.ms.clocks.get 0 0)
  match q.2 with
  | .go => if write then (q.1, .go) else match q.1.ask (.sched c) (farPieces l) with
    | (s, some _) => (s, if s.tainted (.sched c) then .lost else .go)
    | (s, none) => (s, .wait)
  | r => (q.1, r)

/-- Try an access of a port (R414): a miss begins or joins a walk with AGENT 5; a denied walk is fault 0x08. Its packets go over the
package network (R353): a request answered with retry is sent again (R354), and one that fails in the end is a fault of the access. -/
def State.reach (s : State) (port c va n : Nat) (write : Bool) (w : Wait) : Reach :=
  match s.rangeRes port c write 3 va n with
  | .ok l =>
    let r := s.piecesSent (.saddle port) 4 (s.port port).clock write l
    match r.2.1 with
    | .go => .go r.1 r.2.2
    | .wait => .wait r.1 netWait
    | .lost => .fail (r.1.lostRecord 0 0) 0x0A va
  | .fault code a => .fail s code a
  | .miss a =>
    let again :=
      let r := s.startWalk { ctx := c, va := a, core := port, agent := 5, access := b2n write, launch := 0, vdie := 0xFFFF }
      Reach.wait r.1 (some (r.2, false))
    match w with
    | some (_, true) => .fail s 0x08 a
    | some (req, false) => if (s.ms.walks.look req).isSome then .wait s w else again
    | none => again

/-- Read pieces: the bytes, and whether each is poisoned (R29, R257, R340). -/
def State.readPieces (s : State) (l : List Piece) : State × List (Byte × Bool) :=
  let r := l.foldl (fun (r : State × List (Byte × Bool)) p =>
    let s := ((r.1.recall p.home p.addr p.len).mixEngine none p.ctx p.home p.addr p.len p.va (evictOf 0 p.cache)).through p.prot
    match p.data with
    | some x => (s, r.2 ++ x.1.zip ((upFrom 0 p.len).map (fun i => p.bad || bit x.2 (i / 32))))
    | none =>
      let b := s.mixRead p.home p.addr (s.engineBytes p.home p.addr p.len)
      (b.1.noteEngine none p.home p.addr p.len p.va, r.2 ++ b.2.zip ((s.enginePoison p.home p.addr p.len).map (fun x => p.bad || x)))) (s, [])
  (r.1.drawn.through none, r.2)

/-- Write bytes with their poison to pieces (R29, R33). -/
def State.writePieces (s : State) : List Piece → List (Byte × Bool) → State
  | [], _ => s
  | p :: rest, bs =>
    let mine := bs.take p.len
    (((s.mixEngine none p.ctx p.home p.addr p.len p.va (evictOf 0 p.cache)).through p.prot).enginePut p.home p.addr (mine.map (·.1)) (mine.map (fun x => x.2 || p.bad))
      |>.noteEngine none p.home p.addr p.len p.va |>.through none).writePieces rest (bs.drop p.len)

/-- A barrier update at the object of a piece (R257, R340): the state, and whether poison stood in the way (R220). -/
def State.pieceBar (s : State) (p : Piece) (u : BarUpd) : State × Bool :=
  let r := ((s.mixEngine none p.ctx p.home p.addr 16 p.va (evictOf 0 p.cache)).through p.prot).barUpdate p.home p.addr u
  (r.1.through none, r.2.2)

/-- The parts of a range of physical memory (R334 to R336). -/
def State.physPieces (s : State) (a n : Nat) : List Piece :=
  (lineParts a n).map (fun p => let h := s.physPlace p.1; { home := h.1, addr := h.2, len := p.2 })

/-- Bytes with the poison of their 32-byte sectors of a payload. -/
def withPoison (data : List Byte) (poison : Nat) : List (Byte × Bool) := data.zipIdx.map (fun x => (x.1, bit poison (x.2 / 32)))

/-- The poisoned 32-byte sectors of bytes. -/
def poisonOf (l : List (Byte × Bool)) : Nat := maskOf ((l.zipIdx.filter (fun x => x.1.2)).map (fun x => x.2 / 32))

end Sys2Proof.Machine
end

