-- ==== Sys2Proof/Machine/Saddle.lean ====
section
/-! DEFINITION. Collectives: their configuration (R395, R424), the rounds of tiles (R397 to R399, R471), packets between
Saddles and their trust (R418, R419), firing, completion and collective errors (R398, R409, R412 to R414), and alias
stores (R396). -/

namespace Sys2Proof.Machine

/-! ## Configuration -/

/-- Fields of SADDLE_COLLn_CFG (R424). -/
def Coll.en (c : Coll) : Bool := bit c.cfg 0
def Coll.kind (c : Coll) : Nat := bits c.cfg 2 1
def Coll.keySlot (c : Coll) : Nat := bits c.cfg 8 3
def Coll.ifmt (c : Coll) : Nat := bits c.cfg 9 9
def Coll.ctx (c : Coll) : Nat := bits c.cfg 23 12
def Coll.chunks (c : Coll) : Nat := min 64 (bits c.cfg 30 24)
def Coll.ntiles (c : Coll) : Nat := bits c.cfg 47 32
def Coll.cbuf (c : Coll) : Nat := bits c.cfg 55 48

/-- The collective is enabled (R395). -/
def Coll.enabled (c : Coll) : Bool := c.en && c.kind != 0 && c.chunks != 0

/-- Bytes of an input tile (R395). -/
def Coll.tileBytes (c : Coll) : Nat := 256 * c.chunks * elemBytes c.ifmt

/-- Fields of an entry: input and output format, output bytes of an element and of a tile (R395, R399). -/
def TileEntry.out (e : TileEntry) : Nat := e.fmt / 16
def TileEntry.outTile (e : TileEntry) (c : Coll) : Nat := 256 * c.chunks * elemBytes e.out

def State.coll (s : State) (n : Nat) : Coll := s.sad.colls.get {} n
def State.updColl (s : State) (n : Nat) (f : Coll → Coll) : State :=
  s.updSad (fun d => { d with colls := d.colls.put n (f (s.coll n)) })

/-- Key of a tile. -/
def tileKey (n t : Nat) : Nat := n * 2 ^ 16 + t
def State.tile (s : State) (n t : Nat) : Tile := s.sad.tiles.get {} (tileKey n t)
def State.updTile (s : State) (n t : Nat) (f : Tile → Tile) : State :=
  s.updSad (fun d => { d with tiles := d.tiles.put (tileKey n t) (f (s.tile n t)) })

/-- Home port of a chunk (R394). -/
def homePort (n t c : Nat) : Nat := (n + t + c) % 22

/-- A package's bit in TRUST and PATH of a key slot (R418, R419). -/
def State.trusts (s : State) (k pkg : Nat) : Bool := pkg < 512 && bit (s.sad.trust.get 0 (8 * k + pkg / 64)) (pkg % 64)
def State.pathOpen (s : State) (k pkg : Nat) : Bool := pkg < 512 && bit (s.sad.path.get 0 (8 * k + pkg / 64)) (pkg % 64)

/-- The key slot of a collective. -/
def State.keyOf (s : State) (n : Nat) : KeySlot := s.sad.keys.get {} (s.coll n).keySlot

/-- The address of an entry (R399). -/
def State.entryVa (s : State) (n t : Nat) : Nat := bits (s.coll n).tab 51 7 * 128 + 128 * t

/-- The port writes bytes of an entry at its piece (R399), where it reaches one: what the Saddle writes itself touches nothing (R445). -/
def State.entryPut (s : State) (n t : Nat) (p : Option Piece) (off : Nat) (bs : List Byte) : State :=
  match p with
  | none => s
  | some p =>
    let was := (s.tile n t).touched
    (s.writePieces [{ p with addr := p.addr + off, len := bs.length, va := p.va + off }] (bs.map (fun b => (b, false)))).updTile n t
      (fun x => { x with touched := was })

/-- CTL of an entry at its piece; for an entry of another package, as the round read it. -/
def State.entryCtl (s : State) (n t : Nat) (p : Piece) : Nat :=
  match p.home with
  | .remote _ => (s.tile n t).ctl
  | _ => natOf ((s.readPieces [{ p with len := 1 }]).2.map (·.1))

/-- Read a number of an entry, if it can be read. -/
def State.entryRead (s : State) (n t off len : Nat) : Option Nat :=
  match s.engineRead (s.coll n).ctx (s.entryVa n t + off) len with
  | .ok b => some (natOf b)
  | .error _ => none

/-- CTL of an entry as the port watches it (R398): that of another package's page by reads that are answered (R421). -/
def State.watchCtl (s : State) (n t : Nat) : State × Nat :=
  match s.engineXlat (s.coll n).ctx (s.entryVa n t) 1 false with
  | .ok (.remote pkg, a) =>
    let q := s.ask (.watch (tileKey n t)) [(pkg, a, 1)]
    match q.2 with
    | some (x :: _) => (q.1.unask (.watch (tileKey n t)) [(pkg, a, 1)], natOf x.1)
    | _ => (q.1, 0)
  | _ => (s, (s.entryRead n t 0 1).getD 0)

/-- Bytes of a chunk buffer reservation in use: local bytes accepted and not yet sent, and held packets (R396, R410; log
entry 30). -/
def State.cbufUsed (s : State) (n : Nat) : Nat :=
  s.sad.tiles.foldl (fun a p => if p.1 / 2 ^ 16 = n && !p.2.fired then a + p.2.got.length * elemBytes (s.coll n).ifmt else a) 0
    + s.sad.held.foldl (fun a p => if p.2.pkt.coll = n then a + 32 + p.2.pkt.data.length + (if p.2.pkt.kind = 6 then 64 else 0) else a) 0

/-- A reservation has no room for more bytes. -/
def State.cbufFull (s : State) (n more : Nat) : Bool := decide (65536 * (s.coll n).cbuf < s.cbufUsed n + more)

/-! ## Packets -/

/-- The port that handles a packet of this package: the home of its chunk; for a put the owner of its counter, a free one
where it names none; for an acknowledgement the owner of its send (R393, R394, R438). -/
def State.portOf (s : State) (p : Packet) : Nat :=
  if p.kind = 10 then (if p.dctr = 0xFFFF then (Config.freeWord s.free).toNat % 22 else (s.sad.ctrs.get {} p.dctr).owner % 22)
  else if p.kind = 11 then natOf (((s.sad.sends.get {} p.send).image.drop 3).take 1) % 22
  else homePort p.coll p.tile p.chunk

/-- A packet arrives at its port. -/
def State.deliver (s : State) (p : Packet) : State := (s.updPort (s.portOf p) (fun k => { k with inbox := k.inbox ++ [p] })).drawn

/-- Send a packet: to this package, to another one, or nowhere (R469, R422). -/
def State.sendPacket (s : State) (dst : Nat) (p : Packet) : State :=
  if dst = s.pkg then s.deliver p
  else if s.wayTo dst then { s with sent := s.sent ++ [.packet dst p] }
  else s

/-- Send a packet of a collective's round while its key slot holds the job's key (R418); a package that is not reached through trusted
Saddles only makes the tile SEALED (R419). -/
def State.sendColl (s : State) (dst : Nat) (p : Packet) : State :=
  if !(s.keyOf p.coll).valid then s
  else
    let s := if dst != s.pkg && !s.pathOpen (s.coll p.coll).keySlot dst && (s.tile p.coll p.tile).round == p.round
      then s.updTile p.coll p.tile (fun t => { t with sflags := Nat.lor t.sflags 1 }) else s
    s.sendPacket dst p

/-- Answer a contribution with an acceptance (9) or a late notice (8) (R411). -/
def State.answer (s : State) (p : Packet) (kind : Nat) : State :=
  s.sendPacket p.src { kind := kind, job := p.job, src := s.pkg, coll := p.coll, tile := p.tile, chunk := p.chunk, lo := p.lo, hi := p.hi,
                       round := p.round }

/-- Distinct packages of a peer map (R406 MCST). -/
def TileEntry.packages (e : TileEntry) : List Nat := e.pkgs.foldl NatSet.ins []

/-! ## The end of a round -/

/-- The round of a tile ends: READY and the local bytes clear, ROUND advances, in the entry where the port reaches it, and chunk contexts of
the round that hold nothing for another package go (R412, R414). -/
def State.advanceRound (s : State) (n t : Nat) (failed : Bool) (p : Option Piece) : State :=
  let x := s.tile n t
  let r := (x.round + 1) % 2 ^ 32
  let s := match p with
    | some q => (s.entryPut n t p 0 (bytesOf 1 (s.entryCtl n t q / 2 * 2))).entryPut n t p 0x3C (bytesOf 4 r)
    | none => s
  let s := s.updTile n t (fun _ => { known := true, round := r, failed := if failed then x.failed.ins x.round else x.failed })
  s.updSad (fun d => { d with ports := d.ports.map (fun (p : Nat × SadPort) => (p.1, { p.2 with
    chunks := p.2.chunks.filter (fun c => !(c.2.coll == n && c.2.tile == t && c.2.round == x.round && (failed || c.2.tomb || c.2.nodes.isEmpty))) })) })

/-- The status-only record of R414. -/
def State.collRecord (s : State) (c tile addr : Nat) : State :=
  (s.ctxLog c { type := 5, severity := 2, code := 0x13, engine := 12, syndrome := tile, address := addr }).1

/-- Count a collective error (R424). -/
def State.countErr (s : State) (n : Nat) : State := s.updColl n (fun c => { c with errs := satNat (c.errs + 1) 0xFFFF })

/-- A credit that was not applied (R412): the entry says so, once the port reaches it, and a record is written. -/
def State.creditLost (s : State) (k : SadCredit) (w : Wait) : State :=
  if k.err then s
  else match s.reach (homePort k.coll k.tile 0) (s.coll k.coll).ctx (s.entryVa k.coll k.tile) 128 true w with
    | .wait s w => s.updSad (fun d => { d with credits := d.credits ++ [{ k with wait := w, lost := true }] })
    | .fail s _ _ => s.collRecord k.ctx k.tile k.va
    | .go s l => (s.entryPut k.coll k.tile l.head? 0x38 (bytesOf 1 4 ++ bytesOf 1 (Nat.lor k.sflags 0x10))).collRecord k.ctx k.tile k.va

/-- Try to apply the credit of a completion or of an error (R412, R414). -/
def State.tryCredit (s : State) (k : SadCredit) : State :=
  let port := homePort k.coll k.tile 0
  if k.lost then s.creditLost k k.wait
  else if k.va % 16 != 0 then s.creditLost k none
  else match s.reach port k.ctx k.va 16 true k.wait with
  | .wait s w => s.updSad (fun d => { d with credits := d.credits ++ [{ k with wait := w }] })
  | .fail s _ _ => s.creditLost k none
  | .go s l => match l with
    | [p] => match p.home with
      | .remote pkg => if s.wayTo pkg then { s with sent := s.sent ++ [.remoteCredit pkg p.addr k.bytes p.bad k.err] } else s.creditLost k none
      | _ =>
        if p.bad then s.creditLost k none
        else
          let r := s.pieceBar p (.credit k.bytes false k.err)
          if r.2 then r.1.creditLost k none else r.1
    | _ => s.creditLost k none

/-- A collective error ends a tile's round at this package (R414), with the piece at which the port writes the entry, where it reaches one. In a
round that software has made undefined (R445) the status and the credit are free. -/
def State.collEnd (s : State) (n t addr : Nat) (e : TileEntry) (p : Option Piece) : State :=
  let c := s.coll n
  let x := s.tile n t
  let sf := Nat.lor x.sflags 0x10
  let out := if x.touched then (upFrom 0 2).map s.freeByte else bytesOf 1 4 ++ bytesOf 1 sf
  let bytes := if x.touched then (s.freeByte 2).toNat + 256 * (s.freeByte 3).toNat else e.outTile c
  let s := (s.drawn.countErr n).entryPut n t p 0x38 out
  let s := if e.barrier = 0 then s
    else s.tryCredit { coll := n, tile := t, ctx := c.ctx, va := e.barrier, bytes := bytes, err := true, sflags := sf }
  (s.collRecord c.ctx t addr).advanceRound n t true p

/-- A collective error on a tile (R414): its writes to the entry are Saddle accesses, and wait for a translation that is missing. -/
def State.collError (s : State) (n t addr : Nat) (e : TileEntry) : State :=
  let x := s.tile n t
  match s.reach (homePort n t 0) (s.coll n).ctx (s.entryVa n t) 128 true (if x.erring.isSome then x.wait else none) with
  | .wait s w => s.updTile n t (fun x => { x with entry := some e, erring := some addr, wait := w })
  | .fail s _ _ => s.collEnd n t addr e none
  | .go s l => s.collEnd n t addr e l.head?

/-- A collective error on a tile whose entry has been read. -/
def State.tileError (s : State) (n t addr : Nat) : State :=
  match (s.tile n t).entry with
  | some e => s.collError n t addr e
  | none => s

/-! ## The first event of a round -/

/-- Whether a tile's round is open: its entry has been read; the event waits; or it ends here (R471). -/
inductive Opened where
  | ready (s : State) (e : TileEntry)
  | wait (s : State)
  | dead (s : State)

/-- The fields of an entry's 128 bytes; the peer map follows. -/
def TileEntry.ofBytes (b : List Byte) : TileEntry :=
  let f := fun (o n : Nat) => natOf ((b.drop o).take n)
  { op := f 1 1, fmt := f 2 1, ncontrib := f 4 2, myidx := f 6 2, timeout := f 8 4, result := f 0x10 8, barrier := f 0x18 8,
    bkfor := f 0x28 2, bkto := f 0x2A 2, bksrc := f 0x30 8, pkgs := [], sites := [] }

/-- The checks of R471 on an entry. -/
def entryOk (c : Coll) (b : List Byte) (e : TileEntry) (peers : Nat) : Bool :=
  let f := fun (o n : Nat) => natOf ((b.drop o).take n)
  (if c.kind = 2 then decide (e.op ≤ 2) else e.op == 0) && e.fmt % 16 == c.ifmt && decide (e.out ≤ 1)
    && f 0 1 < 4 && f 3 1 == 0 && f 0x0C 4 == 0 && f 0x2C 4 == 0
    && decide (1 ≤ e.ncontrib) && decide (e.ncontrib ≤ 512)
    && (decide (e.myidx < e.ncontrib) || e.myidx == 0xFFFF) && (decide (e.bkfor < e.ncontrib) || e.bkfor == 0xFFFF)
    && e.result % elemBytes e.out == 0 && e.barrier % 16 == 0 && peers % 4 == 0

/-- The entry cannot be read (R471): a record, the error MSI, and the round's stores and packets are discarded. -/
def State.entryLost (s : State) (n t addr : Nat) : State :=
  let s := ((s.countErr n).collRecord (s.coll n).ctx t addr).ctxMsi (s.coll n).ctx 1
  let x := s.tile n t
  let mine := fun (coll tile round : Nat) => coll == n && tile == t && (!x.known || round == x.round)
  s.updSad (fun d => { d with
    tiles := d.tiles.put (tileKey n t) { known := x.known, round := x.round, failed := x.failed }
    held := d.held.filter (fun h => !mine h.2.pkt.coll h.2.pkt.tile h.2.pkt.round)
    ports := d.ports.map (fun (p : Nat × SadPort) => (p.1, { p.2 with
      inbox := p.2.inbox.filter (fun k => !(decide (4 ≤ k.kind) && k.kind != 10 && k.kind != 11 && mine k.coll k.tile k.round))
      chunks := p.2.chunks.filter (fun c => !mine c.2.coll c.2.tile c.2.round) })) })

/-- What the first round finds in the fields that the Saddle writes enters its completion (R399). A NANIDX of 0 beside a
clear NAN flag is the 0 that software writes. -/
def State.foundFields (s : State) (n t : Nat) (b : List Byte) : State :=
  if (s.tile n t).known then s
  else
    let f := fun (o k : Nat) => natOf ((b.drop o).take k)
    let nan := f 0x3A 2
    s.updTile n t (fun x => { x with
      known := true, round := f 0x3C 4, sflags := f 0x39 1 % 32, missing := f 0x40 64
      nan := if nan = 0 && !bit (f 0x39 1) 2 then 0xFFFF else nan })

/-- A store that a port has accepted or discarded leaves oc6 (R26, R396). -/
def State.aliasDone (s : State) (id lane : Nat) : State :=
  let s := s.updAcc id lane (fun a => { a with phase := .done })
  match s.ops.look id with
  | some o => if o.lanes.all (fun a => a.phase == .done) then s.endOp id else s
  | none => s

/-- The tile of an alias access within the window of its collective (R396). -/
def State.aliasTile (s : State) (a : Acc) : Option (Nat × Nat) :=
  let c := s.coll a.coll
  let win := bits c.win 51 21 * 2 ^ 21
  if a.alias_ != 0 && c.enabled && a.alias_ == c.kind && decide (win ≤ a.addr) && decide (a.addr - win < c.ntiles * c.tileBytes)
  then some (a.coll, (a.addr - win) / c.tileBytes) else none

/-- The stores that wait at the port while a tile's entry or peer map does not translate are discarded with their round
(R471). -/
def State.dropParked (s : State) (n t : Nat) : State :=
  s.ops.foldl (fun (s : State) p =>
    if ((s.teams.look p.2.tid).map (·.ctx)) != some (s.coll n).ctx then s
    else p.2.lanes.foldl (fun (s : State) a =>
      if a.phase == .ready && s.aliasTile a == some (n, t) && s.clearAhead p.1 p.2 a then s.aliasDone p.1 a.lane else s) s) s

/-- The first event of a round reads the entry and the peer map in the collective's context (R398, R471). -/
def State.openTile (s : State) (n t port : Nat) : Opened :=
  let x := s.tile n t
  match x.entry with
  | some e => .ready s e
  | none =>
    let c := s.coll n
    let va := s.entryVa n t
    let waiting := fun (s : State) (w : Wait) => Opened.wait (s.updTile n t (fun x => { x with wait := w }))
    match s.reach port c.ctx va 128 false x.wait with
    | .wait s w => waiting s w
    | .fail s _ a => .dead ((s.dropParked n t).entryLost n t a)
    | .go s l =>
      let r := s.readPieces l
      if r.2.any (·.2) then .dead ((r.1.dropParked n t).entryLost n t va)
      else
        let b := r.2.map (·.1)
        let e := TileEntry.ofBytes b
        let peers := natOf ((b.drop 0x20).take 8)
        let place : Option (Home × Nat) := l.head?.bind (fun p => match p.home with
          | .remote _ => none
          | _ => some (p.home, p.addr))
        let s := (r.1.foundFields n t b).updTile n t (fun x => { x with
          place := place, ctl := natOf (b.take 1), touched := x.touched && x.place.isSome })
        if !entryOk c b e peers then .dead ((s.dropParked n t).collError n t va e)
        else match s.reach port c.ctx peers (4 * e.ncontrib) false (s.tile n t).wait with
          | .wait s w => waiting s w
          | .fail s _ a => .dead ((s.dropParked n t).collError n t a e)
          | .go s l =>
            let r := s.readPieces l
            if r.2.any (·.2) then .dead ((r.1.dropParked n t).collError n t peers e)
            else
              let ws := elements 4 e.ncontrib (r.2.map (·.1))
              let e := { e with pkgs := ws.map (fun w => w % 2 ^ 16), sites := ws.map (fun w => w / 2 ^ 16) }
              .ready (r.1.updTile n t (fun x => { x with entry := some e, wait := none })) e

/-! ## Chunk contexts -/

/-- Deadline of a context opened now (R408); a gather counts the height of the root. -/
def State.deadlineOf (s : State) (n p : Nat) (e : TileEntry) : Option Nat :=
  let k := (s.coll n).keySlot
  let h := if (s.coll n).kind = 3 then (if e.pkgs.getD 0 0 = s.pkg then heightOf treeFuel 0 e.ncontrib else 0)
    else e.siteHeight (s.trusts k) s.pkg
  if e.timeout = 0 || h = 0 then none else some ((s.port p).clock + e.timeout * h)

/-- The chunk context for a chunk and round, opened if needed: its index, or none where none is free (R405). -/
def State.openChunk (s : State) (p n t c r : Nat) (e : TileEntry) : State × Option Nat :=
  match (s.port p).chunks.find? (fun x => x.2.coll == n && x.2.tile == t && x.2.chunk == c && x.2.round == r) with
  | some x => (s, some x.1)
  | none => match (upFrom 0 4096).find? (fun i => ((s.port p).chunks.look i).isNone) with
    | none => (s, none)
    | some i => (s.updPort p (fun k => { k with chunks := k.chunks.put i { coll := n, tile := t, chunk := c, round := r, entry := e,
                                                                            deadline := s.deadlineOf n p e } }), some i)

/-! ## Firing -/

/-- The elements of the local tile are all contributed. -/
def Tile.full (x : Tile) (c : Coll) : Bool := x.got.length == 256 * c.chunks

/-- Bytes of a chunk of the local tile; bytes not accepted count as +0 (R398). -/
def Tile.chunkBytes (x : Tile) (c : Coll) (k : Nat) : List Byte :=
  let n := 256 * elemBytes c.ifmt
  (upFrom (k * n) n).map (fun a => x.bytes.get 0 a)

/-- Poisoned 32-byte sectors of a chunk of the local tile. -/
def Tile.chunkPoison (x : Tile) (c : Coll) (k : Nat) : Nat :=
  let n := 8 * elemBytes c.ifmt
  maskOf ((upFrom 0 n).filter (fun i => x.bad.has (k * n + i)))

/-- Read and send the backup of one chunk (R409). -/
def State.sendBackup (s : State) (b : SadBackup) : State :=
  let n := b.coll
  let t := b.tile
  let k := b.chunk
  let e := b.entry
  let c := s.coll n
  let size := 256 * elemBytes c.ifmt
  match s.reach (homePort n t k) c.ctx (e.bksrc + k * size) size false b.wait with
  | .wait s w => s.updSad (fun d => { d with backups := d.backups ++ [{ b with wait := w }] })
  | .fail s _ a => s.collRecord c.ctx t a
  | .go s l =>
    let r := s.readPieces l
    r.1.sendColl e.bkto { kind := 7, flags := 2, job := (s.keyOf n).job, src := s.pkg, coll := n, tile := t, chunk := k, fmt := c.ifmt,
                          lo := e.bkfor, hi := e.bkfor + 1, round := b.round, poison := poisonOf r.2, data := r.2.map (·.1) }

/-- The parked backups of a tile are tried again (R409). -/
def State.moreBackups (s : State) (n t : Nat) : State :=
  let mine := fun (b : SadBackup) => b.coll == n && b.tile == t
  (s.sad.backups.filter mine).foldl State.sendBackup (s.updSad (fun d => { d with backups := d.backups.filter (fun b => !mine b) }))

/-- Send what a tile contributes at firing: leaves to the sites of their parents; gather pieces to PKG(0); the tile of
contributor 0 of a multicast to every package (R398, R403, R413). -/
def State.sendTile (s : State) (n t : Nat) (e : TileEntry) : State :=
  let c := s.coll n
  let x := s.tile n t
  let base := fun (kind k : Nat) => ({
    kind := kind, job := (s.keyOf n).job, src := s.pkg, coll := n, tile := t, chunk := k, fmt := c.ifmt,
    lo := e.myidx, hi := e.myidx + 1, round := x.round, poison := x.chunkPoison c k
    data := if x.touched then (upFrom 0 (256 * elemBytes c.ifmt)).map (fun i => s.freeByte (2 ^ 32 + 1024 * k + i)) else x.chunkBytes c k } : Packet)
  let ks := upFrom 0 c.chunks
  if e.myidx = 0xFFFF then s
  else if c.kind = 1 then
    if e.myidx = 0 then
      let s := s.updTile n t (fun x => { x with answers := c.chunks * e.packages.length })
      ks.foldl (fun s k => e.packages.foldl (fun s d => s.sendColl d (base 13 k)) s) s
    else s
  else
    let dst := if c.kind = 3 then e.pkgs.getD 0 0 else e.destOf (s.trusts c.keySlot) e.myidx (e.myidx + 1)
    let s := s.updTile n t (fun x => { x with
      answers := c.chunks
      nan := if e.result = 0 && ks.any (fun k => (widen c.ifmt (x.chunkBytes c k)).any nan32) then min x.nan e.myidx else x.nan })
    ks.foldl (fun s k => s.sendColl dst (base (if c.kind = 3 then 12 else 4) k)) s

/-- A tile fires (R398, R418): STATUS 1, its contribution, its backups. The write of STATUS waits for a translation that is missing, and
where it fails it is a collective error (R414). -/
def State.fire (s : State) (n t : Nat) (e : TileEntry) : State :=
  let c := s.coll n
  match s.reach (homePort n t 0) c.ctx (s.entryVa n t) 128 true (s.tile n t).wait with
  | .wait s w => s.updTile n t (fun x => { x with wait := w })
  | .fail s _ a => s.collEnd n t a e none
  | .go s l =>
    let s := (s.entryPut n t l.head? 0x38 (bytesOf 1 1)).updTile n t (fun x => { x with
      wait := none, fired := true, firedAt := (s.port (homePort n t 0)).clock })
    if !(s.keyOf n).valid then s.collError n t (s.entryVa n t) e
    else
      let s := (s.sendTile n t e).drawn
      if e.bkfor = 0xFFFF then s
      else (upFrom 0 c.chunks).foldl (fun s k =>
        s.sendBackup { coll := n, tile := t, chunk := k, round := (s.tile n t).round, entry := e }) s

/-- TILE_FIRE (R398, R423): on READY, or on AUTO once every byte is accepted; a tile that has fired sends the backups that
were parked. -/
def State.tileFire (s : State) (n t : Nat) : State :=
  let s := s.moreBackups n t
  let c := s.coll n
  let x := s.tile n t
  if !c.enabled || c.ntiles ≤ t || x.fired || x.erring.isSome then s
  else
    let w := s.watchCtl n t
    let ctl := w.2
    let s := w.1
    if !(bit ctl 0 || (bit ctl 1 && x.full c)) && x.wait.isNone then s
    else match s.openTile n t (homePort n t 0) with
      | .wait s => s
      | .dead s => s
      | .ready s e => if bit ctl 0 || (bit ctl 1 && x.full c) then s.fire n t e else s

def execTileFire (s : State) : Host.Outcome State Fault Refusal := .next (s.tileFire s.arg.a s.arg.b)

/-! ## Completion -/

/-- Every result chunk that this package waits for has been written (R412, R413). -/
def State.chunksIn (s : State) (n t : Nat) (e : TileEntry) : Bool :=
  let c := s.coll n
  let x := s.tile n t
  if e.result = 0 then true
  else if c.kind = 3 then e.pkgs.getD 0 0 != s.pkg || decide (c.chunks * e.ncontrib ≤ x.written.length)
  else decide (c.chunks ≤ x.written.length)

/-- The result that this package holds of a round that software has made undefined is free values (R445, R11). -/
def State.spoilResult (s : State) (n : Nat) (e : TileEntry) : State :=
  let c := s.coll n
  let size := if c.kind != 3 then e.outTile c else if e.pkgs.getD 0 0 = s.pkg then e.ncontrib * e.outTile c else 0
  if e.result = 0 then s
  else match s.engineWrite c.ctx e.result ((upFrom 68 size).map s.freeByte) with
    | .ok u => u
    | .error _ => s

/-- The tile completes in this order: its status fields, the advance of its round, the credit (R412). Its writes to the entry wait for a
translation that is missing, and where they fail the round ends in an error (R414). The status, the result and the credit of a round in
which software wrote to bytes 0x38 to 0x7F are undefined (R445). -/
def State.finishTile (s : State) (n t : Nat) (e : TileEntry) : State :=
  let c := s.coll n
  let x := s.tile n t
  match s.reach (homePort n t 0) c.ctx (s.entryVa n t) 128 true x.wait with
  | .wait s w => s.updTile n t (fun x => { x with wait := w })
  | .fail s _ a => s.collEnd n t a e none
  | .go s l =>
    let status := if x.missing != 0 || x.incomplete then 3 else 2
    let sf := if x.nan = 0xFFFF then x.sflags else Nat.lor x.sflags 4
    let out := bytesOf 1 status ++ bytesOf 1 sf ++ bytesOf 2 x.nan ++ bytesOf 64 x.missing
    let out := if x.touched then (upFrom 0 68).map s.freeByte else out
    let bytes := if x.touched then (s.freeByte 68).toNat + 256 * (s.freeByte 69).toNat else e.outTile c
    let err := x.touched && s.freeBit 70
    let s := if x.touched then s.spoilResult n e else s
    let s := (s.drawn.entryPut n t l.head? 0x38 (out.take 1)).entryPut n t l.head? 0x39 ((out.drop 1).take 3)
    let s := (s.entryPut n t l.head? 0x40 (out.drop 4)).advanceRound n t false l.head?
    if e.barrier = 0 then s
    else s.tryCredit { coll := n, tile := t, ctx := c.ctx, va := e.barrier, bytes := bytes, err := err, sflags := sf }

/-- The package must have fired before its tile completes (R412, R413): not a receiver of a multicast, nor the package at which a gather
lands. -/
def State.mustFire (s : State) (n : Nat) (e : TileEntry) : Bool :=
  let k := (s.coll n).kind
  e.result == 0 || !((k == 1 && e.myidx != 0) || (k == 3 && e.pkgs.getD 0 0 == s.pkg))

/-- TILE_COMPLETE (R412, R413): a tile that has fired, whose result chunks are written and whose contributions are answered; credits of the
tile that were parked, and an error whose writes were. -/
def State.tileComplete (s : State) (n t : Nat) : State :=
  let mine := s.sad.credits.filter (fun k => k.coll == n && k.tile == t)
  let s := s.updSad (fun d => { d with credits := d.credits.filter (fun k => !(k.coll == n && k.tile == t)) })
  let s := mine.foldl State.tryCredit s
  let x := s.tile n t
  match x.entry, x.erring with
  | some e, some addr => s.collError n t addr e
  | some e, none =>
    if (x.fired || !s.mustFire n e) && s.chunksIn n t e && (x.answers == 0 || x.expired) then s.finishTile n t e else s
  | none, _ => s

def execTileComplete (s : State) : Host.Outcome State Fault Refusal := .next (s.tileComplete s.arg.a s.arg.b)

/-- ANSWER_WAIT_EXPIRY (R412): TIMEOUT × (the root's height + 1) port clocks since the firing. -/
def State.answerExpiry (s : State) (n t : Nat) : State :=
  let x := s.tile n t
  match x.entry with
  | some e =>
    if x.fired && e.timeout != 0 && decide (x.firedAt + e.timeout * (heightOf treeFuel 0 e.ncontrib + 1) ≤ (s.port (homePort n t 0)).clock) then
      s.updTile n t (fun x => { x with expired := true })
    else s
  | none => s

def execAnswerWaitExpiry (s : State) : Host.Outcome State Fault Refusal := .next (s.answerExpiry s.arg.a s.arg.b)

/-! ## Alias stores -/

/-- An alias store within its window: the round, the elements, the outcome (R396). -/
def State.aliasTake (s : State) (id lane n off va : Nat) (bs : List Byte) (bad : Bool) : State :=
  let c := s.coll n
  let t := off / c.tileBytes
  let at_ := off % c.tileBytes
  let es := elemBytes c.ifmt
  let k := at_ / (256 * es)
  let p := homePort n t k
  match s.openTile n t p with
  | .wait s => s
  | .dead s => s.aliasDone id lane
  | .ready s e =>
    let x := s.tile n t
    let els := upFrom (at_ / es) (bs.length / es)
    if x.erring.isSome then s.aliasDone id lane
    else if at_ % es != 0 || bs.length % es != 0 || x.fired || els.any (fun i => x.got.has i) || (c.kind = 1 && e.myidx != 0)
        || s.cbufFull n bs.length then (s.tileError n t va).aliasDone id lane
    else
      let r := s.openChunk p n t k x.round e
      match r.2 with
      | none => s
      | some _ =>
        let s := r.1.updTile n t (fun x => { x with
          bytes := writeCells x.bytes at_ bs
          bad := if bad then (upFrom (at_ / 32) ((at_ + bs.length + 31) / 32 - at_ / 32)).foldl NatSet.ins x.bad else x.bad
          got := els.foldl NatSet.ins x.got })
        s.aliasDone id lane

/-- ALIAS_STORE_ACCEPT (R396): the home port of a chunk takes or discards a store to an alias window. -/
def State.aliasAccept (s : State) (id lane : Nat) : State :=
  match s.liveOp id with
  | none => s
  | some o => match o.lanes.find? (fun a => a.lane == lane), s.teams.look o.tid with
    | some a, some tm =>
      let g := if a.net = 1 then (s, true) else s.roundTrip (baseOf (dieOf o.core)) [4]
      if a.alias_ = 0 || a.phase != .ready || !s.clearAhead id o a || !o.lanesAhead a then s
      else if !g.2 then g.1.retryLane id lane
      else
        let s := g.1
        let n := a.coll
        let c := s.coll n
        let win := bits c.win 51 21 * 2 ^ 21
        if c.enabled && (a.alias_ != c.kind || tm.ctx != c.ctx) then (s.collRecord tm.ctx ((a.addr - win) / c.tileBytes % 2 ^ 32) a.addr).aliasDone id lane
        else if (s.aliasTile a).isNone then ((s.countErr n).collRecord tm.ctx ((a.addr - win) / c.tileBytes % 2 ^ 32) a.addr).aliasDone id lane
        else s.aliasTake id lane n (a.addr - win) a.addr (bytesOf o.bytes a.data) a.poisoned
    | _, _ => s

def execAliasStoreAccept (s : State) : Host.Outcome State Fault Refusal := .next (s.aliasAccept s.arg.a s.arg.b)

/-! ## Registers -/

/-- SADDLE_COLL_CFG_WRITE (R424, R464): ignored where it would set EN without the feature, or bring the reservations above
32 MiB. A collective that is no longer enabled forgets its rounds. -/
def State.collCfgWrite (s : State) (n v : Nat) : State :=
  let others := s.sad.colls.foldl (fun a p => if p.1 = n then a else a + p.2.cbuf) 0
  let v := Nat.land v 0x00FFFFFF7FFFF3FF
  if n ≥ 1024 || 512 < others + bits v 55 48 || (bit v 0 && !bit s.host.ack0.toNat 3) then s
  else
    let s := s.updColl n (fun c => { c with cfg := v })
    if (s.coll n).enabled then s
    else s.updSad (fun d => { d with
      tiles := d.tiles.filter (fun p => p.1 / 2 ^ 16 != n)
      backups := d.backups.filter (fun b => b.coll != n) })

def execSaddleCollCfgWrite (s : State) : Host.Outcome State Fault Refusal := .next (s.collCfgWrite s.arg.a s.arg.b)

/-- Writing CLR = 1 to SADDLE_COLLn_STAT and to SADDLE_PORTn_STAT (R424). -/
def State.collStatClr (s : State) (n : Nat) : State := s.updColl n (fun c => { c with late := 0, errs := 0 })
def State.portStatClr (s : State) (p : Nat) : State := s.updPort p (fun p => { p with unmatched := 0, ucerr := 0, dup := 0 })

def execSaddleCollStatClr (s : State) : Host.Outcome State Fault Refusal := .next (s.collStatClr s.arg.a)
def execSaddlePortStatClr (s : State) : Host.Outcome State Fault Refusal := .next (s.portStatClr s.arg.a)

/-- A key slot is cleared (R457): every tile of its collectives in a round ends as a collective error, and nothing of theirs is combined any
more (R418). -/
def State.clearKey (s : State) (k : Nat) : State :=
  let s := s.updSad (fun d => { d with keys := d.keys.del k })
  let s := s.sad.tiles.foldl (fun s p =>
    let n := p.1 / 2 ^ 16
    if (s.coll n).keySlot = k && p.2.entry.isSome then s.tileError n (p.1 % 2 ^ 16) (s.entryVa n (p.1 % 2 ^ 16)) else s) s
  s.updSad (fun d => { d with ports := d.ports.map (fun (p : Nat × SadPort) => (p.1, { p.2 with
    chunks := p.2.chunks.filter (fun c => ((d.colls.get {} c.2.coll).keySlot != k)) })) })

end Sys2Proof.Machine
end

