-- ==== Sys2Proof/Machine/Microcode.lean ====
section
/-! DEFINITION. Packet handlers: matching (R404, R405), the port engine's turn (R394), the sixteen microcode instructions
(R406 to R412, R415), held packets (R410), and the fixed logic of answers (R411). -/

namespace Sys2Proof.Machine

/-! ## Matching -/

/-- A packet that runs a handler (R393): every kind but remote memory operations, acceptances and late notices, and an acknowledgement once
its send has counted it (R417). -/
def Packet.handled (p : Packet) : Bool := !([1, 2, 3, 8, 9].contains p.kind) && (p.kind != 11 || p.seen)

/-- Some key slot holds a job's key (R418). -/
def State.jobKey (s : State) (job : Nat) : Bool := s.sad.keys.any (fun k => k.2.valid && k.2.job == job)

/-- The lowest entry of a match table that a packet matches: its handler (R404). -/
def SadPort.matching (k : SadPort) (kind coll : Nat) : Option Nat :=
  ((k.table.filter (fun x =>
    let e := x.2.toNat
    x.1 < 256 && bit e 63 && bits e 59 56 == kind && Nat.land (bits e 39 30) (Nat.xor coll (bits e 49 40)) == 0)).head?).map
      (fun x => bits x.2.toNat 11 0)

/-- A free packet context; 56 to 63 run timer events only (R392). -/
def SadPort.freeCtx (k : SadPort) (timer : Bool) : Option Nat :=
  (if timer then upFrom 56 8 else upFrom 0 56).find? (fun i => (k.handlers.look i).isNone)

/-- Registers at handler entry (R405). -/
def entryRegs (kind : Nat) (p : Packet) (h7 : Nat) : Tab DWord :=
  let w := fun (x : Nat) => BitVec.ofNat 64 x
  [w kind, w p.coll, w p.tile, w p.lo, w p.hi, w p.round, w p.src, w h7].zipIdx.foldl (fun (t : Tab DWord) x => t.set 0 x.2 x.1) []

/-- Start a handler, or count a packet that matches nothing (R404). -/
def State.startHandler (s : State) (p i kind : Nat) (pkt : Packet) (timer : Bool) (h7 : Nat) : State :=
  match (s.port p).matching kind pkt.coll with
  | none => s.updPort p (fun k => { k with unmatched := satNat (k.unmatched + 1) 0xFFFF })
  | some pc => s.updPort p (fun k => { k with handlers := k.handlers.put i { pc := pc, regs := entryRegs kind pkt h7, pkt := pkt, timer := timer } })

/-- h7 for a packet of a collective (R405), with the context opened. -/
def State.chunkFor (s : State) (p : Nat) (pkt : Packet) (e : TileEntry) : State × Nat :=
  let r := (s.tile pkt.coll pkt.tile).round
  if pkt.round < r then (s, 0x1000)
  else if r < pkt.round then (s, 0x1001)
  else
    let o := s.openChunk p pkt.coll pkt.tile pkt.chunk pkt.round e
    match o.2 with
    | none => (o.1, 0x1002)
    | some i => (o.1, if ((o.1.port p).chunks.look i).any (fun c => c.tomb) then 0x1000 else i)

/-- Remove the first packet that satisfies a condition from a port's inbox. -/
def takeFirst (f : Packet → Bool) : List Packet → List Packet
  | [] => []
  | p :: rest => if f p then rest else p :: takeFirst f rest

/-- Match one packet at its port (R404). One that this Saddle cannot decrypt is refused, a put with an error (R418); one of a round that ended in
error is discarded (R414); one that names no tile of an enabled collective runs its handler without a chunk context (log entry 74). -/
def State.matchPacket (s : State) (p : Nat) (pkt : Packet) : State :=
  match (s.port p).freeCtx false with
  | none => s
  | some i =>
    let taken := fun (s : State) => s.updPort p (fun k => { k with inbox := takeFirst (fun q => q == pkt) k.inbox })
    if ((s.port p).matching pkt.kind pkt.coll).isNone || pkt.kind = 11 then (taken s).startHandler p i pkt.kind pkt false 0x1002
    else if pkt.kind = 10 then
      if s.jobKey pkt.job then (taken s).startHandler p i 10 pkt false 0x1002
      else (taken s).sendPacket pkt.src { kind := 11, flags := 8, job := pkt.job, src := s.pkg, send := pkt.send }
    else
      let c := s.coll pkt.coll
      let key := s.keyOf pkt.coll
      let x := s.tile pkt.coll pkt.tile
      if !key.valid || key.job != pkt.job then taken s
      else if !c.enabled || c.ntiles ≤ pkt.tile || c.chunks ≤ pkt.chunk then (taken s).startHandler p i pkt.kind pkt false 0x1002
      else if x.failed.has pkt.round || (x.erring.isSome && x.round == pkt.round) then taken s
      else if x.known && x.entry.isNone && pkt.round != x.round then
        (taken s).startHandler p i pkt.kind pkt false (if pkt.round < x.round then 0x1000 else 0x1001)
      else match s.openTile pkt.coll pkt.tile p with
        | .wait s => s
        | .dead s => taken s
        | .ready s e =>
          let r := (taken s).chunkFor p pkt e
          r.1.startHandler p i pkt.kind pkt false r.2

/-- Match the first packet that can be taken: one whose tile waits for a translation holds back only those of its tile (R414, R471). -/
def State.matchFirst (s : State) (p : Nat) : List Packet → List Nat → State
  | [], _ => s
  | k :: rest, behind =>
    if k.kind != 10 && k.kind != 11 && behind.contains (tileKey k.coll k.tile) then s.matchFirst p rest behind
    else
      let t := s.matchPacket p k
      if (t.port p).inbox.length < (s.port p).inbox.length then t else t.matchFirst p rest (tileKey k.coll k.tile :: behind)

/-- Bytes from outside are a packet that arrives now at port p; its port, and the state in which it waits there. `mode` is its delivery mode:
0 reliable unordered, 1 reliable ordered; a frame of another is dropped and counted (R420). A remote memory operation comes as one
(REMOTE_OPERATION), not as bytes. -/
def State.arrival (s : State) (p mode : Nat) (data : List Byte) : State × Nat :=
  if data.isEmpty then (s, p)
  else if 2 ≤ mode then (s.updPort p (fun q => { q with badFrames := satNat (q.badFrames + 1) 0xFFFF }), p)
  else
    let k := Packet.ofBytes data
    if 1 ≤ k.kind && k.kind ≤ 3 then (s, p) else (s.deliver k, s.portOf k)

/-- PACKET_MATCH (R404): the first packet of a port's inbox that runs a handler and can be taken; with data, after their packet, of delivery
mode c, has arrived. -/
def State.packetMatch (s : State) (p mode : Nat) (data : List Byte) : State :=
  let r := s.arrival p mode data
  if (r.1.port r.2).run then r.1.matchFirst r.2 ((r.1.port r.2).inbox.filter Packet.handled) [] else r.1

def execPacketMatch (s : State) : Host.Outcome State Fault Refusal := .next (s.packetMatch s.arg.a s.arg.c s.arg.data)

/-- PACKET_FORWARD (R393, R419): a packet of delivery mode c that arrives at port a for package b leaves undecrypted under the routing table;
one for a package to which there is no way is lost (R422, R469). -/
def execPacketForward (s : State) : Host.Outcome State Fault Refusal :=
  .next (if s.arg.b = s.pkg || 2 ≤ s.arg.c then (s.arrival s.arg.a s.arg.c s.arg.data).1
    else if s.wayTo s.arg.b then { s with sent := s.sent ++ [.forward s.arg.b s.arg.data] }
    else s)

/-- A packet belongs to a chunk context. -/
def Chunk.of (c : Chunk) (k : Packet) : Bool := k.coll == c.coll && k.tile == c.tile && k.chunk == c.chunk && k.round == c.round

/-- An arrival for a chunk context is still to be handled at its port. -/
def SadPort.arriving (q : SadPort) (c : Chunk) : Bool :=
  q.inbox.any (fun k => k.handled && k.kind != 10 && k.kind != 11 && c.of k)
    || q.handlers.any (fun h => !h.2.timer && !h.2.disposed && h.2.pkt.kind != 10 && h.2.pkt.kind != 11 && c.of h.2.pkt)

/-- CHUNK_DEADLINE (R408): the deadline of a context raises a timer event, after the arrivals for the context that are there (R423); h3
and h4 of a timer event are free values. -/
def State.chunkDeadline (s : State) (p i : Nat) : State :=
  match (s.port p).chunks.look i, (s.port p).freeCtx true with
  | some c, some k =>
    if c.tomb || c.raised || !(s.port p).run || (s.port p).arriving c || (match c.deadline with
        | some d => decide ((s.port p).clock < d)
        | none => true) then s
    else
      let v := Config.freeWord s.free
      let pkt : Packet := { kind := 0, src := s.pkg, coll := c.coll, tile := c.tile, chunk := c.chunk, round := c.round,
                            lo := bits v.toNat 15 0, hi := bits v.toNat 31 16 }
      (s.drawn.updPort p (fun q => { q with chunks := q.chunks.put i { c with raised := true } })).startHandler p k 0 pkt true i
  | _, _ => s

def execChunkDeadline (s : State) : Host.Outcome State Fault Refusal := .next (s.chunkDeadline s.arg.a s.arg.b)

/-- The condition of a HOLD holds (R410). -/
def State.holdOver (s : State) (h : Held) : Bool :=
  let x := s.tile h.pkt.coll h.pkt.tile
  x.known && (if h.fired then decide (h.h5 < x.round) || (h.h5 == x.round && x.fired) else decide (h.h5 ≤ x.round))

/-- HELD_PACKET_RELEASE (R410): the packet is presented again as a new arrival. -/
def State.releasePacket (s : State) (i : Nat) : State :=
  match s.sad.held.look i with
  | none => s
  | some h => if s.holdOver h then (s.updSad (fun d => { d with held := d.held.del i })).deliver h.pkt else s

def execHeldPacketRelease (s : State) : Host.Outcome State Fault Refusal := .next (s.releasePacket s.arg.a)

/-! ## Fixed logic -/

/-- An answer to a contribution reaches the tile (R411): an acceptance (9), or a late notice (8), which sets SFLAGS.LATE. -/
def State.takeAnswer (s : State) (p kind : Nat) (data : List Byte) : State :=
  let r := s.arrival p s.arg.c data
  match (r.1.port r.2).inbox.find? (fun k => k.kind == kind) with
  | none => r.1
  | some k =>
    let s := r.1.updPort r.2 (fun q => { q with inbox := takeFirst (fun x => x == k) q.inbox })
    let x := s.tile k.coll k.tile
    if x.fired && x.round == k.round then
      s.updTile k.coll k.tile (fun x => { x with answers := x.answers - 1, sflags := if kind = 8 then Nat.lor x.sflags 2 else x.sflags })
    else s

def execLateNotice (s : State) : Host.Outcome State Fault Refusal := .next (s.takeAnswer s.arg.a 8 s.arg.data)
def execLeafAcceptance (s : State) : Host.Outcome State Fault Refusal := .next (s.takeAnswer s.arg.a 9 s.arg.data)

/-! ## Executing microcode -/

/-- A register of a handler. -/
def Handler.reg (h : Handler) (r : Nat) : Nat := (h.regs.get 0 r).toNat
def Handler.setReg (h : Handler) (r v : Nat) : Handler := { h with regs := h.regs.set 0 r (BitVec.ofNat 64 v) }

/-- Put back the handler that executes. -/
def State.putHandler (s : State) (p k : Nat) (h : Handler) : State := s.updPort p (fun q => { q with handlers := q.handlers.put k h })

/-- Free a packet context. -/
def State.freeHandler (s : State) (p k : Nat) : State := s.updPort p (fun q => { q with handlers := q.handlers.del k })

/-- A microcode fault (R406): the handler ends, the packet is dropped, UCERR counts, the management MSI is raised. -/
def State.ucFault (s : State) (p k : Nat) : State :=
  ((s.freeHandler p k).updPort p (fun q => { q with ucerr := satNat (q.ucerr + 1) 0xFFFF })).pkgMsi 1

/-- Execute one instruction of the handler whose turn it is: its port, its packet context, and the handler moved past the
instruction. More than 256 instructions without a disposal fault (R406). -/
def ucode (s : State) (body : State → Nat → Nat → Handler → State) : State :=
  match s.who with
  | .handler p k => match (s.port p).handlers.look k with
    | some h =>
      if !h.disposed && 256 ≤ h.count then s.ucFault p k
      else body s p k { h with pc := (h.pc + 1) % 4096, count := h.count + 1 }
    | none => s
  | _ => s

/-- The entry that a handler sees (R398): that of its chunk context's round, or of its tile's round, or, with its peer map, what stands in
memory. -/
def State.handlerEntry (s : State) (p : Nat) (k : Packet) : Option TileEntry :=
  match (s.port p).chunks.find? (fun c => c.2.of k) with
  | some c => some c.2.entry
  | none => match (s.tile k.coll k.tile).entry with
    | some e => some e
    | none => match s.engineRead (s.coll k.coll).ctx (s.entryVa k.coll k.tile) 128 with
      | .ok b =>
        let e := TileEntry.ofBytes b
        match s.engineRead (s.coll k.coll).ctx (natOf ((b.drop 0x20).take 8)) (4 * min 512 e.ncontrib) with
        | .ok m =>
          let ws := elements 4 (min 512 e.ncontrib) m
          some { e with pkgs := ws.map (fun w => w % 2 ^ 16), sites := ws.map (fun w => w / 2 ^ 16) }
        | .error _ => some e
      | .error _ => none

/-- The values that LDH selects (R406); none for an unassigned selector. What a packet without a tile has no value for is
free. -/
def State.ucSelect (s : State) (p : Nat) (h : Handler) (sel : Nat) : Option Nat :=
  let k := h.pkt
  let x := s.tile k.coll k.tile
  let c := s.coll k.coll
  let any_ := (Config.freeWord s.free).toNat
  let put := k.kind = 10
  let field := fun (f : TileEntry → Nat) => if put then any_ else match s.handlerEntry p k with
    | some e => f e
    | none => any_
  if sel ≤ 7 then some ([if h.timer then 0 else k.kind, k.coll, k.tile, k.chunk, k.lo, k.hi, k.round, k.src].getD sel 0)
  else if sel = 8 then some k.data.length
  else if sel = 9 then some k.addr
  else if sel = 0x0A then some k.dctr
  else if sel = 0x10 then some (field (·.ncontrib))
  else if sel = 0x11 then some (field (·.myidx))
  else if sel = 0x12 then some (if put then any_ else x.round)
  else if sel = 0x13 then some (if put then any_ else (s.entryRead k.coll k.tile 0x38 1).getD any_)
  else if sel = 0x14 then some (field (·.bkfor))
  else if sel = 0x15 then some (field (·.bkto))
  else if sel = 0x16 then some (field (fun e => e.result + k.lo * e.outTile c + k.chunk * 256 * elemBytes e.out))
  else if sel = 0x17 then some (field (fun e => e.result + k.chunk * 256 * elemBytes e.out))
  else if sel = 0x20 then some p
  else if sel = 0x21 then some s.pkg
  else if sel = 0x22 then some (s.port p).clock
  else none

def execUcLdh (d : BitVec 4) (sel : BitVec 8) (s : State) : Host.Outcome State Fault Refusal :=
  .next (ucode s (fun s p k h => match s.ucSelect p h sel.toNat with
    | some v => s.drawn.putHandler p k (h.setReg d.toNat v)
    | none => s.ucFault p k))

def execUcSeth (d : BitVec 4) (i : BitVec 20) (s : State) : Host.Outcome State Fault Refusal :=
  .next (ucode s (fun s p k h => s.putHandler p k (h.setReg d.toNat (i.signExtend 64).toNat)))

def execUcAddh (d : BitVec 4) (a : BitVec 4) (i : BitVec 16) (s : State) : Host.Outcome State Fault Refusal :=
  .next (ucode s (fun s p k h => s.putHandler p k (h.setReg d.toNat (h.reg a.toNat + (i.signExtend 64).toNat))))

/-- The conditions of CMPJ (R406); 6 and 7 are none. -/
def ucCond (c a b : Nat) : Option Bool :=
  match c with
  | 0 => some (a == b)
  | 1 => some (a != b)
  | 2 => some (decide (a < b))
  | 3 => some (decide (b ≤ a))
  | 4 => some (a == 0)
  | 5 => some (a != 0)
  | _ => none

def execUcCmpj (a : BitVec 4) (b : BitVec 4) (c : BitVec 3) (t : BitVec 12) (s : State) : Host.Outcome State Fault Refusal :=
  .next (ucode s (fun s p k h => match ucCond c.toNat (h.reg a.toNat) (h.reg b.toNat) with
    | some yes => if 4 ≤ c.toNat && b != 0 then s.ucFault p k else s.putHandler p k (if yes then { h with pc := t.toNat } else h)
    | none => s.ucFault p k))

def execUcJmp (t : BitVec 12) (s : State) : Host.Outcome State Fault Refusal :=
  .next (ucode s (fun s p k h => s.putHandler p k { h with pc := t.toNat }))

/-! ## Combining -/

/-- What climbing from a node comes to: the context; and the node it stopped at, with 0 held, 1 to be sent to an effective
site, 2 the root; combinations made. -/
structure Climb where
  x : Chunk
  node : Node
  out : Nat
  dst : Nat := 0
  made : Nat := 0
  deriving DecidableEq, Repr

/-- A node with these bounds that a context holds. -/
def Chunk.held (x : Chunk) (lo hi : Nat) : Option Node := x.nodes.find? (fun n => n.lo == lo && n.hi == hi)
def Chunk.drop (x : Chunk) (lo hi : Nat) : Chunk := { x with nodes := x.nodes.filter (fun n => !(n.lo == lo && n.hi == hi)) }

/-- Every leaf of a range is marked absent or filled. -/
def Chunk.allGone (x : Chunk) (lo hi : Nat) : Bool := (upFrom lo (hi - lo)).all (fun j => x.gone.has j)

/-- The loop of COMB (R407): combine with siblings that the context holds. -/
def climb (e : TileEntry) (esite : Nat → Nat → Nat) (pkg : Nat) : Nat → Chunk → Node → Nat → Climb
  | 0, x, n, made => { x := x, node := n, out := 0, made := made }
  | f + 1, x, n, made =>
    if n.lo = 0 && n.hi = e.ncontrib then { x := { x with tomb := true }, node := n, out := 2, made := made }
    else
      let p := parentOf e.ncontrib n.lo n.hi
      let site := esite p.1 p.2
      if site != pkg then { x := if x.nodes.isEmpty then { x with tomb := true } else x, node := n, out := 1, dst := site, made := made }
      else
        let sib := siblingOf p n.lo n.hi
        match x.held sib.1 sib.2 with
        | some m =>
          let j := if n.lo = p.1 then joinNodes e.op n m else joinNodes e.op m n
          climb e esite pkg f (x.drop sib.1 sib.2) j (made + 1)
        | none => { x := { x with nodes := x.nodes ++ [n] }, node := n, out := 0, made := made }

/-- A subtree that is missing at a deadline (R408): what the context holds of it, backups, and absent leaves; combinations
made. -/
def fillNode (op : Nat) : Nat → Chunk → Nat → Nat → Chunk × Node × Nat
  | 0, x, lo, _ => (x, absentLeaf lo, 0)
  | f + 1, x, lo, hi =>
    match x.held lo hi with
    | some n => (x.drop lo hi, n, 0)
    | none =>
      if hi ≤ lo + 1 then
        let x' := { x with gone := x.gone.ins lo, covered := x.covered.ins lo, backups := x.backups.filter (fun b => b.lo != lo) }
        match x.backups.find? (fun b => b.lo == lo) with
        | some b => (x', { b with backup := true }, 0)
        | none => (x', absentLeaf lo, 0)
      else
        let l := fillNode op f x lo (splitOf lo hi)
        let r := fillNode op f l.1 (splitOf lo hi) hi
        (r.1, joinNodes op l.2.1 r.2.1, l.2.2 + r.2.2 + 1)

/-- The end of COMB and of TMO: h3, h4, h8, h15, the packet formed, the combining lanes (R394, R407). -/
def State.ucFormed (s : State) (p k i : Nat) (h : Handler) (c : Climb) (e : TileEntry) : State :=
  let job := (s.keyOf c.x.coll).job
  let s := s.updPort p (fun q => { q with chunks := q.chunks.put i c.x, busy := q.busy + 4 * c.made })
  let h := { h with disposed := true }
  if c.out = 1 then
    let h := (((h.setReg 3 c.node.lo).setReg 4 c.node.hi).setReg 8 c.dst).setReg 15 1
    s.putHandler p k { h with formed := some { c.node.partialOf job c.x.coll c.x.tile c.x.chunk c.x.round with src := s.pkg } }
  else if c.out = 2 then
    s.putHandler p k { h.setReg 15 2 with formed := some { c.node.resultOf e.out job c.x.coll c.x.tile c.x.chunk c.x.round with src := s.pkg } }
  else s.putHandler p k { h.setReg 15 0 with formed := none }

/-- A late packet (R411): discarded; one that is no partial, result or backup of a reduction, and no put, is counted and answered. -/
def State.latePacket (s : State) (k : Packet) : State :=
  if !([5, 6, 7, 10, 11].contains k.kind) then (s.updColl k.coll (fun c => { c with late := satNat (c.late + 1) 0xFFFF })).answer k 8 else s

/-- The context that an operand register names; none where it is a sentinel or names none (R406). -/
def State.ucContext (s : State) (p : Nat) (h : Handler) (r : Nat) : Option (Nat × Chunk × TileEntry) :=
  let i := h.reg r
  match (s.port p).chunks.look i with
  | some x => if 0x1000 ≤ i then none else some (i, x, x.entry)
  | none => none

/-- What COMB and TMO leave where they form nothing: the packet is disposed of, and h15 is 0 (R407). -/
def Handler.nothing (h : Handler) : Handler := { h.setReg 15 0 with disposed := true, formed := none, wait := none }

/-- COMB (R407): insert [h3, h4) and combine upward, while the key slot holds the job's key (R418). A leaf whose range TMO has filled is late;
a partial there is dropped (R411). -/
def execUcComb (c : BitVec 4) (s : State) : Host.Outcome State Fault Refusal :=
  .next (ucode s (fun s p k h => if !(s.keyOf h.pkt.coll).valid then s.putHandler p k h.nothing else match s.ucContext p h c.toNat with
    | none => s.ucFault p k
    | some (i, x, e) =>
      let n := { h.pkt.node with lo := h.reg 3 % 2 ^ 16, hi := h.reg 4 % 2 ^ 16 }
      let range := upFrom n.lo (n.hi - n.lo)
      let gone := fun (s : State) => s.putHandler p k h.nothing
      if !isNode treeFuel 0 e.ncontrib n.lo n.hi then gone s
      else if range.any (fun j => x.gone.has j) || x.tomb then gone (if n.hi = n.lo + 1 then s.latePacket h.pkt else s)
      else if (x.held n.lo n.hi).isSome then gone (s.updPort p (fun q => { q with dup := satNat (q.dup + 1) 0xFFFF }))
      else
        let s := if n.hi = n.lo + 1 && h.pkt.kind != 7 then s.answer h.pkt 9 else s
        let x := { x with covered := range.foldl NatSet.ins x.covered, backups := x.backups.filter (fun b => !(n.hi = n.lo + 1 && b.lo == n.lo)) }
        s.ucFormed p k i h (climb e (e.esite (s.trusts (s.coll x.coll).keySlot)) s.pkg treeFuel x n 0) e))

/-- The held node whose missing sibling subtree is the lowest (R408). -/
def Chunk.lowest (x : Chunk) (c : Nat) : Option Node :=
  let key := fun (n : Node) => let sib := siblingOf (parentOf c n.lo n.hi) n.lo n.hi; heightOf treeFuel sib.1 sib.2 * 1024 + n.lo
  x.nodes.foldl (fun b n => match b with
    | none => some n
    | some m => if key n < key m then some n else some m) none

/-- TMO of a reduction (R408): the missing sibling subtree of each held node is filled, lowest first, and nodes are formed as COMB forms them:
the context, combinations made, the nodes that are for another package, and the root if it is formed. -/
def fillAll (e : TileEntry) (esite : Nat → Nat → Nat) (pkg : Nat) :
    Nat → Chunk → Nat → List (Node × Nat) → Chunk × Nat × List (Node × Nat) × Option Node
  | 0, x, made, out => (x, made, out, none)
  | f + 1, x, made, out =>
    match x.lowest e.ncontrib with
    | none => (x, made, out, none)
    | some n =>
      let p := parentOf e.ncontrib n.lo n.hi
      if esite p.1 p.2 != pkg then fillAll e esite pkg f (x.drop n.lo n.hi) made (out ++ [(n, esite p.1 p.2)])
      else
        let sib := siblingOf p n.lo n.hi
        let r := fillNode e.op treeFuel (x.drop n.lo n.hi) sib.1 sib.2
        let j := if n.lo = p.1 then joinNodes e.op n r.2.1 else joinNodes e.op r.2.1 n
        let c := climb e esite pkg treeFuel r.1 j (made + r.2.2 + 1)
        match c.out with
        | 2 => (c.x, c.made, out, some c.node)
        | 1 => fillAll e esite pkg f c.x c.made (out ++ [(c.node, c.dst)])
        | _ => fillAll e esite pkg f c.x c.made out

/-- What TMO comes to (R408): the root; or the first node that is for another package, while the context holds the others for the next TMO;
or nothing. -/
def fillUp (e : TileEntry) (esite : Nat → Nat → Nat) (pkg : Nat) (f : Nat) (x : Chunk) (made : Nat) : Climb :=
  let r := fillAll e esite pkg f x made []
  match r.2.2.2, r.2.2.1 with
  | some root, _ => { x := r.1, node := root, out := 2, made := r.2.1 }
  | none, [] => { x := r.1, node := absentLeaf 0, out := 0, made := r.2.1 }
  | none, (n, dst) :: rest =>
    let nodes := r.1.nodes ++ rest.map (·.1)
    { x := { r.1 with nodes := nodes, tomb := nodes.isEmpty }, node := n, out := 1, dst := dst, made := r.2.1 }

/-- The payload as it is written: converted to the output format, but for a multicast of the same format (R413). -/
def Packet.written (k : Packet) (out : Nat) : List (Byte × Bool) :=
  if k.kind = 6 || (k.kind = 13 && k.fmt = out) then withPoison k.data k.poison
  else withPoison (roundTo out (widen k.fmt k.data)) (roundPoison out (widenPoison k.fmt k.poison))

/-- What TMO of a gather comes to: it has gone through every absent contributor; a write waits; or one failed at an address. -/
inductive Gathered where
  | done (s : State)
  | wait (s : State) (w : Wait)
  | fail (s : State) (va : Nat)

/-- TMO of a gather (R413, R409): for each absent contributor that is left, its backup is written in its place, or it enters MISSING. A
write whose translation is missing waits, and goes on from there (R414). Where RESULT is 0 nothing is written or noted (R412). -/
def State.gatherTimeout (s : State) (p i : Nat) (x : Chunk) (e : TileEntry) (w : Wait) : List Nat → Gathered
  | [] => .done (s.updPort p (fun q => { q with chunks := q.chunks.upd i (fun x => { x with tomb := true }) }))
  | j :: rest =>
    let c := s.coll x.coll
    let gone := fun (s : State) => s.updPort p (fun q => { q with chunks := q.chunks.upd i (fun x => { x with gone := x.gone.ins j }) })
    if e.result = 0 then (gone s).gatherTimeout p i x e none rest
    else match x.backups.find? (fun b => b.lo == j) with
    | none => ((gone s).updTile x.coll x.tile (fun t => { t with
        missing := Nat.lor t.missing (2 ^ j), written := t.written.ins (j * 64 + x.chunk) })).gatherTimeout p i x e none rest
    | some b =>
      let bs := withPoison (roundTo e.out (b.vals.getD [])) (roundPoison e.out b.poison)
      match s.reach p c.ctx (e.result + j * e.outTile c + x.chunk * 256 * elemBytes e.out) bs.length true w with
      | .go s l => ((gone (s.writePieces l bs)).updTile x.coll x.tile (fun t => { t with
          sflags := Nat.lor t.sflags 8, written := t.written.ins (j * 64 + x.chunk), nan := min t.nan b.nan })).gatherTimeout p i x e none rest
      | .wait s w => .wait s w
      | .fail s _ va => .fail s va

/-- TMO (R408), while the key slot holds the job's key (R418). A reduction notes the use of a backup in SFLAGS. -/
def execUcTmo (c : BitVec 4) (s : State) : Host.Outcome State Fault Refusal :=
  .next (ucode s (fun s p k h => if !(s.keyOf h.pkt.coll).valid then s.putHandler p k h.nothing else match s.ucContext p h c.toNat with
    | none => s.ucFault p k
    | some (i, x, e) =>
      if (s.coll x.coll).kind = 3 then
        let done := h.nothing
        match s.gatherTimeout p i x e h.wait ((upFrom 0 e.ncontrib).filter (fun j => !x.covered.has j && !x.gone.has j)) with
        | .done s => s.putHandler p k done
        | .wait s w => s.putHandler p k { h with pc := (h.pc + 4095) % 4096, count := h.count - 1, wait := w }
        | .fail s va => (s.putHandler p k done).tileError x.coll x.tile va
      else
        let r := fillUp e (e.esite (s.trusts (s.coll x.coll).keySlot)) s.pkg (e.ncontrib + 1) x 0
        let used := x.backups.any (fun b => r.x.gone.has b.lo)
        let s := if used && (s.tile x.coll x.tile).round == x.round
          then s.updTile x.coll x.tile (fun t => { t with sflags := Nat.lor t.sflags 8 }) else s
        s.ucFormed p k i h r e))

/-- BKUP (R409): the backup waits in the chunk context, unless the original is there already. -/
def execUcBkup (c : BitVec 4) (s : State) : Host.Outcome State Fault Refusal :=
  .next (ucode s (fun s p k h => match s.ucContext p h c.toNat with
    | none => s.ucFault p k
    | some (i, x, _) =>
      let x := if x.tomb || x.covered.has h.pkt.lo || x.gone.has h.pkt.lo then x else { x with backups := x.backups ++ [h.pkt.node] }
      (s.updPort p (fun q => { q with chunks := q.chunks.put i x })).putHandler p k { h with disposed := true }))

/-! ## Disposing of packets -/

/-- HOLD (R410): the packet enters the collective's reservation and its context is freed; with no room it acts as DROP with
reason 2, and the handler goes on. -/
def execUcHold (m : BitVec 1) (s : State) : Host.Outcome State Fault Refusal :=
  .next (ucode s (fun s p k h =>
    if s.cbufFull h.pkt.coll (32 + h.pkt.data.length + (if h.pkt.kind = 6 then 64 else 0)) then
      (s.putHandler p k { h with disposed := true }).tileError h.pkt.coll h.pkt.tile 0
    else (s.freeHandler p k).updSad (fun d => { d with
      held := d.held.put d.nextHeld { pkt := h.pkt, fired := m == 1, h5 := h.reg 5 }, nextHeld := d.nextHeld + 1 })))

/-- FWD (R406): the node that the last COMB or TMO formed, or else the packet as received. -/
def execUcFwd (r : BitVec 4) (s : State) : Host.Outcome State Fault Refusal :=
  .next (ucode s (fun s p k h => (s.sendColl (h.reg r.toNat) (h.formed.getD h.pkt)).putHandler p k { h with disposed := true }))

/-- MCST (R406): to each distinct package of the peer map, this one included. -/
def execUcMcst (s : State) : Host.Outcome State Fault Refusal :=
  .next (ucode s (fun s p k h =>
    let ds := match s.handlerEntry p h.pkt with
      | some e => e.packages
      | none => []
    (ds.foldl (fun s d => s.sendColl d (h.formed.getD h.pkt)) s).putHandler p k { h with disposed := true }))

/-- DROP (R406): silently, as late, or as a collective error on the tile. -/
def execUcDrop (r : BitVec 4) (s : State) : Host.Outcome State Fault Refusal :=
  .next (ucode s (fun s p k h =>
    let h' := { h with disposed := true }
    let why := h.reg r.toNat
    let s := s.putHandler p k h'
    if why = 1 then (if h.timer then s else s.latePacket h.pkt) else if why = 2 then s.tileError h.pkt.coll h.pkt.tile 0 else s))

/-- The context of the Awl that owns a counter, in which a put is written (R438); a free port where none is named. -/
def State.putCtx (s : State) (p : Nat) : Nat := (s.awl p).ctx

/-- A counted put is refused (R415, R438): its counter is not enabled, belongs to another job, or its owner has no context. -/
def State.putRefused (s : State) (p : Nat) (k : Packet) : Bool :=
  let c := s.sad.ctrs.get {} k.dctr
  (s.ctx (s.putCtx p)).ptRoot % 2 == 0 || (k.dctr != 0xFFFF && (!c.en || c.job != k.job || decide (4096 ≤ k.dctr)))

/-- GATH (R406, R415): the payload at h[A], in the collective's context or for a put in that of its counter's Awl. A failed
access is a collective error, or an error of the put; a refused put writes nothing. -/
def execUcGath (a : BitVec 4) (s : State) : Host.Outcome State Fault Refusal :=
  .next (ucode s (fun s p k h =>
    let put := h.pkt.kind = 10
    let done := { h with disposed := true, wait := none }
    let ctx := if put then s.putCtx p else (s.coll h.pkt.coll).ctx
    let out := ((s.tile h.pkt.coll h.pkt.tile).entry.map (·.out)).getD h.pkt.fmt
    let bs := if h.pkt.kind = 12 then h.pkt.written out else withPoison h.pkt.data h.pkt.poison
    if put && (h.err || s.putRefused p h.pkt) then s.putHandler p k { done with err := true }
    else match s.reach p ctx (h.reg a.toNat) bs.length true h.wait with
      | .wait s w => s.putHandler p k { h with pc := (h.pc + 4095) % 4096, count := h.count - 1, wait := w }
      | .fail s _ va =>
        let s := s.putHandler p k { done with err := put }
        if put then s else s.tileError h.pkt.coll h.pkt.tile va
      | .go s l => (s.writePieces l bs).putHandler p k done))

/-- DONE (R412, R413): a result, gather or multicast chunk is written where it belongs, and its status noted; where RESULT
is 0 the piece is only disposed of. Gather and multicast pieces are acknowledged. -/
def execUcDone (s : State) : Host.Outcome State Fault Refusal :=
  .next (ucode s (fun s p k h =>
    let q := h.pkt
    let done := { h with disposed := true, wait := none }
    let piece := q.kind = 12 || q.kind = 13
    match (s.tile q.coll q.tile).entry with
    | none => s.putHandler p k done
    | some e =>
      if e.result = 0 || (s.tile q.coll q.tile).round != q.round then
        (if piece then s.answer q 9 else s).putHandler p k done
      else
        let c := s.coll q.coll
        let bs := q.written e.out
        let va := e.result + (if q.kind = 12 then q.lo * e.outTile c else 0) + q.chunk * 256 * elemBytes e.out
        match s.reach p c.ctx va bs.length true h.wait with
        | .wait s w => s.putHandler p k { h with pc := (h.pc + 4095) % 4096, count := h.count - 1, wait := w }
        | .fail s _ a => (s.putHandler p k done).tileError q.coll q.tile a
        | .go s l =>
          let nan := if q.kind = 6 then q.addr % 2 ^ 16 else if (widen q.fmt q.data).any nan32 then q.lo else 0xFFFF
          let s := (s.writePieces l bs).updTile q.coll q.tile (fun t => { t with
            written := t.written.ins (if q.kind = 12 then q.lo * 64 + q.chunk else q.chunk)
            missing := Nat.lor t.missing q.missing, nan := min t.nan nan
            incomplete := t.incomplete || bit q.flags 0, sflags := if bit q.flags 1 then Nat.lor t.sflags 8 else t.sflags })
          let i := h.reg 7
          let s := match (s.port p).chunks.look i with
            | some x => if piece && i < 0x1000 then s.updPort p (fun r => { r with chunks := r.chunks.put i { x with covered := x.covered.ins q.lo } }) else s
            | none => s
          (if piece then s.answer q 9 else s).putHandler p k done))

end Sys2Proof.Machine
end

