-- ==== Sys2Proof/Machine/Sends.lean ====
section
/-! DEFINITION. Receive counters (R415, R423), triggered sends (R416, R417, R438 to R440), counted puts and the end of their
handlers (R406, R415). -/

namespace Sys2Proof.Machine

def State.ctr (s : State) (c : Nat) : RCtr := s.sad.ctrs.get {} c
def State.updCtr (s : State) (c : Nat) (f : RCtr → RCtr) : State := s.updSad (fun d => { d with ctrs := d.ctrs.put c (f (s.ctr c)) })
def State.send (s : State) (e : Nat) : Send := s.sad.sends.get {} e
def State.updSend (s : State) (e : Nat) (f : Send → Send) : State := s.updSad (fun d => { d with sends := d.sends.put e (f (s.send e)) })

/-- A field of a send's image (R416). -/
def Send.field (x : Send) (o n : Nat) : Nat := natOf ((x.image.drop o).take n)
def Send.counter (x : Send) : Nat := x.field 0 2
def Send.owner (x : Send) : Nat := x.field 3 1
def Send.job (x : Send) : Nat := x.field 4 2
def Send.dpkg (x : Send) : Nat := x.field 6 2
def Send.thresh (x : Send) : Nat := x.field 8 8
def Send.src (x : Send) : Nat := x.field 0x10 8
def Send.length (x : Send) : Nat := x.field 0x18 4
def Send.dctr (x : Send) : Nat := x.field 0x1C 2
def Send.daddr (x : Send) : Nat := x.field 0x20 8
def Send.dbar (x : Send) : Nat := x.field 0x28 8

/-- CTL of a send (R416). -/
def Send.ctl (x : Send) : Nat := b2n x.arm + 2 * b2n x.credit + 4 * b2n x.fired + 8 * b2n x.done + 16 * b2n x.err

/-- An event of an Awl's pending set (R436). -/
def State.awlEvent (s : State) (n b : Nat) : State := s.updAwl n (fun a => { a with pend := Nat.lor a.pend (2 ^ b) })

/-- A send ends: DONE, ERR with it where one put failed, and the events of its owner (R417, R436). -/
def State.endSend (s : State) (e : Nat) (err : Bool) : State :=
  let n := (s.send e).owner
  let s := (s.updSend e (fun x => { x with done := true, err := err, reading := false, wait := none })).awlEvent n 0
  if err then s.awlEvent n 4 else s

/-- A port's sends may go to a package (R439, R469): its bit in ALLOW, and the egress port that the routing table chooses in
EGRESS; a packet for this package leaves through none. -/
def State.sendAllowed (s : State) (n pkg : Nat) : Bool :=
  let a := s.awl n
  pkg < 512 && bit (a.allow.get 0 (pkg / 64)).toNat (pkg % 64)
    && (pkg == s.pkg || (match s.egressOf pkg with
      | some k => bit a.egress k
      | none => false))

/-- A send fires (R417, R439): FIRED set, ARM cleared; where a check fails now it ends with an error. -/
def State.fireSend (s : State) (e : Nat) : State :=
  let x := s.send e
  let s := s.updSend e (fun x => { x with arm := false, fired := true, stamp := (s.port x.owner).clock })
  if s.sendAllowed x.owner x.dpkg then s.updSend e (fun x => { x with reading := true, left := 0, failed := false }) else s.endSend e true

/-- An armed send whose threshold its counter meets (R417). -/
def State.sendDue (s : State) (e : Nat) : Bool :=
  let x := s.send e
  x.arm && decide (x.thresh ≤ (s.ctr x.counter).val.toNat)

/-- Every armed send of a counter that meets its threshold fires, in ascending entry number (R417). -/
def State.fireDue (s : State) (c : Nat) : State :=
  s.sad.sends.keys.foldl (fun s e => if (s.send e).counter = c && s.sendDue e then s.fireSend e else s) s

/-- A counter takes a value, and the sends that it meets fire in that clock (R417, R435). -/
def State.setCtr (s : State) (c v : Nat) : State := (s.updCtr c (fun k => { k with val := BitVec.ofNat 64 v })).fireDue c

/-- RCTR_WRITE (R423, R424): system software writes a receive counter. -/
def execRctrWrite (s : State) : Host.Outcome State Fault Refusal := .next (s.setCtr s.arg.a s.arg.b)

/-- The puts of a fired send, of at most 4,096 bytes each (R417). -/
def putsOf (pkg e : Nat) (x : Send) (bs : List (Byte × Bool)) : Nat → Nat → List Packet
  | 0, _ => []
  | n + 1, off =>
    let mine := (bs.drop off).take 4096
    if mine.isEmpty then []
    else
      { kind := 10, flags := 4 * b2n x.credit, job := x.job, src := pkg, poison := poisonOf mine, addr := (x.daddr + off) % 2 ^ 64,
        data := mine.map (·.1), dbar := x.dbar, dctr := x.dctr, send := e } :: putsOf pkg e x bs n (off + 4096)

/-- TRIGGERED_SEND_FIRE (R417): an armed send whose threshold is met fires; a fired one reads its source at package scope in
the context of its owner's Awl (R438) and queues its puts, after the lower entries of its port that fired in the same clock. -/
def State.triggered (s : State) (e : Nat) : State :=
  let s := if s.sendDue e then s.fireSend e else s
  let x := s.send e
  let before := fun (q : Nat × Send) => decide (q.1 < e) && q.2.reading && q.2.owner == x.owner && q.2.stamp == x.stamp
  if !x.reading || s.sad.sends.any before then s
  else
    let ctx := (s.awl x.owner).ctx
    match s.reach x.owner ctx x.src x.length false x.wait with
    | .wait s w => s.updSend e (fun x => { x with wait := w })
    | .fail s _ _ => s.endSend e true
    | .go s l =>
      let r := s.readPieces l
      let ps := putsOf s.pkg e x r.2 256 0
      (r.1.updSend e (fun x => { x with reading := false, wait := none, left := ps.length })).updPort x.owner
        (fun k => { k with puts := k.puts ++ ps.map (fun p => (x.dpkg, p)) })

def execTriggeredSendFire (s : State) : Host.Outcome State Fault Refusal := .next (s.triggered s.arg.a)

/-- Bytes that a port may put in a window (R440, AWLn_RATE). -/
def rateOf (bytes : Nat) : Nat := if bytes = 0 then 0 else max bytes 4096

/-- One put of a send has been acknowledged (R417). -/
def State.ackPut (s : State) (e : Nat) (err : Bool) : State :=
  let x := s.send e
  if !x.fired || x.done || x.left = 0 then s
  else
    let s := s.updSend e (fun x => { x with left := x.left - 1, failed := x.failed || err })
    if x.left = 1 then s.endSend e (x.failed || err) else s

/-- PUT_INJECT (R440): the first put of a port leaves when the window's allowance covers it. One to a package to which there is no way (R422,
R469), or that cannot be encrypted (R418), fails. -/
def State.injectPut (s : State) (n : Nat) : State :=
  let k := s.port n
  match k.puts with
  | [] => s
  | (dst, p) :: rest =>
    if rateOf (s.awl n).rate < k.used + p.data.length then s
    else
      let s := s.updPort n (fun k => { k with puts := rest, used := k.used + p.data.length })
      if (dst = s.pkg || s.wayTo dst) && s.jobKey p.job then s.sendPacket dst p else s.ackPut p.send true

def execPutInject (s : State) : Host.Outcome State Fault Refusal := .next (s.injectPut s.arg.a)

/-- PUT_ACKNOWLEDGEMENT (R417): an acknowledgement reaches the port of its send, which counts it; then its handler runs (R393). -/
def State.putAck (s : State) (p mode : Nat) (data : List Byte) : State :=
  let r := s.arrival p mode data
  match (r.1.port r.2).inbox.find? (fun k => k.kind == 11 && !k.seen) with
  | none => r.1
  | some k => (r.1.updPort r.2 (fun q => { q with inbox := takeFirst (fun x => x == k) q.inbox ++ [{ k with seen := true }] })).ackPut k.send (bit k.flags 3)

def execPutAcknowledgement (s : State) : Host.Outcome State Fault Refusal := .next (s.putAck s.arg.a s.arg.c s.arg.data)

/-! ## The end of a put's handler -/

/-- CNTA (R406, R415): h[B] is added to counter h[N], as a release of the bytes written, and the bytes are credited to the
put's barrier object; a refused put counts nothing. -/
def execUcCnta (n : BitVec 4) (b : BitVec 4) (s : State) : Host.Outcome State Fault Refusal :=
  .next (ucode s (fun s p k h =>
    let done := { h with disposed := true, wait := none }
    if h.pkt.kind = 10 && (h.err || s.putRefused p h.pkt) then s.putHandler p k { done with err := true }
    else
      let c := h.reg n.toNat
      let s := if h.counted || 4096 ≤ c then s
        else (s.setCtr c ((s.ctr c).val.toNat + h.reg b.toNat)).awlEvent (s.ctr c).owner 1
      if !bit h.pkt.flags 2 then s.putHandler p k done
      else if h.pkt.dbar % 16 != 0 then s.putHandler p k { done with err := true }
      else match s.reach p (s.putCtx p) h.pkt.dbar 16 true h.wait with
        | .wait s w => s.putHandler p k { h with pc := (h.pc + 4095) % 4096, count := h.count - 1, counted := true, wait := w }
        | .go s [x] => match x.home with
          | .remote pkg =>
            if s.wayTo pkg then ({ s with sent := s.sent ++ [Sent.remoteCredit pkg x.addr (h.reg b.toNat) x.bad false] } : State).putHandler p k done
            else s.putHandler p k { done with err := true }
          | _ => if x.bad then s.putHandler p k { done with err := true } else
            let r := s.pieceBar x (.credit (h.reg b.toNat) false false)
            r.1.putHandler p k { done with err := r.2 }
        | _ => s.putHandler p k { done with err := true }))

/-- END (R406): the packet context is freed; a put is acknowledged, with ERR where it was refused or failed (R415, R417). -/
def execUcEnd (s : State) : Host.Outcome State Fault Refusal :=
  .next (ucode s (fun s p k h =>
    if !h.disposed then s.ucFault p k
    else
      let s := s.freeHandler p k
      if h.pkt.kind = 10 then
        s.sendPacket h.pkt.src { kind := 11, flags := 8 * b2n h.err, job := h.pkt.job, src := s.pkg, send := h.pkt.send }
      else s))

/-! ## The engine's turn -/

/-- A handler that may issue: it does not wait for a walk, and the combining lanes are free for COMB and TMO (R394). -/
def State.handlerReady (s : State) (p : Nat) (h : Handler) : Bool :=
  let op := ((s.port p).store.get 0 h.pc).toNat / 2 ^ 28
  (match h.wait with
    | some (req, false) => (s.ms.walks.look req).isNone
    | _ => true)
    && ((op != 5 && op != 0xC) || (s.port p).busy == 0)

/-- The packet context that issues in this clock, round-robin (R394). -/
def State.handlerPick (s : State) (p : Nat) : Option Nat :=
  let l := ((s.port p).handlers.filter (fun h => s.handlerReady p h.2)).map (·.1)
  match l.find? (fun k => decide ((s.port p).last < k)) with
  | some k => some k
  | none => l.head?

/-- What a port engine does in a clock. -/
inductive HandlerDo where
  | idle
  | issue (s : State) (i : Instr)
  | bad (s : State)

/-- One clock of a port engine: fetch the word of the context whose turn it is (R394, R404, R406). -/
def State.handlerTurn (s : State) (p : Nat) : HandlerDo :=
  if !(s.port p).run || (s.port p).acted then .idle
  else match s.handlerPick p with
    | none => .idle
    | some k =>
      let s := s.updPort p (fun q => { q with last := k, acted := true })
      match (s.port p).handlers.look k with
      | none => .idle
      | some h => match decodeMicro ((s.port p).store.get 0 h.pc) with
        | some i => .issue { s with who := .handler p k } i
        | none => .bad (s.ucFault p k)

end Sys2Proof.Machine
end

