-- ==== Sys2Proof/Machine/LaneInt.lean ====
section
/-! DEFINITION. Integer instructions of the LANE class (R153 to R159), random numbers (R170) and moves (R171, R172). -/

namespace Sys2Proof

/-- W64, NAT, SAT and SUB of an integer instruction (R153). -/
def FmtA.w64 (f : FmtA) : Bool := f.md.toNat % 2 == 1
def FmtA.nat (f : FmtA) : Bool := f.md.toNat / 2 % 2 == 1
def FmtA.sat (f : FmtA) : Bool := f.md.toNat / 4 % 2 == 1
def FmtA.sub (f : FmtA) : Nat := f.md.toNat / 8

/-- Operand width in bits. -/
def FmtA.width (f : FmtA) : Nat := if f.w64 then 64 else 32

namespace Machine

/-- A value read as signed or natural (R154). -/
def intVal (nat : Bool) (w x : Nat) : Int := if nat then (x : Int) else sext x w

/-- An exact integer brought to width w: saturated, or modulo 2^w (R154, R155). -/
def narrow (nat sat : Bool) (w : Nat) (x : Int) : Nat :=
  if sat then wrap (if nat then satInt x 0 (2 ^ w - 1) else satInt x (-(2 ^ (w - 1))) (2 ^ (w - 1) - 1)) w else wrap x w

/-- Registers of an operand of the instruction's width. -/
def FmtA.regs1 (f : FmtA) : Nat := if f.w64 then 2 else 1

/-- An integer instruction of R154 on A, B and C of the instruction's width, read per NAT. -/
def intA (f : FmtA) (s : State) (nb nc : Nat) (op : Int → Int → Int → Int) : State :=
  let n := if f.w64 then 2 else 1
  laneOp s f.msel.toNat f.pclass.toNat (regsA f n (nb * n) (nc * n) n) (fun _ _ t =>
    let v := fun z r => intVal f.nat f.width (t.vopw f.w64 z r)
    resultWrites f.w64 f.dst.toNat (narrow f.nat f.sat f.width
      (op (v f.za f.a.toNat) (v f.zb f.b.toNat) (v f.zc f.c.toNat))))

/-- The MOD = 0 variant with the immediate as B: 32-bit signed operands (R49, R149). -/
def intI (f : FmtI) (s : State) (op : Int → Int → Int) : State :=
  laneOp s f.msel.toNat f.pclass.toNat [(f.a.toNat, 1), (f.dst.toNat, 1)] (fun _ _ t =>
    [(f.dst.toNat, wrap (op (sext (t.vreg f.a.toNat) 32) f.imm.toInt) 32)])

/-- A bitwise instruction of patterns (R154). -/
def bitA (f : FmtA) (s : State) (nb : Nat) (op : Nat → Nat → Nat) : State :=
  let n := if f.w64 then 2 else 1
  laneOp s f.msel.toNat f.pclass.toNat (regsA f n (nb * n) 0 n) (fun _ _ t =>
    resultWrites f.w64 f.dst.toNat (op (t.vopw f.w64 f.za f.a.toNat) (t.vopw f.w64 f.zb f.b.toNat)))

def bitI (f : FmtI) (s : State) (op : Nat → Nat → Nat) : State :=
  laneOp s f.msel.toNat f.pclass.toNat [(f.a.toNat, 1), (f.dst.toNat, 1)] (fun _ _ t =>
    [(f.dst.toNat, op (t.vreg f.a.toNat) (f.simm 32))])

/-- A shift: the count is a single register, its low 5 or 6 bits (R154, R155). -/
def shiftA (f : FmtA) (s : State) (op : Nat → Nat → Nat → Nat) : State :=
  let n := if f.w64 then 2 else 1
  laneOp s f.msel.toNat f.pclass.toNat (regsA f n 1 0 n) (fun _ _ t =>
    resultWrites f.w64 f.dst.toNat (op f.width (t.vopw f.w64 f.za f.a.toNat) (t.vop f.zb f.b.toNat % f.width)))

def shiftI (f : FmtI) (s : State) (op : Nat → Nat → Nat → Nat) : State :=
  laneOp s f.msel.toNat f.pclass.toNat [(f.a.toNat, 1), (f.dst.toNat, 1)] (fun _ _ t =>
    [(f.dst.toNat, op 32 (t.vreg f.a.toNat) (f.imm.toNat % 32))])

/-- An instruction of A with a single-register result (IPOPC, ICLZ). -/
def countA (f : FmtA) (s : State) (op : Nat → Nat → Nat) : State :=
  laneOp s f.msel.toNat f.pclass.toNat (regsA f (if f.w64 then 2 else 1) 0 0 1) (fun _ _ t =>
    [(f.dst.toNat, op f.width (t.vopw f.w64 f.za f.a.toNat))])

/-- A three-source instruction of single registers with its writes (R156, R157, R159). -/
def word3 (f : FmtA) (s : State) (nd : Nat) (op : Nat → Nat → Nat → List Nat) : State :=
  laneOp s f.msel.toNat f.pclass.toNat (regsA f 1 1 1 nd) (fun _ _ t =>
    (op (t.vop f.za f.a.toNat) (t.vop f.zb f.b.toNat) (t.vop f.zc f.c.toNat)).zipIdx.map (fun p => (f.dst.toNat + p.2, p.1)))

/-- Shifts left, right with zeros, right with the sign. -/
def shl (w a k : Nat) : Nat := a * 2 ^ k % 2 ^ w
def shr (_w a k : Nat) : Nat := a / 2 ^ k
def sar (w a k : Nat) : Nat := wrap (sext a w / (2 ^ k : Nat)) w

/-- Bit reversal of the low n bits. -/
def reverseBits (x : Nat) : Nat → Nat
  | 0 => 0
  | n + 1 => 2 ^ n * (x % 2) + reverseBits (x / 2) n

/-- Zeros above the highest 1 bit of a w-bit value. -/
def leadingZeros (w x : Nat) : Nat := if x = 0 then w else w - 1 - Nat.log2 x

/-- The relation of ICMP (R154). -/
def icmp (rel : Nat) (a b : Int) : Bool :=
  match rel with
  | 0 => decide (a = b)
  | 1 => decide (a ≠ b)
  | 2 => decide (a < b)
  | 3 => decide (a ≤ b)
  | 4 => decide (b < a)
  | _ => decide (b ≤ a)

/-- IFUNL (R156): bit 0 of SUB is DIR, bit 1 CLAMP. -/
def funnel (sub a b c : Nat) : Nat :=
  let n := if sub / 2 % 2 = 1 then min c 32 else c % 32
  if sub % 2 = 0 then bits ((b * 2 ^ 32 + a) * 2 ^ n) 63 32 else bits ((b * 2 ^ 32 + a) / 2 ^ n) 31 0

/-- IBFX and IBFI (R156). -/
def bitExtract (nat : Bool) (a b c : Nat) : Nat :=
  let pos := min (b % 256) 32
  let len := min (c % 256) (32 - pos)
  let x := a / 2 ^ pos % 2 ^ len
  if nat || len == 0 then x else wrap (sext x len) 32

def bitInsert (a b c : Nat) : Nat :=
  let pos := min (c % 256) 32
  let len := min (c / 256 % 256) (32 - pos)
  b % 2 ^ pos + a % 2 ^ len * 2 ^ pos + b / 2 ^ (pos + len) * 2 ^ (pos + len)

/-- IADDC (R156): the sum or difference, and the carry or borrow out. -/
def addCarry (isSub : Bool) (a b c : Nat) : List Nat :=
  let k := c % 2
  if isSub then [(a + 2 ^ 33 - b - k) % 2 ^ 32, b2n (decide (a < b + k))] else [(a + b + k) % 2 ^ 32, b2n (decide (2 ^ 32 ≤ a + b + k))]

/-- IDOT4 (R157). -/
def dot4 (sub : Nat) (sat : Bool) (a b c : Nat) : Nat :=
  let el := fun (nat : Bool) x i => intVal nat 8 (x / 256 ^ i % 256)
  let na := sub % 2 == 1
  let nb := sub / 2 % 2 == 1
  let x := (upFrom 0 4).foldl (fun acc i => acc + el na a i * el nb b i) (sext c 32)
  narrow false sat 32 x

/-- BPERM (R159): selector, low source word, high source word. -/
def bytePerm (sel lo hi : Nat) : Nat :=
  natOf ((upFrom 0 4).map (fun j =>
    let k := sel / 32 ^ j % 32
    let byte := (lo + hi * 2 ^ 32) / 256 ^ (k % 8) % 256
    BitVec.ofNat 8 (match k / 8 with
      | 0 => byte
      | 1 => if 128 ≤ byte then 0xFF else 0
      | _ => 0)))

def execIadd (f : FmtA) (s : State) : Host.Outcome State Fault Refusal := .next (intA f s 1 0 (fun a b _ => a + b))
def execIaddImm (f : FmtI) (s : State) : Host.Outcome State Fault Refusal := .next (intI f s (fun a b => a + b))
def execIsub (f : FmtA) (s : State) : Host.Outcome State Fault Refusal := .next (intA f s 1 0 (fun a b _ => a - b))
def execIsubImm (f : FmtI) (s : State) : Host.Outcome State Fault Refusal := .next (intI f s (fun a b => a - b))
def execImul (f : FmtA) (s : State) : Host.Outcome State Fault Refusal := .next (intA f s 1 0 (fun a b _ => a * b))
def execImulImm (f : FmtI) (s : State) : Host.Outcome State Fault Refusal := .next (intI f s (fun a b => a * b))
def execImulh (f : FmtA) (s : State) : Host.Outcome State Fault Refusal :=
  .next (intA f s 1 0 (fun a b _ => a * b / (2 ^ f.width : Nat)))
def execImad (f : FmtA) (s : State) : Host.Outcome State Fault Refusal := .next (intA f s 1 1 (fun a b c => a * b + c))
def execImin (f : FmtA) (s : State) : Host.Outcome State Fault Refusal := .next (intA f s 1 0 (fun a b _ => min a b))
def execImax (f : FmtA) (s : State) : Host.Outcome State Fault Refusal := .next (intA f s 1 0 (fun a b _ => max a b))
def execIabs (f : FmtA) (s : State) : Host.Outcome State Fault Refusal := .next (intA f s 0 0 (fun a _ _ => (a.natAbs : Int)))
def execIneg (f : FmtA) (s : State) : Host.Outcome State Fault Refusal := .next (intA f s 0 0 (fun a _ _ => -a))
def execIand (f : FmtA) (s : State) : Host.Outcome State Fault Refusal := .next (bitA f s 1 Nat.land)
def execIandImm (f : FmtI) (s : State) : Host.Outcome State Fault Refusal := .next (bitI f s Nat.land)
def execIor (f : FmtA) (s : State) : Host.Outcome State Fault Refusal := .next (bitA f s 1 Nat.lor)
def execIorImm (f : FmtI) (s : State) : Host.Outcome State Fault Refusal := .next (bitI f s Nat.lor)
def execIxor (f : FmtA) (s : State) : Host.Outcome State Fault Refusal := .next (bitA f s 1 Nat.xor)
def execIxorImm (f : FmtI) (s : State) : Host.Outcome State Fault Refusal := .next (bitI f s Nat.xor)
def execInot (f : FmtA) (s : State) : Host.Outcome State Fault Refusal := .next (bitA f s 0 (fun a _ => 2 ^ f.width - 1 - a))
def execIshl (f : FmtA) (s : State) : Host.Outcome State Fault Refusal := .next (shiftA f s shl)
def execIshlImm (f : FmtI) (s : State) : Host.Outcome State Fault Refusal := .next (shiftI f s shl)
def execIshr (f : FmtA) (s : State) : Host.Outcome State Fault Refusal := .next (shiftA f s shr)
def execIshrImm (f : FmtI) (s : State) : Host.Outcome State Fault Refusal := .next (shiftI f s shr)
def execIsar (f : FmtA) (s : State) : Host.Outcome State Fault Refusal := .next (shiftA f s sar)
def execIsarImm (f : FmtI) (s : State) : Host.Outcome State Fault Refusal := .next (shiftI f s sar)
def execIfunl (f : FmtA) (s : State) : Host.Outcome State Fault Refusal := .next (word3 f s 1 (fun a b c => [funnel f.sub a b c]))
def execIpopc (f : FmtA) (s : State) : Host.Outcome State Fault Refusal := .next (countA f s (fun w a => popcount a w))
def execIclz (f : FmtA) (s : State) : Host.Outcome State Fault Refusal := .next (countA f s leadingZeros)
def execIbrev (f : FmtA) (s : State) : Host.Outcome State Fault Refusal := .next (bitA f s 0 (fun a _ => reverseBits a f.width))
def execIbfx (f : FmtA) (s : State) : Host.Outcome State Fault Refusal := .next (word3 f s 1 (fun a b c => [bitExtract f.nat a b c]))
def execIbfi (f : FmtA) (s : State) : Host.Outcome State Fault Refusal := .next (word3 f s 1 (fun a b c => [bitInsert a b c]))
/-- ICMP: 1 if the relation holds, in a single register. -/
def execIcmp (f : FmtA) (s : State) : Host.Outcome State Fault Refusal :=
  let n := if f.w64 then 2 else 1
  .next (laneOp s f.msel.toNat f.pclass.toNat (regsA f n n 0 1) (fun _ _ t =>
    [(f.dst.toNat, b2n (icmp f.sub (intVal f.nat f.width (t.vopw f.w64 f.za f.a.toNat)) (intVal f.nat f.width (t.vopw f.w64 f.zb f.b.toNat))))]))
/-- ISEL: a if the single register C is not 0, else b. -/
def execIsel (f : FmtA) (s : State) : Host.Outcome State Fault Refusal :=
  let n := if f.w64 then 2 else 1
  .next (laneOp s f.msel.toNat f.pclass.toNat (regsA f n n 1 n) (fun _ _ t =>
    resultWrites f.w64 f.dst.toNat (if t.vop f.zc f.c.toNat != 0 then t.vopw f.w64 f.za f.a.toNat else t.vopw f.w64 f.zb f.b.toNat)))
def execIaddc (f : FmtA) (s : State) : Host.Outcome State Fault Refusal := .next (word3 f s 2 (addCarry (f.sub % 2 == 1)))
def execIdot4 (f : FmtA) (s : State) : Host.Outcome State Fault Refusal := .next (word3 f s 1 (fun a b c => [dot4 f.sub f.sat a b c]))
def execBperm (f : FmtA) (s : State) : Host.Outcome State Fault Refusal := .next (word3 f s 1 (fun a b c => [bytePerm b a c]))
/-- BPERM with an immediate selector: bytes 4 to 7 are the old value of DST. -/
def execBpermImm (f : FmtI) (s : State) : Host.Outcome State Fault Refusal :=
  .next (laneOp s f.msel.toNat f.pclass.toNat [(f.a.toNat, 1), (f.dst.toNat, 1)] (fun _ _ t =>
    [(f.dst.toNat, bytePerm f.imm.toNat (t.vreg f.a.toNat) (t.vreg f.dst.toNat))]))

/-! ## Random numbers -/

def rotl (x k : Nat) : Nat := (x * 2 ^ k + x / 2 ^ (32 - k)) % 2 ^ 32

/-- A round of the Lace generator on (x0, x1, x2, x3) with round key k (R170). -/
def laceRound (x : Nat × Nat × Nat × Nat) (k : Nat) : Nat × Nat × Nat × Nat :=
  let x0 := (x.1 + x.2.1 + k) % 2 ^ 32
  let x3 := rotl (Nat.xor x.2.2.2 x0) 16
  let x2 := (x.2.2.1 + x3) % 2 ^ 32
  let x1 := rotl (Nat.xor x.2.1 x2) 12
  let x0 := (x0 + x1) % 2 ^ 32
  let x3 := rotl (Nat.xor x3 x0) 8
  let x2 := (x2 + x3) % 2 ^ 32
  let x1 := rotl (Nat.xor x1 x2) 7
  (x1, x2, x3, x0)

/-- The Lace generator: four words from a key and a counter (R170). -/
def lace (klo khi clo chi : Nat) : List Nat :=
  let init := (clo, chi, klo, Nat.xor khi 0x4B4A3900)
  let x := (upFrom 0 12).foldl (fun x i =>
    laceRound x ((if i % 2 = 0 then klo + i * 0x9E3779B9 else khi + i * 0xBB67AE85) % 2 ^ 32)) init
  [(x.1 + init.1) % 2 ^ 32, (x.2.1 + init.2.1) % 2 ^ 32, (x.2.2.1 + init.2.2.1) % 2 ^ 32, (x.2.2.2 + init.2.2.2) % 2 ^ 32]

def execRng (f : FmtA) (s : State) : Host.Outcome State Fault Refusal :=
  .next (laneOp s f.msel.toNat f.pclass.toNat (regsA f 2 2 0 4) (fun _ _ t =>
    let k := t.vopw true f.za f.a.toNat
    let c := t.vopw true f.zb f.b.toNat
    (lace (k % 2 ^ 32) (k / 2 ^ 32) (c % 2 ^ 32) (c / 2 ^ 32)).zipIdx.map (fun p => (f.dst.toNat + p.2, p.1))))

/-! ## Moves and identity -/

def execMov (f : FmtA) (s : State) : Host.Outcome State Fault Refusal := .next (bitA f s 0 (fun a _ => a))
def execMovi (f : FmtI) (s : State) : Host.Outcome State Fault Refusal :=
  .next (laneOp s f.msel.toNat f.pclass.toNat [(f.dst.toNat, 1)] (fun _ _ _ => [(f.dst.toNat, f.simm 32)]))
def execMovh (f : FmtI) (s : State) : Host.Outcome State Fault Refusal :=
  .next (laneOp s f.msel.toNat f.pclass.toNat [(f.a.toNat, 1), (f.dst.toNat, 1)] (fun _ _ t =>
    [(f.dst.toNat, f.imm.toNat % 2 ^ 16 * 2 ^ 16 + t.vreg f.a.toNat % 2 ^ 16)]))

/-- The identity value that VRD selects (R172). -/
def identity (e : Env) (th sel : Nat) : Nat :=
  match sel with
  | 0 => e.t.laneOf th
  | 1 => (e.all.filter (fun x => decide (e.t.laneOf x < e.t.laneOf th))).length
  | 2 => e.t.hwOf th
  | 3 => th
  | 4 => e.w.quarter % 4
  | 5 => e.t.width
  | 6 => e.t.size
  | 7 => e.t.number
  | 8 => e.t.vdie
  | 9 => if 4 ≤ e.w.quarter then 1 else 0
  | _ => e.all.length

def execVrd (f : FmtI) (s : State) : Host.Outcome State Fault Refusal :=
  .next (laneOp s f.msel.toNat f.pclass.toNat [(f.dst.toNat, 1)] (fun e th _ => [(f.dst.toNat, identity e th f.imm.toNat)]) .never)

end Machine

end Sys2Proof
end

