-- ==== Sys2Proof/Machine/LaneFloat.lean ====
section
/-! DEFINITION. Floating-point instructions of the LANE class (R160 to R164), conversions and packing (R165 to R169). -/

namespace Sys2Proof

/-- RM, or REL in FCMP, of a floating instruction (R160). -/
def FmtA.rm (f : FmtA) : Nat := f.md.toNat / 4 % 8

namespace Machine

/-- The format of TYPE (R160). -/
def typeFmt (n : Nat) : Fmt := if n % 4 = 1 then f16 else if n % 4 = 2 then b16 else f32

/-- A floating instruction: single-register operands of TYPE, one single-register result (R161). -/
def fltA (f : FmtA) (s : State) (nb nc : Nat) (op : Fmt → Nat → Nat → Nat → Nat) : State :=
  laneOp s f.msel.toNat f.pclass.toNat (regsA f 1 nb nc 1) (fun _ _ t =>
    [(f.dst.toNat, op (typeFmt f.md.toNat) (t.vop f.za f.a.toNat) (t.vop f.zb f.b.toNat) (t.vop f.zc f.c.toNat))])

/-- A code with its sign bit set as given; a NaN gives the canonical NaN (R162). -/
def Fmt.withSign (f : Fmt) (code : Nat) (neg : Bool) : Nat :=
  if (f.val code).isNan then f.nan else f.signed neg (code % 2 ^ f.top)

/-- The relation of FCMP (R162). -/
def fcmp (rel : Nat) (x y : FVal) : Bool :=
  let un := x.isNan || y.isNan
  match rel with
  | 0 => !un && x.eq y
  | 1 => un || !x.eq y
  | 2 => !un && x.lt y
  | 3 => !un && !y.lt x
  | 4 => !un && y.lt x
  | 5 => !un && !x.lt y
  | 6 => un
  | _ => !un

/-- FCLASS (R162): the number of the bit set. -/
def Fmt.classBit (f : Fmt) (code : Nat) : Nat :=
  let neg := bit code f.top
  match f.val code with
  | .nan => if bit code (f.mb - 1) then 9 else 8
  | .inf _ => if neg then 0 else 7
  | .fin _ m _ =>
    if m = 0 then (if neg then 3 else 4)
    else if m < 2 ^ f.mb then (if neg then 2 else 5)
    else if neg then 1 else 6

/-- FDOT2 (R164). -/
def dot2 (f : Fmt) (rm a b c : Nat) : Nat :=
  f32.sumRound rm 0 [(f.val a).mul (f.val b), (f.val (a / 2 ^ 16)).mul (f.val (b / 2 ^ 16)), f32.val c]

/-- 1.0 as a value. -/
def one : FVal := .fin false 1 0

def execFadd (f : FmtA) (s : State) : Host.Outcome State Fault Refusal :=
  .next (fltA f s 1 1 (fun t a b c => t.sumRound f.rm c [t.val a, t.val b]))
def execFsub (f : FmtA) (s : State) : Host.Outcome State Fault Refusal :=
  .next (fltA f s 1 1 (fun t a b c => t.sumRound f.rm c [t.val a, (t.val b).neg]))
def execFmul (f : FmtA) (s : State) : Host.Outcome State Fault Refusal :=
  .next (fltA f s 1 1 (fun t a b c => t.round f.rm false c ((t.val a).mul (t.val b))))
def execFfma (f : FmtA) (s : State) : Host.Outcome State Fault Refusal :=
  .next (fltA f s 1 1 (fun t a b c => t.sumRound f.rm 0 [(t.val a).mul (t.val b), t.val c]))
def execFmin (f : FmtA) (s : State) : Host.Outcome State Fault Refusal := .next (fltA f s 1 0 (fun t a b _ => t.minMax false a b))
def execFmax (f : FmtA) (s : State) : Host.Outcome State Fault Refusal := .next (fltA f s 1 0 (fun t a b _ => t.minMax true a b))
def execFabs (f : FmtA) (s : State) : Host.Outcome State Fault Refusal := .next (fltA f s 0 0 (fun t a _ _ => t.withSign a false))
def execFneg (f : FmtA) (s : State) : Host.Outcome State Fault Refusal :=
  .next (fltA f s 0 0 (fun t a _ _ => t.withSign a (!bit a t.top)))
def execFcmp (f : FmtA) (s : State) : Host.Outcome State Fault Refusal :=
  .next (fltA f s 1 0 (fun t a b _ => b2n (fcmp f.rm (t.val a) (t.val b))))
def execFdiv (f : FmtA) (s : State) : Host.Outcome State Fault Refusal :=
  .next (fltA f s 1 0 (fun t a b _ => t.div f.rm (t.val a) (t.val b)))
def execFrcp (f : FmtA) (s : State) : Host.Outcome State Fault Refusal := .next (fltA f s 0 0 (fun t a _ _ => t.div f.rm one (t.val a)))
def execFrsq (f : FmtA) (s : State) : Host.Outcome State Fault Refusal := .next (fltA f s 0 0 (fun t a _ _ => t.rsqrt f.rm (t.val a)))
def execFsqrt (f : FmtA) (s : State) : Host.Outcome State Fault Refusal := .next (fltA f s 0 0 (fun t a _ _ => t.sqrt f.rm (t.val a)))
def execFexp2 (f : FmtA) (s : State) : Host.Outcome State Fault Refusal := .next (fltA f s 0 0 (fun t a _ _ => t.exp2 f.rm a))
def execFlog2 (f : FmtA) (s : State) : Host.Outcome State Fault Refusal := .next (fltA f s 0 0 (fun t a _ _ => t.log2 f.rm a))
def execFsin (f : FmtA) (s : State) : Host.Outcome State Fault Refusal := .next (fltA f s 0 0 (fun t a _ _ => t.sinPi f.rm a))
def execFcos (f : FmtA) (s : State) : Host.Outcome State Fault Refusal := .next (fltA f s 0 0 (fun t a _ _ => t.cosPi f.rm a))
def execFtanh (f : FmtA) (s : State) : Host.Outcome State Fault Refusal := .next (fltA f s 0 0 (fun t a _ _ => t.tanh f.rm a))
def execFclass (f : FmtA) (s : State) : Host.Outcome State Fault Refusal :=
  .next (fltA f s 0 0 (fun t a _ _ => 2 ^ t.classBit a))
def execFdot2 (f : FmtA) (s : State) : Host.Outcome State Fault Refusal := .next (fltA f s 1 1 (fun t a b c => dot2 t f.rm a b c))

/-! ## Conversions -/

/-- The type codes of CVT (R165): an integer type by its width and whether it is natural, or a floating format. -/
def cvtType (n : Nat) : (Nat × Bool) ⊕ Fmt :=
  match n with
  | 0 => .inl (8, false) | 1 => .inl (16, false) | 2 => .inl (32, false) | 3 => .inl (64, false)
  | 4 => .inl (8, true) | 5 => .inl (16, true) | 6 => .inl (32, true) | 7 => .inl (64, true)
  | 8 => .inr f32 | 9 => .inr f16 | 10 => .inr b16 | 11 => .inr e4m3 | 12 => .inr e5m2 | _ => .inr e2m1

/-- A type of CVT that takes a register pair. -/
def cvtWide (n : Nat) : Bool := n == 3 || n == 7

/-- An integer result narrower than 32 bits is extended by its signedness (R140). -/
def intResult (w : Nat) (nat : Bool) (x : Int) : Nat := if w < 32 && !nat then wrap (sext (wrap x w) w) 32 else wrap x w

/-- The integer that a magnitude m × 2^e rounds to under a mode (R143, R144, R167). -/
def roundIntMag (rm rnd : Nat) (neg : Bool) (m : Nat) (e : Int) : Nat :=
  if 0 ≤ e then m * 2 ^ e.toNat
  else
    let k := (-e).toNat
    if rm = 4 then (m * 2 ^ 32 + rnd * 2 ^ k) / 2 ^ (k + 32)
    else m / 2 ^ k + b2n (roundUpMag rm neg (m / 2 ^ k % 2 == 1) (m % 2 ^ k) k false)

/-- The integer range of a type as its least and greatest value. -/
def intRange (w : Nat) (nat : Bool) : Int × Int := if nat then (0, 2 ^ w - 1) else (-(2 ^ (w - 1)), 2 ^ (w - 1) - 1)

/-- Floating to integer (R167): rounded, always saturated; a NaN gives 0. -/
def toInteger (rm rnd w : Nat) (nat : Bool) : FVal → Int
  | .nan => 0
  | .inf s => if s then (intRange w nat).1 else (intRange w nat).2
  | .fin s m e =>
    let x : Int := roundIntMag rm rnd s m e
    satInt (if s then -x else x) (intRange w nat).1 (intRange w nat).2

/-- One conversion (R167): source and destination type codes, RM, SAT, the random operand, the source register value. -/
def convert (src dst rm : Nat) (sat : Bool) (rnd x : Nat) : Nat :=
  match cvtType src, cvtType dst with
  | .inl (w, nat), .inl (v, vnat) =>
    let y := intVal nat w (x % 2 ^ w)
    if src = dst then intResult v vnat y
    else if sat then intResult v vnat (satInt y (intRange v vnat).1 (intRange v vnat).2) else intResult v vnat y
  | .inl (w, nat), .inr g => g.round rm sat rnd (ofInt (intVal nat w (x % 2 ^ w)))
  | .inr f, .inr g =>
    if src = dst then (if (f.val x).isNan then f.nan else x % 2 ^ (f.top + 1)) else g.round rm sat rnd (f.val x)
  | .inr f, .inl (v, vnat) => intResult v vnat (toInteger rm rnd v vnat (f.val x))

/-- CVT (R166): MOD bits 6:4 RM, 3:0 the destination type; the C field holds SAT (bit 4) and the source type. -/
def execCvt (f : FmtA) (s : State) : Host.Outcome State Fault Refusal :=
  let src := f.c.toNat % 16
  let dst := f.md.toNat % 16
  let rm := f.md.toNat / 16
  .next (laneOp s f.msel.toNat f.pclass.toNat
    [(f.a.toNat, if f.za then 0 else if cvtWide src then 2 else 1), (f.b.toNat, if rm = 4 then 1 else 0),
     (f.dst.toNat, if cvtWide dst then 2 else 1)]
    (fun _ _ t => resultWrites (cvtWide dst) f.dst.toNat
      (convert src dst rm (bit f.c.toNat 4) (if rm = 4 then t.vreg f.b.toNat else 0) (t.vopw (cvtWide src) f.za f.a.toNat))))

/-- The narrow format of CVTSC (R168). -/
def scFmt (n : Nat) : Fmt := if n % 4 = 0 then e4m3 else if n % 4 = 1 then e5m2 else e2m1

/-- CVTSC on one value (R168). -/
def convertScaled (md scale rnd x : Nat) : Nat :=
  let g := scFmt md
  let sc := scale % 256
  let rm := md / 16
  if md / 4 % 2 = 0 then
    if sc = 0xFF then g.nan else g.round rm (md / 8 % 2 == 1) rnd ((f32.val x).scale (127 - (sc : Int)))
  else if sc = 0xFF then f32.nan else f32.round rm false rnd ((g.val x).scale ((sc : Int) - 127))

def execCvtsc (f : FmtA) (s : State) : Host.Outcome State Fault Refusal :=
  .next (laneOp s f.msel.toNat f.pclass.toNat (regsA f 1 1 (if f.md.toNat / 16 = 4 then 1 else 0) 1) (fun _ _ t =>
    [(f.dst.toNat, convertScaled f.md.toNat (t.vop f.zb f.b.toNat) (t.vop f.zc f.c.toNat) (t.vop f.za f.a.toNat))]))

/-- Element size in bits and index of PACK and UNPK (R169). -/
def packSize (md : Nat) : Nat := 4 * 2 ^ (md % 4)
def packIdx (md : Nat) : Nat := md / 4 % 8

def execPack (f : FmtA) (s : State) : Host.Outcome State Fault Refusal :=
  let w := packSize f.md.toNat
  let i := packIdx f.md.toNat
  .next (laneOp s f.msel.toNat f.pclass.toNat (regsA f 1 1 0 1) (fun _ _ t =>
    [(f.dst.toNat, putBits (t.vop f.zb f.b.toNat) ((i + 1) * w - 1) (i * w) (t.vop f.za f.a.toNat))]))

def execUnpk (f : FmtA) (s : State) : Host.Outcome State Fault Refusal :=
  let w := packSize f.md.toNat
  let i := packIdx f.md.toNat
  .next (laneOp s f.msel.toNat f.pclass.toNat (regsA f 1 0 0 1) (fun _ _ t =>
    let x := bits (t.vop f.za f.a.toNat) ((i + 1) * w - 1) (i * w)
    [(f.dst.toNat, if f.md.toNat / 32 % 2 = 1 then wrap (sext x w) 32 else x)]))

end Machine

end Sys2Proof
end

