-- ==== Sys2Proof/Machine/Group.lean ====
section
/-! DEFINITION. The GRP class: transfers (R191), meeting instructions (R193), masks (R195 to R198), cross-lane
instructions (R199 to R205) and queue pops (R206). -/

namespace Sys2Proof.Machine

/-! ## Transfers -/

/-- The condition of a transfer on a signed value of n bits (R105, R190). -/
def condHolds (kind n x : Nat) : Bool :=
  let v := sext x n
  match kind with
  | 0 => decide (v = 0)
  | 1 => decide (v ≠ 0)
  | 2 => decide (v < 0)
  | 3 => decide (0 ≤ v)
  | 4 => decide (0 < v)
  | 5 => decide (v ≤ 0)
  | _ => true

/-- Lanes whose value differs from that of the lowest lane, for R188. -/
def Env.differ (e : Env) (val : Nat → Nat) : List Nat :=
  match e.act with
  | [] => []
  | th :: rest => rest.filter (fun x => val x != val th)

/-- The uniformity check of R188: a fault naming the register field. -/
def Env.uniform (e : Env) (field : Nat) (val : Nat → Nat) : Option Raise :=
  let d := e.differ val
  if d.isEmpty then none else some { code := 0x04, lanes := e.t.laneMask d, info := field }

/-- Check the targets of the lanes that transfer (R46, R191): threads with their targets. The lanes that fail, with the code; or the
walk to wait for. A target in a protection tail or without execute comes before a missing translation (R72). -/
def State.checkTargets (s : State) (e : Env) (l : List (Nat × Nat)) : Except (State × Why) (List (Nat × Nat × Nat)) :=
  let check := fun (p : Nat × Nat) => s.checkTarget e false (e.t.laneMask ((l.filter (fun q => q.2 == p.2)).map (·.1))) p.2
  let bad := l.filterMap (fun p => match check p with
    | .fault c => some (p.1, p.2, c)
    | _ => none)
  let waits := l.filterMap (fun p => match check p with
    | .wait s' why => some (s', why)
    | _ => none)
  if bad.any (fun p => p.2.2 == 0x0C || p.2.2 == 0x09) then .ok bad
  else match waits with
    | w :: _ => .error w
    | [] => .ok bad

/-- The fault of lanes whose targets fail, in the order of R72: a word that cannot be read before one whose TAG or STREAM is wrong
(R46); with every lane that met it. -/
def Env.targetFault (e : Env) (bad : List (Nat × Nat × Nat)) : Raise :=
  let c := ([0x0C, 0x09, 0x0A].find? (fun c => bad.any (fun p => p.2.2 == c))).getD 0x03
  let mine := bad.filter (fun p => p.2.2 == c)
  { code := c, lanes := e.t.laneMask (mine.map (·.1)), addr := if c = 0x03 then 0 else ((mine.map (fun p => p.2.1)).headD 0) }

/-- A transfer (R191): the threads that take it with their targets; the link pair that CALL writes. -/
def transfer (e : Env) (s : State) (taken : List (Nat × Nat)) (link : Option Nat) : Res :=
  match s.checkTargets e taken with
  | .error w => .suspend w.1 w.2
  | .ok bad =>
    if !bad.isEmpty then .fault (e.targetFault bad)
    else
      let linked : State := match link with
        | some r => s.setV e.tid (taken.map (fun (p : Nat × Nat) => (p.1, pairWrites r e.nextClause)))
        | none => s
      let next : Nat → Option Nat := fun th =>
        some (((taken.find? (fun (p : Nat × Nat) => p.1 == th)).map (fun p => p.2)).getD e.nextClause)
      .jumped (linked.dissolve e.tid (e.fid.getD 0) next)

/-- An instruction of the GRP class (R189). -/
def grp (s : State) (msel pclass : Nat) (last : Bool) (regs : List (Nat × Nat)) (body : Env → State → Res) : State :=
  s.issue msel pclass 2 last (fun _ => regs) (fun e => !e.lead) body

def execBra (f : FmtB) (s : State) : Host.Outcome State Fault Refusal :=
  .next (grp s f.msel.toNat f.pclass.toNat true [(f.reg.toNat, if f.kind.toNat < 6 then 1 else 0)] (fun e s =>
    transfer e s ((e.act.filter (fun th => condHolds f.kind.toNat 32 ((e.t.thread th).vreg f.reg.toNat))).map
      (fun th => (th, e.target f.target))) none))

/-- BRU: KIND 0 to 3 on a uniform register, 4 and 5 on a decision-queue entry, 6 always. -/
def execBru (f : FmtB) (s : State) : Host.Outcome State Fault Refusal :=
  let k := f.kind.toNat
  .next (grp s f.msel.toNat f.pclass.toNat true [(f.reg.toNat, if k < 4 then 1 else 0)] (fun e s =>
    let cond := fun th => b2n (condHolds k 32 ((e.t.thread th).vreg f.reg.toNat))
    match (if k < 4 then e.uniform 0 cond else none) with
    | some r => .fault r
    | none =>
      if (k = 4 || k = 5) && !e.act.isEmpty then
        if !s.entriesFor e.t 0 e.act then .suspend s (.queueEmpty 0 e.act)
        else
          let take := fun (th : Nat) => ((s.entryFor e.t 0 th == some 0) == (k == 4))
          match transfer e s ((e.act.filter take).map (fun th => (th, e.target f.target))) none with
          | .jumped s => .jumped (s.popFor e.tid 0 e.act)
          | r => r
      else transfer e s ((e.act.filter (fun th => cond th == 1)).map (fun th => (th, e.target f.target))) none))

def execCall (f : FmtB) (s : State) : Host.Outcome State Fault Refusal :=
  .next (grp s f.msel.toNat f.pclass.toNat true [(f.reg.toNat, 2)] (fun e s =>
    transfer e s (e.act.map (fun th => (th, e.target f.target))) (some f.reg.toNat)))
def execRet (f : FmtA) (s : State) : Host.Outcome State Fault Refusal :=
  .next (grp s f.msel.toNat f.pclass.toNat true (regsA f 2 0 0 0) (fun e s =>
    transfer e s (e.act.map (fun th => (th, (e.t.thread th).vopw true f.za f.a.toNat))) none))
def execJmpr (f : FmtA) (s : State) : Host.Outcome State Fault Refusal :=
  .next (grp s f.msel.toNat f.pclass.toNat true (regsA f 1 0 0 0) (fun e s =>
    transfer e s (e.act.map (fun th => (th, wrap ((e.pc : Int) + 8 * sext ((e.t.thread th).vop f.za f.a.toNat) 32) 64))) none))

/-- An arrival or an exit in an elastic launch may complete a step boundary in its clock (R380). -/
def State.boundaryDue (s : State) (t : Team) : State :=
  match s.launches.look t.launch with
  | some l => if l.elastic then s.soon [.event .stepBoundaryComplete { a := t.launch }] else s
  | none => s

/-- The active threads exit (R191, R192): they stop holding queue retirement; the others go on at the next clause. -/
def exitBody (e : Env) (s : State) : Res :=
  let s := s.boundaryDue e.t
  let s := s.updTeam e.tid (fun t => ({ t with
    threads := e.act.foldl (fun ts th => ts.upd th (fun x => { x with run := .exited })) t.threads }).retireAll)
  .jumped (s.dissolve e.tid (e.fid.getD 0) (fun _ => some e.nextClause))

def execExit (f : FmtA) (s : State) : Host.Outcome State Fault Refusal :=
  .next (grp s f.msel.toNat f.pclass.toNat true [] exitBody)

/-! ## Meeting -/

/-- MEET: the old meeting register is saved, the new one set, DONE cleared (R193). -/
def execMeet (f : FmtB) (s : State) : Host.Outcome State Fault Refusal :=
  .next (grp s f.msel.toNat f.pclass.toNat false [(f.reg.toNat, 2)] (fun e s =>
    let tgt := e.target f.target
    match s.checkTarget e false (e.t.laneMask e.act) tgt with
    | .wait s why => .suspend s why
    | .fault c => .fault { code := c, lanes := e.t.laneMask e.act, addr := if c = 0x03 then 0 else tgt }
    | .ok => .done (e.act.foldl (fun s th => s.updThread e.tid th (fun x =>
        { x.setRegs s.nextId (pairWrites f.reg.toNat x.meet) with meet := tgt, done := false })) s)))

/-- JOIN: pops the saved meeting where MEET names this target (R193). -/
def execJoin (f : FmtB) (s : State) : Host.Outcome State Fault Refusal :=
  .next (grp s f.msel.toNat f.pclass.toNat false [(f.reg.toNat, 2)] (fun e s =>
    .done (e.act.foldl (fun s th => s.updThread e.tid th (fun x =>
      if x.meet = e.target f.target then { x with meet := (e.t.thread th).vpair f.reg.toNat, done := false } else x)) s)))

/-- LEAVE: MEET is read into the pair and cleared (R193). -/
def execLeave (f : FmtA) (s : State) : Host.Outcome State Fault Refusal :=
  .next (grp s f.msel.toNat f.pclass.toNat false [(f.dst.toNat, 2)] (fun e s =>
    .done (e.act.foldl (fun s th => s.updThread e.tid th (fun x =>
      { x.setRegs s.nextId (pairWrites f.dst.toNat x.meet) with meet := 0, done := false })) s)))

/-! ## Masks -/

/-- The mask word of a home warp with the bits of some threads replaced (R195). -/
def Team.maskWith (t : Team) (old : Nat) (l : List (Nat × Bool)) : Nat :=
  l.foldl (fun m p => putBits m (t.laneOf p.1) (t.laneOf p.1) (b2n p.2)) old

/-- Write one bit of a mask for each active thread, in its own home warp. -/
def Env.writeBits (e : Env) (s : State) (k : Nat) (val : Nat → Bool) : State :=
  e.hws.foldl (fun s hw =>
    s.setMask e.tid hw k (e.t.maskWith ((e.t.warps.get {} hw).mask k)
      ((e.act.filter (fun th => e.t.hwOf th == hw)).map (fun th => (th, val th))))) s

/-- The bit of a thread in a mask of its home warp. -/
def Team.maskBit (t : Team) (k th : Nat) : Bool := bit ((t.warps.get {} (t.hwOf th)).mask k) (t.laneOf th)

/-- The operation of MASKOP (R195). -/
def maskFn (op : Nat) (a b : Bool) : Bool :=
  match op with
  | 0 => a && b
  | 1 => a || b
  | 2 => a != b
  | 3 => a && !b
  | 4 => !a
  | 5 => a
  | 6 => true
  | _ => false

def execMaskop (f : FmtA) (s : State) : Host.Outcome State Fault Refusal :=
  .next (grp s f.msel.toNat f.pclass.toNat false [] (fun e s =>
    .done (e.writeBits s f.dst.toNat (fun th =>
      maskFn f.md.toNat (!f.za && e.t.maskBit f.a.toNat th) (!f.zb && e.t.maskBit f.b.toNat th)))))

/-- MASKMV (R196): .TOV, .FROMV, .WHOLE, .LOADW. -/
def execMaskmv (f : FmtA) (s : State) : Host.Outcome State Fault Refusal :=
  let a := f.a.toNat
  let d := f.dst.toNat
  let mode := f.md.toNat % 4
  .next (grp s f.msel.toNat f.pclass.toNat false
    (match mode with
      | 0 => [(d, 1)]
      | 1 => [(a, if f.za then 0 else 1)]
      | 2 => [(d, 2)]
      | _ => [(a, if f.za then 0 else 2)])
    (fun e s =>
      match mode with
      | 0 => .done (s.setV e.tid (e.act.map (fun th => (th, [(d, b2n (!f.za && e.t.maskBit a th))]))))
      | 1 => .done (e.writeBits s d (fun th => (e.t.thread th).vop f.za a != 0))
      | 2 => .done (s.setV e.tid (e.act.map (fun th =>
          (th, pairWrites d (if f.za then 0 else (e.t.warps.get {} (e.t.hwOf th)).mask a)))))
      | _ =>
        let val := fun th => (e.t.thread th).vopw true f.za a
        match e.uniform 1 val with
        | some r => .fault r
        | none => .done (e.hws.foldl (fun s hw => s.setMask e.tid hw d (val (e.act.headD 0))) s)))

/-- The set of home lanes that MASKPC gives a thread (R197). -/
def maskPcSet (e : Env) (sel th : Nat) : Nat :=
  let same := e.t.threads.filter (fun p => e.t.hwOf p.1 == e.t.hwOf th)
  match sel with
  | 0 => e.t.laneMask (e.act.filter (fun x => e.t.hwOf x == e.t.hwOf th))
  | 1 => e.t.laneMask ((same.filter (fun p => p.2.live && p.2.pc == e.pc)).map (·.1))
  | 2 => e.t.laneMask ((same.filter (fun p => p.2.live)).map (·.1))
  | _ => e.t.laneMask ((same.filter (fun p => p.2.live && p.2.meet == (e.t.thread th).meet)).map (·.1))

def execMaskpc (f : FmtA) (s : State) : Host.Outcome State Fault Refusal :=
  .next (grp s f.msel.toNat f.pclass.toNat false [(f.dst.toNat, 2)] (fun e s =>
    .done (s.setV e.tid (e.act.map (fun th => (th, pairWrites f.dst.toNat (maskPcSet e (f.md.toNat % 4) th)))))))

/-! ## Cross-lane instructions -/

/-- A cross-lane instruction (R185, R186): a formed warp that is one group of a split wait faults; otherwise every source
is read before any result is written. -/
def crossLane (s : State) (msel pclass : Nat) (regs : List (Nat × Nat)) (check : Env → Option Raise)
    (val : Env → Nat → List (Nat × Nat)) : State :=
  grp s msel pclass false regs (fun e s =>
    if !e.w.split.isEmpty then .fault { code := 0x04, lanes := e.t.laneMask e.w.split, info := 0x200 }
    else match check e with
      | some r => .fault r
      | none => .done (s.setV e.tid (e.act.map (fun th => (th, val e th)))))

/-- WAITM: only the reforming wait of its clause (R194). -/
def execWaitm (f : FmtA) (s : State) : Host.Outcome State Fault Refusal :=
  .next (crossLane s f.msel.toNat f.pclass.toNat [] (fun _ => none) (fun _ _ => []))

/-- The result of VOTE (R199). -/
def voteResult (e : Env) (kind : Nat) (pred : Nat → Bool) (val : Nat → Nat) : Nat :=
  let l := e.act.filter pred
  match kind with
  | 0 => b2n (!l.isEmpty)
  | 1 => b2n (l.length == e.act.length)
  | 2 => l.length
  | 3 => (l.head?.map e.t.laneOf).getD 0xFFFFFFFF
  | 4 => e.t.laneMask l
  | _ => b2n (e.differ val).isEmpty

def execVote (f : FmtA) (s : State) : Host.Outcome State Fault Refusal :=
  let kind := f.md.toNat % 8
  .next (crossLane s f.msel.toNat f.pclass.toNat (regsA f 1 0 0 (if kind = 4 then 2 else 1)) (fun _ => none) (fun e _ =>
    let val := fun th => (e.t.thread th).vop f.za f.a.toNat
    resultWrites (kind == 4) f.dst.toNat (voteResult e kind (fun th => (val th != 0) != (f.md.toNat / 8 % 2 == 1)) val)))

/-- The source lane of SHFL (R200): segment base and size, and the home lane chosen. -/
def shflSource (md width lane b : Nat) : Nat × Nat × Int :=
  let seg := md / 8 % 8
  let n := if seg = 0 || width ≤ 2 ^ seg then width else 2 ^ seg
  let base := lane - lane % n
  let i := lane - base
  let b := b % 128
  (base, n, match md % 4 with
    | 0 => ((base + b % n : Nat) : Int)
    | 1 => ((base + (i + b) % n : Nat) : Int)
    | 2 => (lane : Int) + sext b 7
    | _ => ((base + Nat.xor i (b % n) : Nat) : Int))

def execShfl (f : FmtA) (s : State) : Host.Outcome State Fault Refusal :=
  let md := f.md.toNat
  let wide := md / 4 % 2 == 1
  let n := if wide then 2 else 1
  .next (crossLane s f.msel.toNat f.pclass.toNat (regsA f n 1 0 n) (fun _ => none) (fun e th =>
    let val := fun x => (e.t.thread x).vopw wide f.za f.a.toNat
    let src := shflSource md e.t.width (e.t.laneOf th) ((e.t.thread th).vop f.zb f.b.toNat)
    let found := if decide ((src.1 : Int) ≤ src.2.2) && decide (src.2.2 < ((src.1 + src.2.1 : Nat) : Int)) then
        e.act.find? (fun x => decide (((e.t.laneOf x : Nat) : Int) = src.2.2)) else none
    resultWrites wide f.dst.toNat (match found with
      | some x => val x
      | none => if md / 64 = 1 then 0 else val th)))

def execBcast (f : FmtA) (s : State) : Host.Outcome State Fault Refusal :=
  let md := f.md.toNat
  let wide := md / 2 % 2 == 1
  let first := md % 2 == 1
  let n := if wide then 2 else 1
  .next (crossLane s f.msel.toNat f.pclass.toNat (regsA f n (if first then 0 else 1) 0 n)
    (fun e => if first then none else e.uniform 2 (fun th => (e.t.thread th).vop f.zb f.b.toNat % 64))
    (fun e th =>
      let val := fun x => (e.t.thread x).vopw wide f.za f.a.toNat
      let src := if first then e.act.head? else
        e.act.find? (fun x => e.t.laneOf x == (e.t.thread (e.act.headD 0)).vop f.zb f.b.toNat % 64)
      resultWrites wide f.dst.toNat (match src with
        | some x => val x
        | none => val th)))

/-- combine of R202 on a list of values: OP, TYPE, RM. -/
def combineList (op type rm : Nat) (l : List Nat) : Nat :=
  if type = 2 then
    match op with
    | 0 => match l with
      | [] => 0
      | _ => f32.sumRound rm 0 (l.map f32.val)
    | 1 => match l with
      | [] => 0x7F800000
      | x :: t => t.foldl (f32.minMax false) (f32.minMax false x x)
    | _ => match l with
      | [] => 0xFF800000
      | x :: t => t.foldl (f32.minMax true) (f32.minMax true x x)
  else
    let w := if type = 1 then 64 else 32
    let pick := fun (nat max : Bool) (a b : Nat) => if (decide (intVal nat w a < intVal nat w b)) != max then a else b
    match op with
    | 0 => l.foldl (fun a b => (a + b) % 2 ^ w) 0
    | 1 => l.foldl (pick false false) (2 ^ (w - 1) - 1)
    | 2 => l.foldl (pick false true) (2 ^ (w - 1))
    | 3 => l.foldl (pick true false) (2 ^ w - 1)
    | 4 => l.foldl (pick true true) 0
    | 5 => l.foldl Nat.land (2 ^ w - 1)
    | 6 => l.foldl Nat.lor 0
    | _ => l.foldl Nat.xor 0

/-- REDX and SCANX (R202): which lanes each lane combines. -/
def reduceOp (f : FmtA) (s : State) (rm : Nat) (pick : Env → Nat → List Nat) : State :=
  let md := f.md.toNat
  let type := md / 8 % 4
  let wide := type == 1
  let n := if wide then 2 else 1
  crossLane s f.msel.toNat f.pclass.toNat (regsA f n 0 0 n) (fun _ => none) (fun e th =>
    resultWrites wide f.dst.toNat
      (combineList (md % 8) type rm ((pick e th).map (fun x => (e.t.thread x).vopw wide f.za f.a.toNat))))

def execRedx (f : FmtA) (s : State) : Host.Outcome State Fault Refusal :=
  .next (reduceOp f s (f.md.toNat / 32) (fun e _ => e.act))
def execScanx (f : FmtA) (s : State) : Host.Outcome State Fault Refusal :=
  .next (reduceOp f s 0 (fun e th => e.act.filter (fun x =>
    decide (e.t.laneOf x < e.t.laneOf th) || (f.md.toNat / 32 % 2 == 0 && x == th))))

def execMatchx (f : FmtA) (s : State) : Host.Outcome State Fault Refusal :=
  let wide := f.md.toNat % 2 == 1
  .next (crossLane s f.msel.toNat f.pclass.toNat (regsA f (if wide then 2 else 1) 0 0 2) (fun _ => none) (fun e th =>
    let val := fun x => (e.t.thread x).vopw wide f.za f.a.toNat
    pairWrites f.dst.toNat (e.t.laneMask (e.act.filter (fun x => val x == val th)))))

/-- The running state of SAMPLE (R204): the prefix, the last lane of positive weight, the first lane at infinity, and
the lanes of positive weight with their prefixes. -/
structure Draw where
  p : Nat := 0
  last : Option Nat := none
  firstinf : Option Nat := none
  pre : List (Nat × Nat) := []

/-- One lane of SAMPLE. -/
def Draw.next (d : Draw) (lane w : Nat) : Draw :=
  let w := if (f32.val w).isNan || (f32.val w).isNeg then 0 else w % 2 ^ 32
  let p := addF32 d.p w
  { p := p, last := if w = 0 then d.last else some lane
    firstinf := if d.firstinf.isNone && p == 0x7F800000 then some lane else d.firstinf
    pre := if w = 0 then d.pre else d.pre ++ [(lane, p)] }

/-- The lane that SAMPLE draws (R204). -/
def sampleLane (ws : List (Nat × Nat)) (rnd : Nat) : Nat :=
  let d := ws.foldl (fun d p => d.next p.1 p.2) ({} : Draw)
  match d.last, d.firstinf with
  | none, _ => 0xFFFFFFFF
  | some _, some y => y
  | some y, none =>
    let t := f32.rne ((f32.val d.p).mul (.fin false rnd (-32)))
    ((d.pre.find? (fun q => (f32.val t).lt (f32.val q.2))).map (·.1)).getD y

def execSample (f : FmtA) (s : State) : Host.Outcome State Fault Refusal :=
  .next (crossLane s f.msel.toNat f.pclass.toNat (regsA f 1 1 0 1)
    (fun e => e.uniform 2 (fun th => (e.t.thread th).vop f.zb f.b.toNat))
    (fun e _ => [(f.dst.toNat, sampleLane (e.act.map (fun th => (e.t.laneOf th, (e.t.thread th).vop f.za f.a.toNat)))
      ((e.t.thread (e.act.headD 0)).vop f.zb f.b.toNat))]))

/-! ## Queue pops -/

/-- DQPOP and AQPOP (R206): each active thread takes the entry at its own position. -/
def popOp (f : FmtA) (s : State) (q : Nat) : State :=
  let wide := f.md.toNat % 2 == 1
  grp s f.msel.toNat f.pclass.toNat false [(f.dst.toNat, if wide then 2 else 1)] (fun e s =>
    if e.act.isEmpty then .done s
    else if !s.entriesFor e.t q e.act then .suspend s (.queueEmpty q e.act)
    else
      let val := fun (th : Nat) => (s.entryFor e.t q th).getD 0
      .done ((s.popFor e.tid q e.act).setV e.tid (e.act.map (fun th =>
        (th, resultWrites wide f.dst.toNat (if wide then val th else val th % 2 ^ 32))))))

def execDqpop (f : FmtA) (s : State) : Host.Outcome State Fault Refusal := .next (popOp f s 0)
def execAqpop (f : FmtA) (s : State) : Host.Outcome State Fault Refusal := .next (popOp f s (1 + f.md.toNat / 2 % 4))

end Sys2Proof.Machine
end

