-- ==== Sys2Proof/Machine/LoadStore.lean ====
section
/-! DEFINITION. Loads and stores of both streams (R104, R215 to R218, R470), atomics (R224 to R227), barrier-object
instructions (R231 to R233), waits, fences and cache control (R235 to R239). -/

namespace Sys2Proof.Machine

/-- OFFSET of the plain tail (R209). -/
def FmtMoff (f : FmtM) : Int := f.offset.toInt

/-- The queue and the 14-bit offset of a SPACE 5 access (R211). -/
def FmtMqueue (f : FmtM) : Nat := 1 + f.offset.toNat / 2 ^ 14
def FmtMqoff (f : FmtM) : Int := sext f.offset.toNat 14

/-- Registers of an address operand in the lane stream (R209). -/
def addrRegs (space addr : Nat) : Nat × Nat := (addr, if space = 0 then 2 else 1)

/-- The operation of a plain access. -/
def opM (kind : OpKind) (counter : Nat) (f : FmtM) (e : Env) (s : State) (l : List Acc) : Op :=
  let o := e.op s kind (some counter) l
  { o with size := f.size.toNat, scope := f.scope.toNat, ord := f.ord.toNat, evict := f.evict.toNat, data := f.data.toNat }

/-- The use of a read, and of a write, of 2^size bytes. -/
def readUse (size : Nat) : Use := { bytes := 2 ^ size, align := 2 ^ size, write := false, access := 0 }
def writeUse (size : Nat) : Use := { bytes := 2 ^ size, align := 2 ^ size, write := true, access := 1, store := true }
def rmwUse (size : Nat) : Use := { bytes := 2 ^ size, align := 2 ^ size, write := true, access := 2 }

/-- A load of either stream: lanes from the wants; no queue entry is popped. -/
def loadBody (kind : OpKind) (f : FmtM) (ws : Env → List Want) (e : Env) (s : State) : Res :=
  accessBody (readUse f.size.toNat) 0 false (opM kind 0 f) (ws e) e s plainFault

/-- Wait for the walk of the first of some wants before the instruction issues (R470). -/
def walkFirst (u : Use) (ws : List Want) (e : Env) (s : State) : Res :=
  let b := s.beginWalks e u ws
  match b.2.find? (fun a => match a.phase with
    | .walk _ => true
    | _ => false) with
  | some a => match a.phase with
    | .walk req =>
      let same := b.2.filter (fun x => x.addr / 2 ^ 21 == a.addr / 2 ^ 21)
      .suspend b.1 (.walk req (if e.lead then 0 else e.t.laneMask (same.map (·.thread))) a.addr)
    | _ => .suspend b.1 .room
  | none => .suspend b.1 .room

/-- A store of either stream (R470): translated before it issues; in each home warp concerned (R27) it enters oc6 if it has lanes of
alias pages, and oc1 if it has others. -/
def storeBody (kind : OpKind) (f : FmtM) (ws : List Want) (e : Env) (s : State) (pop : State → State)
    (fault : State → Raise → Res) : Res :=
  let u := writeUse f.size.toNat
  if ws.isEmpty then .done s
  else match s.accessFault e u ws with
    | some r => fault (pop s) r
    | none =>
      if ws.any (s.needsWalk e) then walkFirst u ws e s
      else
        let b := s.beginWalks e u ws
        let al := b.2.filter (fun a => a.alias_ != 0)
        let pl := b.2.filter (fun a => a.alias_ == 0)
        if !al.isEmpty && e.full 6 then .suspend s (e.waitsFor 6)
        else if !pl.isEmpty && e.full 1 then .suspend s (e.waitsFor 1)
        else
          let s := pop b.1
          let s := if al.isEmpty then s else (s.launchOp e (opM kind 6 f e s al)).1
          if pl.isEmpty then .done s else s.launchAccess e (opM kind 1 f e s pl)

/-- The wants of a SPACE 5 access: the entry at each thread's own position, or none while one of them finds none (R211). -/
def queueWants (f : FmtM) (bytes : Nat) (e : Env) (s : State) : Option (List Want) :=
  if s.entriesFor e.t (FmtMqueue f) e.act then
    some (e.act.map (fun th => queueWant e f.addr.toNat (FmtMqoff f) ((s.entryFor e.t (FmtMqueue f) th).getD 0)
      (fun th => e.dataOf f.data.toNat bytes th) th))
  else none

/-- An instruction of the MEM class with a DATA group and an address. -/
def mem (s : State) (msel pclass : Nat) (lead : Bool) (regs : List (Nat × Nat)) (body : Env → State → Res)
    (at_ : Env → Nat → Nat := fun _ _ => 0) : State :=
  s.issue msel pclass 3 false (fun _ => regs) (fun e => lead || !e.lead) body at_

/-- The address that a thread of a plain access reaches. -/
def FmtMat (f : FmtM) (e : Env) (th : Nat) : Nat := wrap (formAddr f.space.toNat (e.baseOf f.space.toNat f.addr.toNat th) (FmtMoff f)) 64

/-- Registers in a DATA group of 2^size bytes. -/
def dataRegs (size : Nat) : Nat := if size ≤ 2 then 1 else 2 ^ (size - 2)

def execLd (f : FmtM) (s : State) : Host.Outcome State Fault Refusal :=
  .next (mem s f.msel.toNat f.pclass.toNat false
    [addrRegs f.space.toNat f.addr.toNat, (f.data.toNat, dataRegs f.size.toNat)] (fun e s =>
    if f.space.toNat = 5 then
      if e.act.isEmpty then .done s
      else if e.full 0 then .suspend s (e.waitsFor 0)
      else match queueWants f 0 e s with
        | none => .suspend s (.queueEmpty (FmtMqueue f) e.act)
        | some ws =>
          let s := s.popFor e.tid (FmtMqueue f) e.act
          accessBody (readUse f.size.toNat) 0 false (opM .ld 0 f) ws e s Res.faultAfter
    else loadBody .ld f (fun e => e.wants f.space.toNat f.addr.toNat (fun _ => FmtMoff f) (fun _ => 0) (fun _ => 0)) e s)
    (FmtMat f))

def execSt (f : FmtM) (s : State) : Host.Outcome State Fault Refusal :=
  let n := 2 ^ f.size.toNat
  .next (mem s f.msel.toNat f.pclass.toNat false
    [addrRegs f.space.toNat f.addr.toNat, (f.data.toNat, dataRegs f.size.toNat)] (fun e s =>
    if f.space.toNat = 5 then
      if e.act.isEmpty then .done s
      else match queueWants f n e s with
        | none => .suspend s (.queueEmpty (FmtMqueue f) e.act)
        | some ws => storeBody .st f ws e s (fun s => s.popFor e.tid (FmtMqueue f) e.act) Res.faultAfter
    else storeBody .st f (e.wants f.space.toNat f.addr.toNat (fun _ => FmtMoff f) (e.dataOf f.data.toNat n) (fun _ => 0)) e s
      (fun s => s) plainFault) (FmtMat f))

/-- The offset of a strip access: OFFSET + HOMELANE × size (R216). -/
def stripOff (f : FmtM) (e : Env) (th : Nat) : Int := FmtMoff f + (e.t.laneOf th * 2 ^ f.size.toNat : Nat)

/-- The base of a strip access must be uniform (R216). -/
def stripUniform (f : FmtM) (e : Env) : Option Raise := e.uniform 1 (fun th => e.baseOf f.space.toNat f.addr.toNat th)

def execLdq (f : FmtM) (s : State) : Host.Outcome State Fault Refusal :=
  .next (mem s f.msel.toNat f.pclass.toNat false
    [addrRegs f.space.toNat f.addr.toNat, (f.data.toNat, dataRegs f.size.toNat)] (fun e s =>
    match stripUniform f e with
    | some r => .fault r
    | none => loadBody .ldq f (fun e => e.wants f.space.toNat f.addr.toNat (stripOff f e) (fun _ => 0) (fun _ => 0)) e s)
    (fun e th => wrap (formAddr f.space.toNat (e.baseOf f.space.toNat f.addr.toNat th) (stripOff f e th)) 64))
def execStq (f : FmtM) (s : State) : Host.Outcome State Fault Refusal :=
  .next (mem s f.msel.toNat f.pclass.toNat false
    [addrRegs f.space.toNat f.addr.toNat, (f.data.toNat, dataRegs f.size.toNat)] (fun e s =>
    match stripUniform f e with
    | some r => .fault r
    | none => storeBody .stq f (e.wants f.space.toNat f.addr.toNat (stripOff f e) (e.dataOf f.data.toNat (2 ^ f.size.toNat)) (fun _ => 0))
        e s (fun s => s) plainFault) (fun e th => wrap (formAddr f.space.toNat (e.baseOf f.space.toNat f.addr.toNat th) (stripOff f e th)) 64))

/-- SLD and SST (R104): the lead thread's accesses, of the LEAD class. -/
def execSld (f : FmtM) (s : State) : Host.Outcome State Fault Refusal :=
  .next (s.issue f.msel.toNat f.pclass.toNat 0 false (fun _ => []) (fun e => e.lead)
    (loadBody .ld f (fun e => e.wants f.space.toNat f.addr.toNat (fun _ => FmtMoff f) (fun _ => 0) (fun _ => 0))) (FmtMat f))
def execSst (f : FmtM) (s : State) : Host.Outcome State Fault Refusal :=
  .next (s.issue f.msel.toNat f.pclass.toNat 0 false (fun _ => []) (fun e => e.lead) (fun e s =>
    storeBody .st f (e.wants f.space.toNat f.addr.toNat (fun _ => FmtMoff f) (e.dataOf f.data.toNat (2 ^ f.size.toNat)) (fun _ => 0))
      e s (fun s => s) plainFault) (FmtMat f))

/-! ## Prefetch and presence query -/

/-- Bring one line toward the core (R217): dropped where the access would fault. The core first flushes its own delta line (R315). As
a prefetch causes no recall (R316), a line of which other cores hold deltas stays out of L1 (log entry 133). -/
def State.prefetch (s : State) (e : Env) (evict : Nat) (w : Want) : State :=
  if w.space != 0 || w.bad || w.addr < 0 || 2 ^ 52 ≤ w.addr then s
  else
    let va := w.addr.toNat
    let leaf := match s.held e.core e.t.ctx va with
      | some l => some l
      | none => match s.walk e.t.ctx va with
        | .ok l => some l
        | _ => none
    match leaf with
    | none => s
    | some l => match s.place l va with
      | (.glob, x) =>
        if l.alias_ != 0 || s.shut l || inTail l va 1 || lostPlace x then s
        else
          let s := s.flushOwn .glob e.core x
          let s := s.touchL2 .glob x 1 (if l.cache = 2 then 5 else if evict = 5 then 0 else evict)
          if l.cache != 0 || evict = 4 || evict = 6 || !(s.ms.holders.get [] (x / 128)).isEmpty then s
          else ((s.through (some l.prot)).fillL1 e.core x evict e.tid).through none
      | _ => s

/-- PREF (R217): no counter, no park, no fault; with SPACE 5 an entry is popped if one is visible. -/
def execPref (f : FmtM) (s : State) : Host.Outcome State Fault Refusal :=
  .next (mem s f.msel.toNat f.pclass.toNat false [addrRegs f.space.toNat f.addr.toNat] (fun e s =>
    if f.space.toNat = 5 then match queueWants f 0 e s with
      | none => .done s
      | some ws =>
        if e.act.isEmpty then .done s
        else .done (ws.foldl (fun s w => s.prefetch e f.evict.toNat w) (s.popFor e.tid (FmtMqueue f) e.act))
    else .done ((e.wants f.space.toNat f.addr.toNat (fun _ => FmtMoff f) (fun _ => 0) (fun _ => 0)).foldl
      (fun s w => s.prefetch e f.evict.toNat w) s)))

/-- PRSQ (R218): no alignment, one byte checked. -/
def execPrsq (f : FmtM) (s : State) : Host.Outcome State Fault Refusal :=
  .next (mem s f.msel.toNat f.pclass.toNat false [addrRegs f.space.toNat f.addr.toNat, (f.data.toNat, 1)] (fun e s =>
    accessBody { bytes := 1, align := 1, write := false, access := 0 } 0 false (opM .prsq 0 f)
      (e.wants f.space.toNat f.addr.toNat (fun _ => FmtMoff f) (fun _ => 0) (fun _ => 0)) e s plainFault) (FmtMat f))

/-! ## Atomics -/

/-- OFFSET of the atomic tail; with ATYPE 4 the field holds E and the address is the base alone (R54, R209). -/
def FmtToff (f : FmtT) : Int := if f.atype.toNat = 4 then 0 else f.offset.toInt

/-- The operation of an atomic-tail instruction; with ATYPE 4, E is bits 56:50 (R54, R314). -/
def opT (kind : OpKind) (counter : Nat) (f : FmtT) (e : Env) (s : State) (l : List Acc) : Op :=
  let o := e.op s kind (some counter) l
  { o with
    size := f.size.toNat, scope := f.scope.toNat, ord := f.ord.toNat, evict := f.evict.toNat, data := f.data.toNat,
    aop := f.aop.toNat, atype := f.atype.toNat, e := if f.atype.toNat = 4 then f.offset.toNat / 4 else 0 }

/-- The wants of an atomic-tail instruction with operands of some bytes. -/
def atomWants (f : FmtT) (data data2 : Env → Nat → Nat) (e : Env) : List Want :=
  e.wants f.space.toNat f.addr.toNat (fun _ => FmtToff f) (data e) (data2 e)

/-- An atomic (R224): it enters oc2. -/
def atomic (kind : OpKind) (f : FmtT) (s : State) (nregs : Nat) (data data2 : Env → Nat → Nat) : State :=
  mem s f.msel.toNat f.pclass.toNat false [addrRegs f.space.toNat f.addr.toNat, (f.data.toNat, nregs)] (fun e s =>
    accessBody (rmwUse f.size.toNat) 2 false (opT kind 2 f) (atomWants f data data2 e) e s plainFault)
    (fun e th => wrap (formAddr f.space.toNat (e.baseOf f.space.toNat f.addr.toNat th) (FmtToff f)) 64)

def execAtom (f : FmtT) (s : State) : Host.Outcome State Fault Refusal :=
  .next (atomic .atom f s (dataRegs f.size.toNat) (fun e th => e.dataOf f.data.toNat (2 ^ f.size.toNat) th) (fun _ _ => 0))
/-- ACAS: the DATA group holds the compare value, then the new value (R226). -/
def execAcas (f : FmtT) (s : State) : Host.Outcome State Fault Refusal :=
  let n := 2 ^ f.size.toNat
  .next (atomic .acas f s (2 * dataRegs f.size.toNat) (fun e th => e.dataOf f.data.toNat n th)
    (fun e th => e.dataOf (f.data.toNat + n / 4) n th))
def execRed (f : FmtT) (s : State) : Host.Outcome State Fault Refusal :=
  let single := f.atype.toNat = 2 || f.atype.toNat = 4
  .next (atomic .red f s (if single then 1 else dataRegs f.size.toNat)
    (fun e th => e.dataOf f.data.toNat (if single then 4 else 2 ^ f.size.toNat) th) (fun _ _ => 0))

/-! ## Barrier objects -/

/-- A barrier-object instruction (R231): its value limits are checked before any lane's update leaves the core. -/
def barrier (kind : OpKind) (counter : Nat) (lead parks writes : Bool) (limit : Nat) (f : FmtM) (s : State) : State :=
  mem s f.msel.toNat f.pclass.toNat lead [addrRegs f.space.toNat f.addr.toNat, (f.data.toNat, 1)] (fun e s =>
    let u : Use := { bytes := 16, align := 16, write := writes, access := if writes then 2 else 0 }
    let val := fun th => if e.lead then e.t.sreg f.data.toNat else (e.t.thread th).vreg f.data.toNat
    let ws := e.wants f.space.toNat f.addr.toNat (fun _ => FmtMoff f) val (fun _ => 0)
    let high := ws.filter (fun w => decide (limit ≤ w.data))
    match s.accessFault e u ws, high with
    | none, w :: _ =>
      if ws.any (s.needsWalk e) then walkFirst u ws e s
      else .fault { code := 0x0D, lanes := if e.lead then 0 else e.t.laneMask (high.map (·.th)), addr := wrap w.addr 64 }
    | _, _ => accessBody u counter parks (opM kind counter f) ws e s plainFault) (FmtMat f)

def execBinit (f : FmtM) (s : State) : Host.Outcome State Fault Refusal := .next (barrier .binit 1 false false true 4096 f s)
def execBarr (f : FmtM) (s : State) : Host.Outcome State Fault Refusal := .next (barrier .barr 2 true false true (2 ^ 64) f s)
def execBarrx (f : FmtM) (s : State) : Host.Outcome State Fault Refusal := .next (barrier .barrx 2 true false true (2 ^ 31) f s)
def execBexp (f : FmtM) (s : State) : Host.Outcome State Fault Refusal := .next (barrier .bexp 2 true false true (2 ^ 31) f s)
def execBwait (f : FmtM) (s : State) : Host.Outcome State Fault Refusal := .next (barrier .bwait 0 true true false (2 ^ 64) f s)
def execBtest (f : FmtM) (s : State) : Host.Outcome State Fault Refusal := .next (barrier .btest 0 true false false (2 ^ 64) f s)
def execBdrop (f : FmtM) (s : State) : Host.Outcome State Fault Refusal := .next (barrier .bdrop 2 false false true (2 ^ 64) f s)

/-! ## Waits, fences, cache control -/

/-- WAITC (R235): the clause suspends until the counter is at most n in every home warp concerned. -/
def execWaitc (f : FmtI) (s : State) : Host.Outcome State Fault Refusal :=
  let c := f.imm.toNat % 8
  let n := f.imm.toNat / 8 % 64
  .next (mem s f.msel.toNat f.pclass.toNat false [] (fun e s =>
    if e.t.countLe e.hws e.lead c n then .done s else .suspend s (.counterWait c n e.hws)))

/-- WAITA (R236): COND stands in the EVICT field. -/
def execWaita (f : FmtM) (s : State) : Host.Outcome State Fault Refusal :=
  .next (mem s f.msel.toNat f.pclass.toNat true
    [addrRegs f.space.toNat f.addr.toNat, (f.data.toNat, dataRegs f.size.toNat)] (fun e s =>
    accessBody (readUse f.size.toNat) 0 true (opM .waita 0 f)
      (e.wants f.space.toNat f.addr.toNat (fun _ => FmtMoff f) (e.dataOf f.data.toNat (2 ^ f.size.toNat)) (fun _ => 0))
      e s plainFault) (FmtMat f))

/-- The lanes of an operation that makes no access. -/
def Env.idleLanes (e : Env) : List Acc := e.agents.map (fun th => { lane := e.laneOf th, thread := th, space := 0, addr := 0 })

/-- FENCE (R238): the party parks until the fence completes; no counter. -/
def execFence (f : FmtM) (s : State) : Host.Outcome State Fault Refusal :=
  .next (mem s f.msel.toNat f.pclass.toNat true [] (fun e s =>
    if e.agents.isEmpty then .done s
    else
      let o := e.op s .fence none e.idleLanes
      let r := s.launchOp e { o with scope := f.scope.toNat, ord := f.ord.toNat, parks := true }
      .park r.1 (.access r.2)))

/-- CCTL (R239): it enters oc1 and takes effect when it completes; the address of .L1LINE is a global address (R209). -/
def execCctl (f : FmtM) (s : State) : Host.Outcome State Fault Refusal :=
  let line := f.data.toNat = 2
  .next (mem s f.msel.toNat f.pclass.toNat false (if line then [addrRegs 0 f.addr.toNat] else []) (fun e s =>
    if e.act.isEmpty then .done s
    else if e.full 1 then .suspend s (e.waitsFor 1)
    else
      let at_ := fun th => if line then wrap (formAddr 0 (e.baseOf 0 f.addr.toNat th) (FmtMoff f)) 64 else 0
      match e.act.filter (fun th => decide (2 ^ 52 ≤ at_ th)) with
      | th :: rest => .fault { code := 0x09, lanes := e.t.laneMask (th :: rest), addr := at_ th }
      | [] =>
        let lanes : List Acc := e.act.map (fun th => { lane := e.t.laneOf th, thread := th, space := 0, addr := at_ th })
        let o := e.op s .cctl (some 1) lanes
        .done (s.launchOp e { o with data := f.data.toNat }).1))

end Sys2Proof.Machine
end

