-- ==== Sys2Proof/Machine/Far.lean ====
section
/-! DEFINITION. Far operations: RACC, RACCX, RFOLD, RCLR (R319 to R324). -/

namespace Sys2Proof.Machine

/-- A far operation (R319, R323, R324): lane stream, oc5. -/
def far (kind : OpKind) (f : FmtT) (s : State) (nregs bytes : Nat) (write : Bool) (data : Env → Nat → Nat) : State :=
  s.issue f.msel.toNat f.pclass.toNat 5 false (fun _ => [addrRegs 0 f.addr.toNat, (f.data.toNat, nregs)]) (fun e => !e.lead) (fun e s =>
    accessBody { bytes := bytes, align := bytes, write := write, access := if write then 2 else 0 } 5 false (opT kind 5 f)
      (e.wants 0 f.addr.toNat (fun _ => FmtToff f) (data e) (fun _ => 0)) e s plainFault)
    (fun e th => wrap (formAddr 0 (e.baseOf 0 f.addr.toNat th) (FmtToff f)) 64)

def execRacc (f : FmtT) (s : State) : Host.Outcome State Fault Refusal :=
  .next (far .racc f s (dataRegs f.size.toNat) (2 ^ f.size.toNat) true (fun e th => e.dataOf f.data.toNat (2 ^ f.size.toNat) th))
def execRaccx (f : FmtT) (s : State) : Host.Outcome State Fault Refusal :=
  .next (far .raccx f s 1 16 true (fun e th => e.dataOf f.data.toNat 4 th))
def execRfold (f : FmtT) (s : State) : Host.Outcome State Fault Refusal := .next (far .rfold f s 1 16 false (fun _ _ => 0))
def execRclr (f : FmtT) (s : State) : Host.Outcome State Fault Refusal := .next (far .rclr f s 0 16 true (fun _ _ => 0))

/-- The new value of a slot or word (R321, R322). -/
def Op.farNew (o : Op) (old d : Nat) : Nat :=
  match o.kind with
  | .raccx => let q := toX128 (f32.val d) (sext o.e 7); addX128 old q.1 q.2.1 q.2.2
  | .rclr => 0
  | _ => match o.atype with
    | 2 => addF32 old d
    | 3 => addF32 old (d % 2 ^ 16 * 2 ^ 16)
    | _ => (old + d) % 2 ^ (8 * o.bytes)

/-- The controller applies one lane's operation (R320, R321, R323): value folded, and poison. -/
def State.farAt (s : State) (o : Op) (h : Home) (x d : Nat) : State × Nat × Bool :=
  let n := o.bytes
  let s := ((s.flushOwn h o.core x).recall h x n).intoAdder x
  let bad := s.poisonAt h x n
  let old := natOf (s.readHome h x n)
  let s := s.afterRead h x n
  if o.kind = .rfold then (s, foldX128 old (sext o.e 7) (if o.size = 2 then f32 else b16), bad)
  else if bad && o.kind != .rclr then (s, 0, false)
  else ((s.writeHome h x (bytesOf n (o.farNew old d))).dropLine o.core x, 0, false)

/-- The operation ends when each lane has been applied (R324): RFOLD writes its result, or consumes poison. -/
def State.closeFar (s : State) (id : Nat) : State :=
  match s.ops.look id with
  | none => s
  | some o =>
    let r := s.answersIn id o
    let lost := o.lanes.any (fun a => a.poisoned) || ((r.1.ops.look id).map (fun o => o.lanes.any (fun a => a.poisoned))).getD false
    if !o.allPerformed then s
    else if !r.2 then r.1
    else if lost then r.1.poisonOp id
    else
      let s := r.1
      let s := if o.kind = .rfold then o.lanes.foldl (fun s a => s.giveReg id o a.thread a.result) s else s
      (s.unpark id).endOp id

/-- The controller has answered (R324): an operation that returns nothing is complete; the result of an RFOLD is written by a further
step, until which its registers read either value (R40). -/
def State.farAnswered (s : State) (id : Nat) : State :=
  match s.ops.look id with
  | some o => if o.kind = .rfold && o.lanes.all (fun a => !a.poisoned) then s else s.closeFar id
  | none => s

/-- The operation adds a delta that the request carries (R323). -/
def OpKind.delta : OpKind → Bool
  | .racc | .raccx => true
  | _ => false

/-- FAR_OPERATION_APPLY (R320, R321); a delta that arrives poisoned poisons its slot and faults (R323). -/
def State.farApply (s : State) (id lane : Nat) : State :=
  match s.liveOp id with
  | none => s
  | some o => match o.lanes.find? (fun a => a.lane == lane) with
    | none => s
    | some a => if o.kind.far && o.allPerformed then s.closeFar id else match a.home with
      | some (.remote pkg, _) =>
        let g := s.sendLane id o a
        if o.kind.far && a.phase == .ready && s.canPerform id o a && o.lanesAhead a then (if g.2 then g.1.sendRemote pkg id lane else g.1) else s
      | some (.glob, x) =>
        let g := s.sendLane id o a
        if !o.kind.far || !s.canPerform id o a || !o.lanesAhead a then s
        else if !g.2 then g.1
        else if s.snapDrops o a then (g.1.setAcc id lane .applied 0 false).farAnswered id
        else if a.poisoned && o.kind.delta then
          (((g.1.recall .glob x o.bytes).updSpace .glob (fun m => m.markPoison x o.bytes)).setAcc id lane .applied 0 true).farAnswered id
        else
          let mix := s.mixed id o a
          let s := ((g.1.mixTrap (some o.tid) none .glob x a.addr mix).blurLoads mix).through a.prot
          let r := s.farAt o .glob x a.data
          ((r.1.setAcc id lane .applied r.2.1 r.2.2).through none).farAnswered id
      | _ => s

def execFarOperationApply (s : State) : Host.Outcome State Fault Refusal := .next (s.farApply s.arg.a s.arg.b)

end Sys2Proof.Machine
end

