-- ==== Sys2Proof/Machine/Matrix.lean ====
section
/-! DEFINITION. The matrix engine and the tile fetch unit (08_matrix.md): MMA, MMAS, MMAX, MZERO, MPIN, MUNPIN, MSTAT, the
array queues, runs and the issue-budget governor. -/

namespace Sys2Proof.Machine

/-! ## Formats and layout -/

/-- The element formats of A and of B (R285). -/
def mtxA (fmt : Nat) : Fmt := match fmt with
  | 0 | 1 => e4m3
  | 2 | 3 => e5m2
  | 4 => e2m1
  | 5 => b16
  | _ => f16
def mtxB (fmt : Nat) : Fmt := match fmt with
  | 0 | 2 => e4m3
  | 1 | 3 => e5m2
  | 4 => e2m1
  | 5 => b16
  | _ => f16

/-- Logical K of a run (R284 to R286). -/
def Mtx.k (m : Mtx) : Nat :=
  (match m.fmt with
    | 4 => 192
    | 5 | 6 => 48
    | _ => 96) * (if m.sparse = 0 then 1 else 2)

/-- Bytes of an A row: values, metadata, scales (R287). -/
def Mtx.rowValues (m : Mtx) : Nat := if m.sparse = 2 then 48 else 96
def Mtx.rowMeta (m : Mtx) : Nat := if m.sparse = 0 then 0 else m.k / 8
def Mtx.scales (m : Mtx) : Nat := if m.scaled then m.k / 32 else 0
def Mtx.rowBytes (m : Mtx) : Nat := m.rowValues + m.rowMeta + m.scales

/-- Bytes of the values of a B column, and of the column with its scales (R288). -/
def Mtx.colValues (m : Mtx) : Nat := if m.sparse = 0 then 96 else 192
def Mtx.colBytes (m : Mtx) : Nat := m.colValues + m.scales

/-- The space that an OPSRC names. -/
def Mtx.space (m : Mtx) : Nat := match m.src with
  | 0 => 2
  | 1 => 3
  | _ => 0

/-- Bits 51:32 that the operands share (R287, R288). -/
def Mtx.high (m : Mtx) : Nat := if m.src = 2 then m.win * 2 ^ 32 else 0

/-- Where column n begins (R288). -/
def Mtx.colAt (m : Mtx) (n : Nat) : Nat := m.high + m.base + m.step * n

/-- The operand ranges: the A rows at some addresses, and the B columns. -/
def Mtx.ranges (m : Mtx) (rows : List Nat) : List (Nat × Nat) :=
  rows.map (fun a => (a, m.rowBytes)) ++ (upFrom 0 m.n).map (fun n => (m.colAt n, m.colBytes))

/-- The granules of ranges, ascending (R299). -/
def granKeys (l : List (Nat × Nat)) : List Nat :=
  l.foldl (fun acc r => (upFrom (r.1 / 32) ((r.1 + r.2 - 1) / 32 + 1 - r.1 / 32)).foldl NatSet.ins acc) []

/-- Clocks of a run (R284, R304). -/
def Op.occupancy (o : Op) : Nat := if o.kind = .mzero then 1 else o.mtx.n / 2

/-- Runs of a protection class (R283). -/
def runsOf (pclass : Nat) : Nat := pclass + 1

/-! ## Issue -/

/-- N of a SHAPE (R291). -/
def shapeN (x : Nat) : Nat := if x = 0 then 16 else if x = 1 then 32 else 64

/-- The fields of a format X instruction with the descriptor and the barrier offset of a thread. -/
def mtxOf (f : FmtX) (scaled accIn : Bool) (e : Env) (th : Nat) : Mtx :=
  let d := (e.t.thread th).vpair f.bdesc.toNat
  { src := f.opsrc.toNat, sparse := f.sparse.toNat, fmt := f.fmt.toNat, n := shapeN f.shape.toNat, base := bits d 31 0, win := bits d 51 32,
    step := 16 * bits d 63 52, bar := if f.nobar.toNat = 1 then none else some ((e.t.thread th).vreg f.bar.toNat),
    scaled := scaled, accIn := accIn }

/-- The space of a matrix barrier object (R300). -/
def Mtx.barSpace (m : Mtx) : Nat := if m.src = 1 then 3 else 2

/-- The home of the barrier object, and the operands-consumed arrival (R300). -/
def Mtx.barHome (m : Mtx) (t : Team) (tid : Nat) : Home := if m.src = 1 then .cluster t.gang else .scratch tid
def State.mtxArrive (s : State) (t : Team) (tid : Nat) (m : Mtx) : State :=
  match m.bar with
  | none => s
  | some a => (s.barUpdate (m.barHome t tid) a .arrive).1

/-- An operand item of the access checks: a want, its bytes and its alignment. -/
structure Item where
  want : Want
  bytes : Nat
  align : Nat

/-- The first fault of operand items in the order of R72, with the lanes that meet it; on a page whose translation is
not held only the address is checked. -/
def State.itemFault (s : State) (e : Env) (l : List Item) : Option Raise :=
  let use := fun (i : Item) => ({ bytes := i.bytes, align := i.align, write := false, access := 0 } : Use)
  let found := fun (code : Nat) (p : Item → Bool) =>
    match l.filter p with
    | [] => none
    | i :: rest => some { code := code, lanes := e.t.laneMask ((i :: rest).map (fun (x : Item) => x.want.th)), addr := wrap i.want.addr 64 : Raise }
  (found 0x07 (fun i => i.want.addr % (i.align : Int) != 0)).orElse fun _ =>
  (found 0x0C (fun i => s.tailed e (use i) i.want)).orElse fun _ =>
  found 0x09 (fun i => s.forbidden e (use i) i.want)

/-- The part of a range in each of its pages, as items (R295). -/
def pageItems (th lane space a n : Nat) : List Item :=
  let mk := fun (x m : Nat) => ({ want := { th := th, lane := lane, space := space, addr := x }, bytes := m, align := 1 } : Item)
  if space != 0 || a / 2 ^ 21 = (a + n - 1) / 2 ^ 21 then [mk a n]
  else
    let m := 2 ^ 21 - a % 2 ^ 21
    [mk a m, mk (a + m) (n - m)]

/-- Every operand item of a matrix instruction: each thread's row, and the columns for every thread. -/
def Mtx.items (m : Mtx) (e : Env) (row : Nat → Nat) : List Item :=
  e.act.flatMap (fun th => pageItems th (e.t.laneOf th) m.space (row th) m.rowBytes)
    ++ (upFrom 0 m.n).flatMap (fun n => e.act.flatMap (fun th => pageItems th (e.t.laneOf th) m.space (m.colAt n) m.colBytes))

/-- The barrier item (R295, R300). -/
def Mtx.barItem (m : Mtx) (th lane : Nat) : List Item :=
  match m.bar with
  | none => []
  | some a => [{ want := { th := th, lane := lane, space := m.barSpace, addr := a }, bytes := 16, align := 16 }]

/-- The alignment items: rows, BASE, barrier offset (R295). -/
def Mtx.alignItems (m : Mtx) (e : Env) (row : Nat → Nat) : List Item :=
  e.act.flatMap (fun th =>
    [ { want := { th := th, lane := e.t.laneOf th, space := m.space, addr := row th }, bytes := 1, align := 16 },
      { want := { th := th, lane := e.t.laneOf th, space := m.space, addr := m.colAt 0 }, bytes := 1, align := 16 } ])

/-- WIN must be 0 with OPSRC 0 or 1 (R288, R295): an item that no permission covers. -/
def Mtx.winItems (m : Mtx) (e : Env) : List Item :=
  if m.src != 2 && m.win != 0 then
    e.act.map (fun th => { want := { th := th, lane := e.t.laneOf th, space := m.space, addr := m.base, bad := true }, bytes := 1, align := 1 })
  else []

/-- The array of the party's quarter has room for an instruction (R283). -/
def State.arrayFull (s : State) (core quarter : Nat) : Bool := decide (4 ≤ ((s.core core).arrays.get [] (quarter % 4)).length)

/-- An instruction enters its array's queue (R283). -/
def State.enqueue (s : State) (core quarter id : Nat) : State :=
  s.updCore core (fun c => { c with arrays := c.arrays.put (quarter % 4) (c.arrays.get [] (quarter % 4) ++ [id]) })

/-- Whether an operation reads matrix operands. -/
def OpKind.multiplies : OpKind → Bool
  | .mma | .mmas | .mmax => true
  | _ => false

/-- No earlier matrix instruction of the team shares a thread with this one (R292). -/
def State.firstInOrder (s : State) (id : Nat) (o : Op) : Bool :=
  s.ops.all (fun p => decide (id ≤ p.1) || p.2.tid != o.tid || !(p.2.kind.multiplies || p.2.kind == .mzero)
    || p.2.lanes.all (fun a => !o.lanes.any (fun b => b.thread == a.thread)))

/-- The accumulators of the operation's threads, as a matrix instruction that made these writes leaves them. -/
def State.accsOf (s : State) (o : Op) (outs : List (Nat × List (Nat × Nat))) : Tab (List Nat) :=
  match s.teams.look o.tid with
  | none => []
  | some t => o.lanes.foldl (fun (m : Tab (List Nat)) a =>
      m.put a.thread ((upFrom 0 o.mtx.n).map (fun n =>
        ((outs.lookup a.thread).bind (·.lookup (o.data + n))).getD ((t.thread a.thread).vreg (o.data + n))))) []

/-- Put a matrix instruction in flight: its counter, its array, and the parking of its warp (R297). -/
def mtxLaunch (e : Env) (s : State) (o : Op) (parks : Bool) : Res :=
  if e.full 4 then .suspend s (e.waitsFor 4)
  else if s.arrayFull e.core e.w.quarter then .handled s
  else
    let o := { o with parks := parks, runs := runsOf e.pclass, upset := e.upset }
    let r := s.launchOp e { o with mtx := { o.mtx with accs := if s.firstInOrder s.nextId o then s.accsOf o [] else [] } }
    let s := r.1.enqueue e.core e.w.quarter r.2
    if parks then .park s (.access r.2) else .done s

/-- The registers of a format X instruction: its accumulators, row, descriptor and barrier registers (R295). -/
def mtxRegs (f : FmtX) : List (Nat × Nat) :=
  [(f.acc.toNat, shapeN f.shape.toNat), (f.arow.toNat, 1), (f.bdesc.toNat, 2), (f.bar.toNat, if f.nobar.toNat = 1 then 0 else 1)]

/-- MMA, MMAS, MMAX (R293 to R297). -/
def mtxIssue (kind : OpKind) (scaled accIn : Bool) (f : FmtX) (s : State) : State :=
  s.issue f.msel.toNat f.pclass.toNat 4 false (fun _ => mtxRegs f)
    (fun e => !e.lead && (f.sparse == 0 || s.feature 2)) (fun e s =>
    if e.act.isEmpty then
      let th := e.all.headD 0
      let m := mtxOf f scaled accIn e th
      match s.itemFault e (m.barItem th (e.t.laneOf th)) with
      | some r => .fault { r with lanes := 0 }
      | none => .done (s.mtxArrive e.t e.tid m)
    else
      match (e.uniform 2 (fun th => (e.t.thread th).vpair f.bdesc.toNat)).orElse (fun _ =>
          if f.nobar.toNat = 1 then none else e.uniform 3 (fun th => (e.t.thread th).vreg f.bar.toNat)) with
      | some r => .fault r
      | none =>
        let m := mtxOf f scaled accIn e (e.act.headD 0)
        let row := fun th => m.high + (e.t.thread th).vreg f.arow.toNat
        let bars := e.act.flatMap (fun th => m.barItem th (e.t.laneOf th))
        match s.itemFault e (m.alignItems e row ++ bars ++ m.winItems e ++ m.items e row) with
        | some r => .fault r
        | none =>
          let lanes : List Acc := e.act.map (fun th => { lane := e.t.laneOf th, thread := th, space := m.space, addr := row th })
          let o := e.op s kind (some 4) lanes
          mtxLaunch e s { o with data := f.acc.toNat, mtx := m } (m.sparse != 0 || m.src == 2 || e.pclass != 0))
    (cmp := .accumulators)

def execMma (f : FmtX) (s : State) : Host.Outcome State Fault Refusal := .next (mtxIssue .mma false true f s)
def execMmas (f : FmtX) (s : State) : Host.Outcome State Fault Refusal := .next (mtxIssue .mmas true true f s)
def execMmax (f : FmtX) (s : State) : Host.Outcome State Fault Refusal := .next (mtxIssue .mmax false false f s)

/-- MZERO (R304): a matrix instruction with no operands. -/
def execMzero (f : FmtA) (s : State) : Host.Outcome State Fault Refusal :=
  let n := shapeN f.md.toNat
  .next (s.issue f.msel.toNat f.pclass.toNat 4 false (fun _ => [(f.dst.toNat, n)]) (fun e => !e.lead) (fun e s =>
    if e.act.isEmpty then .done s
    else mtxLaunch e s { e.op s .mzero (some 4) e.idleLanes with data := f.dst.toNat, mtx := { n := n, checked := true, metaOk := true } }
      (e.pclass != 0)) (cmp := .accumulators))

/-! ## Pins -/

/-- Bytes pinned by a team, and on a core (R302, R305). -/
def State.pinnedBy (s : State) (tid : Nat) : Nat := 128 * (s.ms.pins.filter (fun p => p.tid == tid)).length
def State.pinnedOn (s : State) (core : Nat) : Nat := 128 * (s.ms.pins.filter (fun p => p.core == core)).length

/-- MPIN and MUNPIN (R302): uniform operands, alignment, the checks of a load on every page of the range. -/
def pinIssue (kind : OpKind) (f : FmtA) (s : State) : State :=
  let regs := [(f.a.toNat, 2), (f.b.toNat, 1), (f.dst.toNat, 1)]
  s.issue f.msel.toNat f.pclass.toNat 4 false (fun e => if e.lead then [] else regs) (fun _ => true) (fun e s =>
    if e.agents.isEmpty then .done s
    else
      let va := fun th => if e.lead then e.t.sreg f.a.toNat else (e.t.thread th).vpair f.a.toNat
      let len := fun th => if e.lead then e.t.sreg f.b.toNat else (e.t.thread th).vreg f.b.toNat
      match (e.uniform 1 va).orElse (fun _ => e.uniform 2 len) with
      | some r => .fault r
      | none =>
        let th := e.agents.headD 0
        let a := va th
        let n := len th
        let m := if e.lead then 0 else e.t.laneMask e.act
        if e.full 4 then .suspend s (e.waitsFor 4)
        else if a % 128 != 0 then .fault { code := 0x07, lanes := m, addr := a }
        else
          let bad := n = 0 || n % 128 != 0 || 2 ^ 24 < n
          let pages := if bad then [] else (upFrom (a / 2 ^ 21) ((a + n - 1) / 2 ^ 21 + 1 - a / 2 ^ 21)).flatMap (fun p =>
            let lo := max a (p * 2 ^ 21)
            e.agents.flatMap (fun th => pageItems th (e.laneOf th) 0 lo (min (a + n) ((p + 1) * 2 ^ 21) - lo)))
          match s.itemFault e pages with
          | some r => .fault { r with lanes := m }
          | none =>
            let waits := pages.any (fun i => s.needsWalk e i.want)
            let r := s.launchOp e { e.op s kind (some 4) e.idleLanes with
              data := f.dst.toNat, args := [a, if bad then 0 else n], parks := waits }
            if waits then .park r.1 (.access r.2) else .done r.1)

def execMpin (f : FmtA) (s : State) : Host.Outcome State Fault Refusal := .next (pinIssue .mpin f s)
def execMunpin (f : FmtA) (s : State) : Host.Outcome State Fault Refusal := .next (pinIssue .munpin f s)

/-- MSTAT (R305). -/
def State.mstat (s : State) (e : Env) (sel : Nat) : Nat :=
  let k := s.core e.core
  match sel with
  | 0 => k.stall
  | 1 => k.budget + k.next * 2 ^ 16 + k.used * 2 ^ 32
  | 2 => s.pinnedBy e.tid
  | 3 => e.t.unpinned
  | _ => (k.arrays.get [] (e.w.quarter % 4)).length

def execMstat (f : FmtA) (s : State) : Host.Outcome State Fault Refusal :=
  .next (s.issue f.msel.toNat f.pclass.toNat 4 false (fun _ => [(f.dst.toNat, 2)]) (fun e => !e.lead) (fun e s =>
    .done (s.setV e.tid (e.act.map (fun th => (th, pairWrites f.dst.toNat (s.mstat e f.md.toNat)))))))

/-! ## Tile fetch -/

/-- Take an operation out of the array queues. -/
def State.dequeue (s : State) (core id : Nat) : State :=
  s.updCore core (fun c => { c with arrays := c.arrays.map (fun p => (p.1, p.2.filter (· != id))) })

/-- A fault of a matrix instruction found after its issue (R297): it leaves its array and traps. -/
def State.mtxFault (s : State) (id : Nat) (o : Op) (r : Raise) : State := (s.dequeue o.core id).opFault id r

/-- A page that an operation needs and the core does not hold: its lowest address with the lanes that need it. -/
def State.pageMissing (s : State) (e : Env) (l : List Item) : Option Nat :=
  (l.find? (fun i => s.needsWalk e i.want)).map (fun i => i.want.addr.toNat)

/-- Begin the walk of a page for an operation; every lane waits for it (R296). -/
def State.pageWalk (s : State) (id : Nat) (o : Op) (t : Team) (va : Nat) : State :=
  let r := s.startWalk { s.walkOf t o.fid.isNone o.core va 0 with agent := 3 }
  r.1.updOp id (fun o => { o with lanes := o.lanes.map (fun a => { a with phase := .walk r.2 }) })

/-- An operation is waiting for a walk. -/
def Op.walking (o : Op) : Bool := o.lanes.any (fun a => match a.phase with
  | .walk _ => true
  | _ => false)

/-- Translate and check the pages of a matrix instruction (R296, R297): the granules with their homes, a fault, or a walk. -/
def State.mtxPages (s : State) (id : Nat) (o : Op) : State :=
  match s.opEnv o with
  | none => s
  | some e =>
    let row := fun (th : Nat) => ((o.lanes.find? (fun a => a.thread == th)).map (·.addr)).getD 0
    let items := o.mtx.items e row
    match s.itemFault e items with
    | some r => s.mtxFault id o r
    | none => match s.pageMissing e items with
      | some va => s.pageWalk id o e.t va
      | none =>
        let grans : Tab Gran := (granKeys (o.mtx.ranges (o.lanes.map (·.addr)))).foldl (fun (g : Tab Gran) k =>
          match s.homeOf o.tid e.t o.core 0 o.mtx.space (32 * k) with
          | some (h, a) => g.put k { home := h, addr := a, data := (o.mtx.grans.look k).bind (·.data),
                                     prot := if o.mtx.space = 0 then (s.held o.core e.t.ctx (32 * k)).map (·.prot) else none
                                     cache := if o.mtx.space = 0 then ((s.held o.core e.t.ctx (32 * k)).map (·.cache)).getD 0 else 0 }
          | none => g) []
        let s := s.updOp id (fun o => { o with mtx := { o.mtx with checked := true, metaOk := o.mtx.sparse == 0, grans := grans } })
        if o.mtx.sparse = 0 && o.pclass = 0 && o.parks then s.unpark id else s

/-- Every earlier store of the instruction's threads to a granule has been acknowledged or performed (R298), and what they acquired with
queue entries is done (R109). -/
def State.storesDone (s : State) (id : Nat) (o : Op) (g : Gran) : Bool :=
  s.ops.all (fun p => decide (id ≤ p.1) || p.2.tid != o.tid || p.2.lanes.all (fun a =>
    !o.lanes.any (fun b => b.thread == a.thread) || a.phase == .done || (match a.home with
      | some (h, x) => h != g.home || !overlaps x p.2.bytes g.addr 32 || (a.performed && (g.home.onChip || !p.2.kind.acked))
      | none => !p.2.kind.touches)))
    && o.lanes.all (fun a => s.popsDone o.tid a.thread id)

/-- A byte of the fetched operands. -/
def Mtx.byte (m : Mtx) (a : Nat) : Nat :=
  match m.grans.look (a / 32) with
  | some g => match g.data with
    | some d => (d.1.getD (a % 32) 0).toNat
    | none => 0
  | none => 0

/-- Metadata byte g of a row, and the number of bits it must have (R289). -/
def Mtx.metaByte (m : Mtx) (row g : Nat) : Nat := m.byte (row + m.rowValues + g)
def Mtx.keep (m : Mtx) : Nat := if m.sparse = 1 then 4 else 2

/-- The first metadata byte of a row with a wrong count. -/
def Mtx.badMeta (m : Mtx) (row : Nat) : Option Nat := (upFrom 0 m.rowMeta).find? (fun g => popcount (m.metaByte row g) 8 != m.keep)

/-- The granules of some ranges have been read. -/
def Mtx.have (m : Mtx) (l : List (Nat × Nat)) : Bool :=
  (granKeys l).all (fun k => match m.grans.look k with
    | some g => g.data.isSome
    | none => true)

/-- The metadata check, once every active lane's metadata has been read (R289, R297). -/
def State.checkMeta (s : State) (id : Nat) : State :=
  match s.ops.look id with
  | none => s
  | some o =>
    let m := o.mtx
    if m.metaOk || !m.have (o.lanes.map (fun a => (a.addr + m.rowValues, m.rowMeta))) then s
    else
      let bad := o.lanes.filter (fun a => (m.badMeta a.addr).isSome)
      match bad, s.teams.look o.tid with
      | a :: _, some t =>
        s.mtxFault id o { code := 0x12, lanes := t.laneMask (bad.map (·.thread)), info := (m.badMeta a.addr).getD 0 }
      | _, _ =>
        let s := s.updOp id (fun o => { o with mtx := { o.mtx with metaOk := true } })
        if o.pclass = 0 && o.parks then s.unpark id else s

/-- The team has pinned a virtual line (R303). -/
def State.isPinned (s : State) (tid vline : Nat) : Bool := s.ms.pins.any (fun p => p.tid == tid && p.vline == vline)

/-- The stores in flight that have landed in part in a range of a home, with the address there of their first byte (R244). -/
def State.partStores (s : State) (h : Home) (x n : Nat) : List (Nat × Nat × Acc) :=
  s.ops.flatMap (fun q =>
    if q.2.kind != .st && q.2.kind != .stq then []
    else q.2.lanes.filterMap (fun a => match a.home with
      | some (k, y) => if k = h && a.phase == .ready && a.part != 0 && overlaps x n y q.2.bytes then some (q.2.bytes, y, a) else none
      | none => none))

/-- Bytes of a range of a home with the stores that have landed in part as they are after them, so that no store is read in part (R299). -/
def State.wholeStores (s : State) (h : Home) (x n : Nat) (bs : List Byte) : List Byte :=
  (s.partStores h x n).foldl (fun bs w => bs.zipIdx.map (fun q =>
    if decide (w.2.1 ≤ x + q.2) && decide (x + q.2 < w.2.1 + w.1) then BitVec.ofNat 8 (w.2.2.data / 256 ^ (x + q.2 - w.2.1)) else q.1)) bs

/-- Read one granule, whole (R299). The last one of a plain instruction makes the operands-consumed arrival (R300). -/
def State.readGran (s : State) (id k : Nat) : State :=
  match s.ops.look id with
  | none => s
  | some o => match o.mtx.grans.look k, s.teams.look o.tid with
    | some g, some t =>
      let far : Far := match g.home with
        | .remote pkg => [(pkg, g.addr, 32)]
        | _ => []
      let q := if s.ms.asks.any (fun x => x.who == (Requester.tile id).key && far.contains (x.pkg, x.addr, x.len)) then (s, .go)
        else s.request (.tile id) (baseOf (dieOf o.core)) (s.routerOf g.home g.addr).toList (s.core o.core).clock
      let x := q.1.ask (.tile id) (if q.2 = .go then far else [])
      if g.data.isSome || !s.storesDone id o g || (s.space g.home).isAbsent g.addr 32 then s
      else if q.2 = .wait || x.2.isNone then x.1
      else
        let got := (x.2.getD []).headD ([], 0)
        let bad := q.2 == .lost || s.tainted (.tile id)
        let s := ((if q.2 = .lost then x.1.lostRecord (s.identOf t) t.number else x.1).untaint (.tile id)).unask (.tile id) far
        let s := ((s.recall g.home g.addr 32).mixEngine (some o.tid) none g.home g.addr 32 (32 * k) (evictOf 0 g.cache)).through g.prot
        let bs := match g.home with
          | .remote _ => (upFrom 0 32).map (fun i => got.1.getD i 0)
          | _ => s.wholeStores g.home g.addr 32 (s.readHome g.home g.addr 32)
        let p := bad || (match g.home with
          | .remote _ => got.2 != 0
          | _ => s.poisonAt g.home g.addr 32)
        let s := (s.through none).noteEngine (some o.tid) g.home g.addr 32 (32 * k)
        if bs.length < 32 then s
        else
          let firstOfLine := !o.mtx.grans.any (fun q => q.1 / 4 == k / 4 && q.2.data.isSome)
          let s := if o.mtx.src = 2 && firstOfLine && !s.isPinned o.tid (k / 4) then
              s.updTeam o.tid (fun t => { t with unpinned := satNat (t.unpinned + 1) (2 ^ 64 - 1) }) else s
          let s := s.drawn.updOp id (fun o => { o with mtx := { o.mtx with grans := o.mtx.grans.upd k (fun g => { g with data := some (bs, p) }) } })
          let left := (o.mtx.grans.filter (fun q => q.1 != k && q.2.data.isNone)).isEmpty
          let s := s.checkMeta id
          match s.ops.look id with
          | some o => if left && o.pclass = 0 then s.mtxArrive t o.tid o.mtx else s
          | none => s
    | _, _ => s

/-- TILE_FETCH_READ: translate and check the operands, or read one granule (R296 to R299). -/
def State.tileFetch (s : State) (id k : Nat) : State :=
  match s.liveOp id with
  | none => s
  | some o =>
    if !o.kind.multiplies || o.walking then s
    else if o.mtx.checked then s.readGran id k
    else s.mtxPages id o

def execTileFetchRead (s : State) : Host.Outcome State Fault Refusal := .next (s.tileFetch s.arg.a s.arg.b)

/-! ## Runs and results -/

/-- Every operand has been read and checked. -/
def Op.fetched (o : Op) : Bool := o.mtx.checked && o.mtx.metaOk && o.mtx.grans.all (fun g => g.2.data.isSome)

/-- The governor lets a run start (R308): MZERO always, the others while USED is below BUDGET. -/
def Core.allows (c : Core) (k : OpKind) : Bool := k == .mzero || decide (c.used < c.budget)

/-- The head of an array's queue that has a run ready: its operands are read, and the array is free. -/
def State.runReady (s : State) (core quarter : Nat) : Option (Nat × Op) :=
  let c := s.core core
  if c.busy.get 0 quarter != 0 then none
  else match c.arrays.get [] quarter with
    | [] => none
    | id :: _ => match s.ops.look id with
      | some o => if o.fetched && 0 < o.runs then some (id, o) else none
      | none => none

/-- A window boundary of the governor (R308): USED, then BUDGET, once for each boundary. NEXT acts as a value from 1 to 1,024. -/
def Core.newWindow (c : Core) : Core :=
  { c with used := c.used - c.budget, budget := if c.next = 0 then 1 else min c.next 1024, window := c.clock / 256 }

/-- The governor takes the boundary of the present clock, if there is one that it has not taken. -/
def State.boundary (s : State) (core : Nat) : State :=
  let c := s.core core
  if c.clock % 256 = 0 && c.window != c.clock / 256 then s.updCore core Core.newWindow else s

/-- A run starts, if one is ready and the governor lets it: it is charged, and occupies its array (R283, R308). -/
def State.startOne (s : State) (core quarter : Nat) : State :=
  match s.runReady core quarter with
  | none => s
  | some (id, o) =>
    if !(s.core core).allows o.kind then s
    else
      (s.updCore core (fun c => { c with busy := c.busy.set 0 quarter o.occupancy
                                         used := if o.kind = .mzero then c.used else c.used + o.occupancy })).updOp id
        (fun o => { o with runs := o.runs - 1, started := true })

/-- MATRIX_RUN_START (R308): the boundary of the clock comes first; the runs that are ready on lower quarters start before this one. -/
def State.startRun (s : State) (core quarter : Nat) : State :=
  (upFrom 0 (quarter + 1)).foldl (fun s q => s.startOne core q) (s.boundary core)

def execMatrixRunStart (s : State) : Host.Outcome State Fault Refusal := .next (s.startRun s.arg.a s.arg.b)

/-- A code of k elements from a start address (R286). -/
def Mtx.elem (m : Mtx) (a k : Nat) : Nat :=
  match m.fmt with
  | 4 => m.byte (a + k / 2) / 16 ^ (k % 2) % 16
  | 5 | 6 => m.byte (a + 2 * k) + 256 * m.byte (a + 2 * k + 1)
  | _ => m.byte (a + k)

/-- The logical positions of the values of a row (R289). -/
def Mtx.kept (m : Mtx) (row : Nat) : List Nat :=
  if m.sparse = 0 then upFrom 0 m.k else (upFrom 0 m.k).filter (fun k => bit (m.metaByte row (k / 8)) (k % 8))

/-- A scale factor applied to a product (R290): 0xFF is NaN. -/
def scaleTerm (v : FVal) (code : Nat) : FVal := if code = 255 then .nan else v.scale ((code : Int) - 127)

/-- One product with its scales (R293). -/
def Mtx.term (m : Mtx) (row col j k : Nat) : FVal :=
  let p := ((mtxA m.fmt).val (m.elem row j)).mul ((mtxB m.fmt).val (m.elem col k))
  if m.scaled then
    scaleTerm (scaleTerm p (m.byte (row + m.rowValues + m.rowMeta + k / 32))) (m.byte (col + m.colValues + k / 32))
  else p

/-- One element of the result (R293). -/
def Mtx.result (m : Mtx) (row n acc : Nat) : Nat :=
  let col := m.colAt n
  let ks := (m.kept row).zipIdx
  if m.fmt = 7 then
    wrap (ks.foldl (fun (z : Int) p => z + sext (m.elem row p.2) 8 * sext (m.elem col p.1) 8) (if m.accIn then sext acc 32 else 0)) 32
  else f32.sumRound 0 0 ((if m.accIn then [f32.val acc] else []) ++ ks.map (fun p => m.term row col p.2 p.1))

/-- Writes of the accumulators of one thread. -/
def Op.accWrites (o : Op) (acc : List Nat) (row : Nat) : List (Nat × Nat) :=
  (upFrom 0 o.mtx.n).map (fun n => (o.data + n, if o.kind = .mzero then 0 else o.mtx.result row n (acc.getD n 0)))

/-- The accumulator n of a thread that the operation adds to: as the matrix instructions before it left it; where another instruction
has written the register meanwhile, that value or what the register now holds (R292). -/
def State.accAt (s : State) (o : Op) (t : Team) (th n : Nat) : Nat :=
  match o.mtx.accs.look th with
  | some l => if s.freeBit (th * 512 + n) then l.getD n 0 else (t.thread th).vreg (o.data + n)
  | none => (t.thread th).vreg (o.data + n)

/-- The accumulators that an operation writes (R293). -/
def State.mtxOuts (s : State) (o : Op) (t : Team) : List (Nat × List (Nat × Nat)) :=
  o.lanes.map (fun a => (a.thread, o.accWrites ((upFrom 0 o.mtx.n).map (s.accAt o t a.thread)) a.addr))

/-- The next matrix instructions of the same threads read the accumulators as this one, with these writes, leaves them (R292). -/
def State.passAccs (s : State) (tid : Nat) (outs : List (Nat × List (Nat × Nat))) : State :=
  s.ops.foldl (fun s p =>
    if p.2.tid == tid && (p.2.kind.multiplies || p.2.kind == .mzero) && p.2.mtx.accs.isEmpty && s.firstInOrder p.1 p.2 then
      s.updOp p.1 (fun o => { o with mtx := { o.mtx with accs := s.accsOf o outs } })
    else s) s

/-- The writeback of a matrix instruction: its accumulators are written, the arrival of a DUP or TRI instruction is made, and it
completes (R292, R300, R306). -/
def State.mtxLand (s : State) (id : Nat) (o : Op) : State :=
  let s := o.outs.foldl (fun s p => s.land o.tid id p.1 true p.2) s
  let s := match s.teams.look o.tid with
    | some t => if o.pclass != 0 then s.mtxArrive t o.tid o.mtx else s
    | none => s
  ((((s.dequeue o.core id).unpark id).endOp id).passAccs o.tid o.outs).ackEngines (fun g => g.tid == some o.tid)

/-- MATRIX_WRITEBACK of a matrix instruction: its last run is over, and it is first in array order (R292, R306). Its copies are compared
(R68, R310), and its results are ready; they are written by the next such step, and until then each register reads either value (R40). -/
def State.mtxWriteback (s : State) (id : Nat) (o : Op) : State :=
  let c := s.core o.core
  let busy := c.arrays.any (fun p => p.2.head? == some id && c.busy.get 0 p.1 != 0)
  if !o.outs.isEmpty then s.mtxLand id o
  else if o.runs != 0 || !o.started || busy || !s.firstInOrder id o then s
  else match s.opEnv o, s.teams.look o.tid with
    | some e, some t =>
      let u := o.upset.getD {}
      let outs := s.mtxOuts o t
      let words := fun th => ((outs.lookup th).getD []).map (·.2)
      match u.compare e (fun _ _ => 0) words with
      | some r => s.mtxFault id o r
      | none =>
        if o.mtx.grans.any (fun g => (g.2.data.map (·.2)).getD false) then (s.dequeue o.core id).poisonOp id
        else
          (s.logVoted e o.cls (fun _ _ => 0) words u).drawn.updOp id (fun o => { o with outs := outs })
    | _, _ => s

/-- The range of a pin instruction, line by line, with the home of each line; the slices of another package, and the places that a
misconfigured entry has none of, count as one slice each (log entry 137). -/
def State.pinLines (s : State) (o : Op) (t : Team) (va len : Nat) : List Pin :=
  (upFrom (va / 128) (len / 128)).filterMap (fun v =>
    match s.homeOf o.tid t o.core 0 0 (128 * v) with
    | some (.glob, a) => some { tid := o.tid, core := o.core, ctx := t.ctx, vline := v, line := a / 128, slice := (s.homeSlice a).getD (2 ^ 17) }
    | some (.remote pkg, a) => some { tid := o.tid, core := o.core, ctx := t.ctx, vline := v, line := (2 ^ 46 + pkg * 2 ^ 43 + a) / 128, slice := 2 ^ 16 + pkg }
    | _ => none)

/-- Some slice would hold more than 8 MiB pinned (R302); what other packages have pinned in a slice of theirs is not known here. -/
def State.sliceOver (s : State) (new : List Pin) : Bool :=
  new.any (fun p => decide (2 ^ 23 / 128 < (s.ms.pins.filter (fun q => q.slice == p.slice)).length + (new.filter (fun q => q.slice == p.slice)).length)
    || (decide (2 ^ 16 ≤ p.slice) && decide (p.slice < 2 ^ 17) && s.freeBit p.slice))

/-- A matrix instruction that reads a range of global memory and has not yet read all its operands (R302). -/
def Op.stillReads (o : Op) (va len : Nat) : Bool :=
  o.kind.multiplies && o.mtx.src == 2 && !o.fetched && (o.mtx.ranges (o.lanes.map (·.addr))).any (fun r => overlaps r.1 r.2 va len)

/-- The status of a pin instruction is known: it is written by the next such step (R40). -/
def State.pinStatus (s : State) (id : Nat) (status : Nat) : State :=
  s.updOp id (fun o => { o with lanes := o.lanes.map (fun a => { a with phase := .applied, result := status }) })

/-- Completion of MPIN or MUNPIN: translation and checks, then the pins and the status (R302), which is written in each lane. -/
def State.pinDone (s : State) (id : Nat) (o : Op) : State :=
  match s.opEnv o with
  | none => s
  | some e =>
    let va := o.args.getD 0 0
    let len := o.args.getD 1 0
    let items := if len = 0 then [] else (upFrom (va / 2 ^ 21) ((va + len - 1) / 2 ^ 21 + 1 - va / 2 ^ 21)).flatMap (fun p =>
      let lo := max va (p * 2 ^ 21)
      o.lanes.flatMap (fun a => pageItems a.thread a.lane 0 lo (min (va + len) ((p + 1) * 2 ^ 21) - lo)))
    if o.allPerformed then ((o.lanes.foldl (fun s a => s.giveReg id o a.thread a.result) s).unpark id).endOp id
    else match s.itemFault e items with
    | some r => s.opFault id { r with lanes := if o.fid.isNone then 0 else r.lanes }
    | none => match s.pageMissing e items with
      | some x => s.pageWalk id o e.t x
      | none =>
        if len = 0 then s.pinStatus id 3
        else if o.kind = .munpin then
          if s.ops.any (fun p => decide (p.1 < id) && p.2.tid == o.tid && p.2.stillReads va len) then s
          else (s.updMs (fun m => { m with pins := m.pins.filter (fun q =>
            !(q.tid == o.tid && decide (va / 128 ≤ q.vline) && decide (q.vline < (va + len) / 128))) })).pinStatus id 0
        else
          let new := (s.pinLines o e.t va len).filter (fun p => !s.isPinned o.tid p.vline)
          if 2 ^ 24 < s.pinnedOn o.core + 128 * new.length then s.pinStatus id 1
          else if s.sliceOver new then s.drawn.pinStatus id 2
          else
            let s := new.foldl (fun (s : State) p => s.touchL2 .glob (128 * p.line) 128) s.drawn
            (s.updMs (fun m => { m with pins := m.pins ++ new })).pinStatus id 0

/-- MATRIX_WRITEBACK: a matrix instruction writes back, or MPIN or MUNPIN writes its status (R306). -/
def State.writeback (s : State) (id : Nat) : State :=
  match s.liveOp id with
  | none => s
  | some o =>
    if o.walking then s
    else if o.kind.multiplies || o.kind = .mzero then s.mtxWriteback id o
    else if o.kind = .mpin || o.kind = .munpin then s.pinDone id o
    else s

def execMatrixWriteback (s : State) : Host.Outcome State Fault Refusal := .next (s.writeback s.arg.a)

/-- GOVERNOR_WINDOW_BOUNDARY (R308). -/
def execGovernorWindowBoundary (s : State) : Host.Outcome State Fault Refusal := .next (s.boundary s.arg.a)

end Sys2Proof.Machine
end

