-- ==== Sys2Proof/Machine/CopyGeom.lean ====
section
/-! DEFINITION. The canonical order of a copy request (R265, R266): the run of contiguous bytes at a canonical offset, and
the checks of a request (R267). -/

namespace Sys2Proof.Machine

/-- A run of bytes contiguous in source and destination: the source (none for fill), the destination, the length, and
whether it is poisoned by its index word (R277). -/
structure Run where
  src : Option Int
  dst : Int
  len : Nat
  poisoned : Bool := false
  deriving DecidableEq, Repr

/-- Indices of element n in extents, dimension 0 fastest. -/
def indices (n : Nat) : List Nat → List Nat
  | [] => []
  | e :: rest => n % e :: indices (n / e) rest

/-- Sum of index times stride from dimension 1 up; dimension 0 has the element size as stride. -/
def dotFrom (elem : Nat) (idx : List Int) (stride : List Int) : Int :=
  match idx with
  | [] => 0
  | i0 :: rest => i0 * elem + (rest.zip stride).foldl (fun acc p => acc + p.1 * p.2) 0

/-- Elements of a shape. -/
def Shape.count (h : Shape) : Nat := h.ext.foldl (· * ·) 1

/-- The run at a canonical offset (R266). -/
def Copy.runAt (c : Copy) (off : Nat) : Run :=
  let h := c.shape
  let src0 : Int := c.src
  let dst0 : Int := c.dst
  match c.mode with
  | 1 =>
    let i := indices (off / h.elem) h.ext
    let r := off % h.elem
    let ii : List Int := i.map Int.ofNat
    { src := some (src0 + dotFrom h.elem ii h.ss + r), dst := dst0 + dotFrom h.elem ii h.ds + r
      len := (h.ext.headD 1 - i.headD 0) * h.elem - r }
  | 2 =>
    let i := indices (off / h.elem) h.ext
    let r := off % h.elem
    let ii : List Int := i.map Int.ofNat
    let cc := (ii.zip h.origin).map (fun p => p.1 + p.2)
    let dst := dst0 + dotFrom h.elem ii h.ds + r
    let rest := h.ext.headD 1 - i.headD 0
    let c0 := cc.headD 0
    let b0 : Int := h.bound.headD 0
    if !((cc.zip h.bound).drop 1).all (fun p => decide (0 ≤ p.1) && decide (p.1 < (p.2 : Int))) || b0 ≤ c0 then
      { src := none, dst := dst, len := rest * h.elem - r }
    else if c0 < 0 then { src := none, dst := dst, len := min rest (-c0).toNat * h.elem - r }
    else { src := some (src0 + dotFrom h.elem cc h.ss + r), dst := dst, len := min rest (b0 - c0).toNat * h.elem - r }
  | 3 =>
    let row := h.ext.headD 1 * h.elem
    let k := off / row
    let r := off % row
    let dst := dst0 + k * h.ds.headD 0 + r
    match c.index[k]? with
    | some (x, p) =>
      if x = 0xFFFFFFFF || p then { src := none, dst := dst, len := row - r, poisoned := p }
      else { src := some (src0 + x * h.ss.headD 0 + r), dst := dst, len := row - r }
    | none => { src := none, dst := dst, len := row - r }
  | _ => { src := some (src0 + off), dst := dst0 + off, len := c.total - off }

/-- The fill byte at a canonical offset (R265). -/
def Copy.fillByte (c : Copy) (off : Nat) : Byte := BitVec.ofNat 8 (c.shape.fill / 256 ^ (off % c.shape.elem % 4))

/-- The runs of a canonical range, by fuel. -/
def Copy.runs (c : Copy) (lo hi : Nat) : Nat → List (Nat × Run)
  | 0 => []
  | n + 1 =>
    if hi ≤ lo then []
    else
      let r := c.runAt lo
      if r.len = 0 then [] else (lo, { r with len := min r.len (hi - lo) }) :: c.runs (lo + r.len) hi n

/-- A number of runs that no request exceeds in the range its footprint allows. -/
def Copy.runFuel (c : Copy) : Nat :=
  match c.mode with
  | 1 => c.shape.count / (c.shape.ext.headD 1)
  | 2 => 3 * (c.shape.count / (c.shape.ext.headD 1))
  | 3 => c.index.length
  | _ => 1

/-- Every run of the request. -/
def Copy.allRuns (c : Copy) : List (Nat × Run) := c.runs 0 c.total c.runFuel

/-! ## Checks at acceptance -/

/-- Whether a list of bytes is all zero. -/
def allZero (l : List Byte) : Bool := l.all (fun b => b == 0)

/-- Bytes a range check covers in a space of a team: every byte inside the footprint, or a virtual address below 2^52. -/
def State.inSpace (s : State) (t : Team) (space : Nat) (a : Int) (n : Nat) : Bool :=
  decide (0 ≤ a) && (match space with
    | 0 => decide (a.toNat + n ≤ 2 ^ 52)
    | 2 => decide (a.toNat + n ≤ t.scratchBytes)
    | 3 => decide (a.toNat + n ≤ t.clusterBytes)
    | _ => decide (a.toNat + n ≤ (s.ctx t.ctx).chipGranules * 2 ^ 24))

/-- Read a shape record of DIMS dimensions, at most 5 (R265). -/
def shapeOf (b : List Byte) (origin : List Int) : Shape :=
  let d := min (fieldAt b 0 1) 5
  { elem := 2 ^ fieldAt b 1 1, ext := (upFrom 0 d).map (fun k => fieldAt b (8 + 4 * k) 4)
    ss := (upFrom 0 (max d 2 - 1)).map (fun k => sext (fieldAt b (0x20 + 8 * k) 8) 64)
    ds := (upFrom 0 (max d 2 - 1)).map (fun k => sext (fieldAt b (0x40 + 8 * k) 8) 64)
    bound := (upFrom 0 d).map (fun k => fieldAt b (0x60 + 4 * k) 4), origin := origin, fill := fieldAt b 4 4 }

/-- The fields of a request record with its shape record and index words, as a request (R263). -/
def requestOf (tid core off : Nat) (b : List Byte) (shape : Shape) (index : List (Nat × Bool)) : Copy :=
  let mode := fieldAt b 1 1
  let total := match mode with
    | 1 | 2 => shape.count * shape.elem
    | 3 => fieldAt b 0x20 4 * (shape.ext.headD 1 * shape.elem)
    | _ => fieldAt b 0x20 4
  { tid := tid, core := core, record := some off, mode := mode, scope := fieldAt b 2 1, credit := bit (fieldAt b 3 1) 0
    srcSpace := fieldAt b 4 1, dstSpace := fieldAt b 5 1, barSpace := fieldAt b 6 1, evict := fieldAt b 7 1
    src := fieldAt b 8 8, dst := fieldAt b 0x10 8, bar := fieldAt b 0x18 8, shape := shape, index := index
    total := total, gaps := [(0, total)] }

/-- A space code of a request. -/
def copySpace (x : Nat) : Bool := x == 0 || x == 2 || x == 3 || x == 4

/-- Reserved bytes and bits, mode-unused fields, and the entries of the dimensions at or above DIMS are 0 (cause 3). -/
def reservedOk (b sh : List Byte) : Bool :=
  let mode := fieldAt b 1 1
  let shaped := mode == 1 || mode == 2 || mode == 3
  let d := fieldAt sh 0 1
  let zero := fun (off n : Nat) => fieldAt b off n == 0
  let szero := fun (off n : Nat) => fieldAt sh off n == 0
  decide (fieldAt b 3 1 < 2) && bit (fieldAt b 7 1) 3 == false && bit (fieldAt b 7 1) 7 == false && zero 0x2A 2
    && allZero ((b.drop 0x54).take 44)
    && (!(mode == 1 || mode == 2) || zero 0x20 4) && (shaped || zero 0x24 4) && (if mode = 4 then decide (fieldAt b 0x28 2 < 16) else zero 0x28 2)
    && (mode == 3 || zero 0x2C 4) && (mode == 2 || allZero ((b.drop 0x40).take 20))
    && (!shaped || (szero 2 2 && szero 0x1C 4 && allZero ((sh.drop 0x74).take 12)
      && (upFrom 0 5).all (fun k => decide (k < d) || (szero (8 + 4 * k) 4 && szero (0x60 + 4 * k) 4))
      && (upFrom 1 4).all (fun k => decide (k < d) || (szero (0x20 + 8 * (k - 1)) 8 && szero (0x40 + 8 * (k - 1)) 8))
      && (mode == 2 || (upFrom 0 5).all (fun k => szero (0x60 + 4 * k) 4))))

/-- Every byte of source, destination, shape record, index list and barrier object lies in its space (cause 6). -/
def State.rangesOk (s : State) (t : Team) (c : Copy) (b : List Byte) : Bool :=
  let shaped := c.mode == 1 || c.mode == 2 || c.mode == 3
  (!shaped || s.inSpace t 2 (fieldAt b 0x24 4 : Nat) 128)
    && (c.mode != 3 || s.inSpace t 2 (fieldAt b 0x2C 4 : Nat) (4 * fieldAt b 0x20 4))
    && (!c.credit || s.inSpace t c.barSpace (c.bar : Nat) 16)
    && c.allRuns.all (fun p => s.inSpace t c.dstSpace p.2.dst p.2.len && (match p.2.src with
      | some a => s.inSpace t c.srcSpace a p.2.len
      | none => true))

/-- Alignment (cause 7). -/
def alignOk (c : Copy) (b : List Byte) : Bool :=
  let e := c.shape.elem
  (if c.mode = 0 || c.mode = 4 then c.src % 16 == 0 && c.dst % 16 == 0 && c.total % 16 == 0
    else c.src % e == 0 && c.dst % e == 0 && c.shape.ss.all (fun x => x % (e : Int) == 0) && c.shape.ds.all (fun x => x % (e : Int) == 0)
      && fieldAt b 0x24 4 % 128 == 0 && fieldAt b 0x2C 4 % 4 == 0)
    && (!c.credit || c.bar % 16 == 0)

/-- Sizes (cause 8). -/
def sizeOk (c : Copy) (b sh : List Byte) : Bool :=
  let d := fieldAt sh 0 1
  decide (1 ≤ c.total) && decide (c.total ≤ 2 ^ 31 - 1)
    && (c.mode == 0 || c.mode == 4 || (decide (1 ≤ d) && decide (d ≤ 5) && decide (fieldAt sh 1 1 ≤ 4) && c.shape.ext.all (fun x => decide (1 ≤ x))))
    && (c.mode != 3 || (d == 2 && fieldAt sh 0x0C 4 == 1 && decide (1 ≤ fieldAt b 0x20 4) && decide (fieldAt b 0x20 4 ≤ 65536)))

/-- EVICT (cause 10). -/
def evictOk (c : Copy) : Bool :=
  let half := fun (v sp : Nat) => decide (v ≤ 6) && (v == 0 || sp == 0 || sp == 4)
  half (c.evict % 8) c.srcSpace && half (c.evict / 16 % 8) c.dstSpace

/-- The cause for which a request is rejected (R267), the lowest-numbered one; none if it passes. `gang` is the gang size
of the launch. The sizes are looked at before the ranges and the alignment that they bound, and a shape record only where
SHAPE is aligned and in range. -/
def State.rejectCause (s : State) (t : Team) (c : Copy) (b sh : List Byte) (gang : Nat) (poisoned : Bool) : Option Nat :=
  let sized := sizeOk c b sh
  let shaped := c.mode == 1 || c.mode == 2 || c.mode == 3
  let far := shaped && !s.inSpace t 2 (fieldAt b 0x24 4 : Nat) 128
  let skew := shaped && fieldAt b 0x24 4 % 128 != 0
  if 4 < c.mode then some 2
  else if !reservedOk b (if far || skew then [] else sh) then some 3
  else if !copySpace c.srcSpace || !copySpace c.dstSpace || (c.credit && !copySpace c.barSpace) || (c.mode == 4 && c.dstSpace != 2)
      || ((c.mode == 2 || c.mode == 3) && c.srcSpace != 0 && c.srcSpace != 4)
      || (c.credit && (c.dstSpace == 2 || c.dstSpace == 3) && c.barSpace != 2 && c.barSpace != 3) then some 4
  else if c.scope = 0 || 7 < c.scope then some 5
  else if far then some 6
  else if skew then some 7
  else if sized && !s.rangesOk t c b then some 6
  else if sized && !alignOk c b then some 7
  else if !sized then some 8
  else if c.mode = 4 && (fieldAt b 0x28 2 == 0 || decide (2 ^ gang ≤ fieldAt b 0x28 2)) then some 9
  else if !evictOk c then some 10
  else if poisoned then some 11
  else none

end Sys2Proof.Machine
end

