-- ==== Sys2Proof/Machine/Copy.lean ====
section
/-! DEFINITION. The copy engine (07_copy.md): KICK, acceptance and rejection, the pieces of a request, credits, faults,
the holding buffer, and declared inputs. -/

namespace Sys2Proof.Machine

/-! ## KICK -/

/-- Kicks of a core that KICK instructions have issued and the load-store engine has not yet handed over (R259). -/
def State.unhanded (s : State) (core : Nat) : Nat :=
  s.ops.foldl (fun n p => if p.2.kind == .kick && p.2.core == core then n + (p.2.lanes.filter (fun a => a.phase == .ready)).length else n) 0

/-- KICK (R269): the checks, room in the queue of 256 kicks, and oc3; the kicks are handed over when every earlier store
of the thread is acknowledged. -/
def execKick (f : FmtM) (s : State) : Host.Outcome State Fault Refusal :=
  .next (mem s f.msel.toNat f.pclass.toNat true [addrRegs 2 f.addr.toNat, (f.data.toNat, 1)] (fun e s =>
    let ws := e.wants 2 f.addr.toNat (fun _ => FmtMoff f) (fun th => e.dataOf f.data.toNat 1 th) (fun _ => 0)
    if ws.isEmpty then .done s
    else if e.full 3 then .suspend s (e.waitsFor 3)
    else match s.accessFault e { bytes := 128, align := 128, write := false, access := 0 } ws with
      | some r => .fault r
      | none =>
        if 256 < (s.core e.core).kicks.length + s.unhanded e.core + ws.length then .suspend s .room
        else
          let b := s.beginWalks e (readUse 0) ws
          .done (b.1.launchOp e { opM .kick 3 f e b.1 b.2 with runs := ws.length }).1) (FmtMat f))

/-- Hand over the kicks whose thread's earlier accesses allow it, in ascending home lane (R259, R269); those of a saved team wait
(R281). -/
def State.handKicks (s : State) (core : Nat) : State :=
  s.ops.foldl (fun s p =>
    if p.2.kind == .kick && p.2.core == core && p.2.lanes.any (fun a => a.phase == .ready) && (s.liveOp p.1).isSome
        && s.earlierDone p.1 true true false then
      let l : List Kick := p.2.lanes.map (fun a => { tid := p.2.tid, off := a.addr, sealByte := a.data % 256, op := p.1 })
      (s.updCore core (fun c => { c with kicks := c.kicks ++ l })).updOp p.1
        (fun o => { o with lanes := o.lanes.map (fun a => { a with phase := .applied }) })
    else s) s

/-- A kick has been accepted or rejected: its KICK leaves oc3 with the last one (R269). -/
def State.kickDone (s : State) (op : Nat) : State :=
  match s.ops.look op with
  | none => s
  | some o => if o.runs ≤ 1 then s.endOp op else s.updOp op (fun o => { o with runs := o.runs - 1 })

/-! ## Places -/

/-- Where a byte range of a request is, or why it cannot be reached now. -/
inductive Placed where
  /-- Its parts by home, and whether a write there is checked against the tracking table by virtual address or offset (R348). -/
  | ok (l : List (Home × Nat × Nat)) (tracked : Bool)
  /-- A translation walk is needed (R276). -/
  | miss
  /-- The chip granule is not ready yet (R344). -/
  | stuck
  | fail (code : Nat)
  deriving DecidableEq, Repr

/-- The translation of an address for a request: one that it keeps, or one that its core holds (R276). -/
def State.leafOf (s : State) (t : Team) (c : Copy) (va : Nat) : Option Leaf :=
  match c.leaves.look (va / 2 ^ 21) with
  | some l => some l
  | none => s.held c.core t.ctx va

/-- Reach n bytes that lie in one page or one granule. `tid` is the team whose scratchpad SPACE 2 names. -/
def State.copyPlace (s : State) (t : Team) (c : Copy) (tid space : Nat) (a : Int) (n : Nat) (write : Bool) : Placed :=
  let x := a.toNat
  match space with
  | 0 => match s.leafOf t c x with
    | none => .miss
    | some l =>
      if inTail l x n then .fail 0x0C
      else if (write && !l.w) || l.alias_ != 0 || s.shut l then .fail 0x09
      else .ok ((lineParts x n).map (fun p => let q := s.place l p.1; (q.1, q.2, p.2))) l.snap
  | 2 => .ok [(.scratch tid, x, n)] false
  | 3 => .ok [(.cluster t.gang, x, n)] false
  | _ => match s.chipEntry t.ctx x with
    | none => .fail 0x09
    | some m => if m.ready then .ok [(.chip (m.die * 64 + m.slice), x % 2 ^ 24, n)] true else .stuck

/-- The protection mode that the request's page of an address is under (R338). -/
def State.copyMode (s : State) (t : Team) (c : Copy) (space : Nat) (a : Int) : Option Nat :=
  if space = 0 then (s.leafOf t c a.toNat).map (·.prot) else none

/-- The EVICT that an access of a request acts with at an address: the one given, or what the CACHE of its page allocates, where that is
less (R214, R326). -/
def State.copyEvict (s : State) (t : Team) (c : Copy) (space : Nat) (a : Int) (evict : Nat) : Nat :=
  evictOf evict (if space = 0 then ((s.leafOf t c a.toNat).map (·.cache)).getD 0 else 0)

/-- Bytes up to the end of the page or granule of an address, or to the protection tail of its page: all of them are reached, or
none (R276). -/
def State.room (s : State) (t : Team) (c : Copy) (space : Nat) (a : Int) : Nat :=
  match space with
  | 0 =>
    let x := a.toNat % 2 ^ 21
    match s.leafOf t c a.toNat with
    | some l => if x < usable l.prot then usable l.prot - x else 2 ^ 21 - x
    | none => 2 ^ 21 - x
  | 4 => 2 ^ 24 - a.toNat % 2 ^ 24
  | _ => 2 ^ 32

/-- Where a range of a request is: where its translation puts it, or, while neither the request nor its core holds one, where a walk would
(R268). -/
def State.wouldPlace (s : State) (t : Team) (c : Copy) (tid space : Nat) (a : Int) (n : Nat) : Placed :=
  match s.copyPlace t c tid space a n false with
  | .miss => match s.walk t.ctx a.toNat with
    | .ok l => s.copyPlace t { c with leaves := c.leaves.put (a.toNat / 2 ^ 21) l } tid space a n false
    | _ => .miss
  | p => p

/-- A virtual range cut at the ends of its pages or granules, with the homes of the parts that can be reached. -/
def State.homesOf (s : State) (t : Team) (c : Copy) (tid space : Nat) (a : Int) (n : Nat) : Nat → List (Home × Nat × Nat)
  | 0 => []
  | k + 1 =>
    let m := min n (s.room t c space a)
    if n = 0 then []
    else
      let rest := s.homesOf t c tid space (a + m) (n - m) k
      match s.wouldPlace t c tid space a m with
      | .ok l _ => l ++ rest
      | _ => rest

/-- Every destination span of a request by home, for one target. -/
def State.dstSpans (s : State) (t : Team) (c : Copy) (tid : Nat) : List (Home × Nat × Nat) :=
  c.allRuns.flatMap (fun p => s.homesOf t c tid c.dstSpace p.2.dst p.2.len (2 * (p.2.len / 2 ^ 21) + 4))

/-! ## Presence bits -/

/-- Whether a home's lines have presence bits (R24). -/
def Home.hasPresence : Home → Bool
  | .scratch _ | .cluster _ => true
  | _ => false

/-- The bytes that spans write, line by line (R272). -/
def linesOf (spans : List (Home × Nat × Nat)) : List LineLeft :=
  spans.foldl (fun acc p =>
    if !p.1.hasPresence || p.2.2 = 0 then acc
    else (upFrom (p.2.1 / 128) ((p.2.1 + p.2.2 - 1) / 128 + 1 - p.2.1 / 128)).foldl (fun acc line =>
      let n := min (p.2.1 + p.2.2) (128 * line + 128) - max p.2.1 (128 * line)
      if acc.any (fun (x : LineLeft) => x.home == p.1 && x.line == line) then
        acc.map (fun x => if x.home = p.1 && x.line = line then { x with left := x.left + n } else x)
      else acc ++ [{ home := p.1, line := line, left := n }]) acc) []

/-- Active requests that still have bytes to write into a line (R270). -/
def State.lineCount (s : State) (h : Home) (line : Nat) : Nat :=
  (s.copies.vals.filter (fun c => c.lines.any (fun x => x.home == h && x.line == line && decide (0 < x.left)))).length

/-- The presence bit of a line clears, or sets. -/
def State.clearPresence (s : State) (l : LineLeft) : State := s.updSpace l.home (fun m => { m with absent := m.absent.ins l.line })
def State.setPresence (s : State) (h : Home) (line : Nat) : State := s.updSpace h (fun m => { m with absent := m.absent.rem line })

/-- Bytes of a request have landed in a line; the line becomes present once no active request still writes it (R272). -/
def State.landed (s : State) (id : Nat) (h : Home) (line n : Nat) : State :=
  let s := { s with copies := s.copies.upd id (fun c =>
    { c with lines := c.lines.map (fun x => if x.home = h && x.line = line then { x with left := x.left - n } else x) }) }
  if s.lineCount h line = 0 then s.setPresence h line else s

/-- A written range lands, line by line. -/
def State.landSpan (s : State) (id : Nat) (h : Home) (a n : Nat) : State :=
  if !h.hasPresence || n = 0 then s
  else (upFrom (a / 128) ((a + n - 1) / 128 + 1 - a / 128)).foldl (fun s line =>
    s.landed id h line (min (a + n) (128 * line + 128) - max a (128 * line))) s

/-- A failed request leaves the counts of the lines it had not finished (R272). -/
def State.leaveLines (s : State) (id : Nat) : State :=
  match s.copies.look id with
  | none => s
  | some c => c.lines.foldl (fun s x => if 0 < x.left then s.landed id x.home x.line x.left else s) s

/-! ## STATUS and credits -/

/-- PROGRESS: the first canonical offset not yet written (R264). -/
def Copy.progress (c : Copy) : Nat :=
  c.flying.foldl (fun m p => min m p.1) (match c.gaps with
    | [] => c.total
    | g :: _ => g.1)

/-- STATUS (R264). -/
def Copy.statusWord (c : Copy) (state code progress : Nat) : Nat :=
  state + code * 2 ^ 8 + b2n c.poison * 2 ^ 16 + b2n c.dropped * 2 ^ 17 + progress * 2 ^ 32

/-- Write STATUS of a request that has a record. -/
def State.writeStatus (s : State) (c : Copy) (state code progress : Nat) : State :=
  match c.record with
  | none => s
  | some off => s.writeHome (.scratch c.tid) (off + 0x30) (bytesOf 8 (c.statusWord state code progress))

/-- Where BAR is, for one target (R273, R274). -/
def State.barPlace (s : State) (t : Team) (c : Copy) (tid : Nat) : Placed := s.copyPlace t c tid c.barSpace c.bar 16 true

/-- A write of a request to a package to which there is no way is lost, and its launch is killed (R422, R469). -/
def State.lostFar (s : State) (t : Team) : State :=
  (s.pkgLog { type := 4, severity := 3, engine := 10, code := 0x0A, launch := s.identOf t, team := t.number }).killLaunch t.launch 0x0A

/-- Apply a credit or an ERR mark to the object of a request, at its home (R271, R273). -/
def State.barMark (s : State) (t : Team) (c : Copy) (w : Owed) : State :=
  match s.barPlace t c w.tid with
  | .ok ((.remote pkg, a, _) :: _) _ =>
    if s.wayTo pkg then { s with sent := s.sent ++ [.remoteCredit pkg a w.bytes w.poisoned w.err] } else s.lostFar t
  | .ok ((h, a, _) :: _) _ =>
    (((((s.through (s.copyMode t c c.barSpace c.bar)).mixEngine (some c.tid) none h a 16 c.bar (s.copyEvict t c c.barSpace c.bar 0)).barUpdate h a
      (if w.bytes = 0 then .error else .credit w.bytes w.poisoned w.err)).1).through none).ackEngines (fun g => g.tid == some c.tid)
  | _ => s

/-- A request writes on-chip memory that a team's place holds. -/
def Copy.targetsTeam (c : Copy) (tid : Nat) : Bool :=
  if c.mode = 4 then c.targets.contains (some tid) else c.tid == tid && (c.dstSpace == 2 || c.dstSpace == 3)

/-- A forwarding entry is released when no active request and no slot targets the old location (R280): none that was accepted before the
team left it. For a team that was saved, none of the team's requests that survive it (R375). -/
def State.releaseForwards (s : State) : State :=
  { s with forwards := s.forwards.filter (fun f =>
      s.copies.any (fun p => decide (p.1 < f.since) && !p.2.closed && (p.2.targetsTeam f.tid || (f.saved && p.2.tid == f.tid)))
        || s.slots.any (fun p => decide (p.2.req < f.since) && p.2.targets.contains (some f.tid))) }

/-- Slots that hold bytes of a request. -/
def State.slotsOf (s : State) (id : Nat) : Nat := (s.slots.vals.filter (fun x => x.req == id)).length

/-- A request that has ended and owes nothing is forgotten. -/
def State.reap (s : State) (id : Nat) : State :=
  (match s.copies.look id with
    | some c => if c.closed && c.owed.isEmpty && c.flying.isEmpty && s.slotsOf id = 0 then (({ s with copies := s.copies.del id } : State).forget (.copy id)).forget (.credit id) else s
    | none => s).releaseForwards

/-- A request waits for a walk (R276). -/
def State.copyWalk (s : State) (id : Nat) (c : Copy) (t : Team) (va : Nat) (write forBar : Bool) : State :=
  let r := s.startWalk { ctx := t.ctx, va := va, core := c.core, agent := 2, access := b2n write, launch := s.identOf t, vdie := t.vdie }
  { r.1 with copies := r.1.copies.upd id (fun c => { c with wait := some (r.2, va, forBar), queued := false }) }

/-- The log record of a request that fails or of a kick that is rejected (R271, R276). -/
def State.copyLog (s : State) (t : Team) (core code syndrome addr : Nat) : State :=
  (s.ctxLog t.ctx { type := 5, severity := 2, code := code, engine := 8, vdie := t.vdie, core := core % 20, team := t.number,
                    launch := s.identOf t, syndrome := syndrome, address := addr }).1

/-- A request that has written its last byte: STATUS 3, before the last credit (R260). -/
def State.closeCopy (s : State) (id : Nat) : State :=
  match s.copies.look id with
  | none => s
  | some c =>
    if c.closed then s
    else { (s.writeStatus c 3 0 c.total).ackEngines (fun g => g.tid == some c.tid) with copies := s.copies.upd id (fun c => { c with closed := true }) }

/-- Close a request once every byte is written. -/
def State.closeDone (s : State) (id : Nat) : State :=
  match s.copies.look id with
  | some c => if c.gaps.isEmpty && c.flying.isEmpty then s.closeCopy id else s
  | none => s

/-- A request ends as failed (R276): its lines are left, STATUS is written, and what it owes is dropped (R273). -/
def State.endFailed (s : State) (id : Nat) (c : Copy) (code : Nat) : State :=
  let s := (s.leaveLines id).writeStatus c 4 code c.progress
  { s with copies := s.copies.upd id (fun c => { c with closed := true, queued := false, wait := none, doomed := none, gaps := [], owed := [] }) }

/-- Apply what a request owes, in order (R273); STATUS 3 comes before the last of it (R260). An object whose translation is gone is
translated again, one in a chip granule that is not ready waits (R344); with one that cannot be reached the request ends as failed, once
its bytes on their way have landed. -/
def State.payOwed (s : State) (id : Nat) : State :=
  match s.copies.look id with
  | none => s
  | some c => match s.teams.look c.tid, c.owed with
    | none, _ | _, [] => ({ s with copies := s.copies.upd id (fun c => { c with owed := [] }) } : State).reap id
    | some t, w :: _ => match s.barPlace t c w.tid with
      | .ok l _ =>
        let q := s.request (.credit id) (baseOf (dieOf c.core)) (l.filterMap (fun x => s.routerOf x.1 x.2.1)) (s.core c.core).clock
        if q.2 = .wait then q.1
        else if q.2 = .lost then (q.1.lostRecord (s.identOf t) t.number).killLaunch t.launch 0x0A
        else
        let s := if c.mode = 4 then q.1.untaint (.credit id) else (q.1.untaint (.credit id)).closeDone id
        let s := if q.1.tainted (.credit id) then s.killLaunch t.launch 0x0A else c.owed.foldl (fun s w => s.barMark t c w) s
        ({ s with copies := s.copies.upd id (fun c => { c with owed := [] }) } : State).reap id
      | .miss => if c.wait.isSome then s else s.copyWalk id c t c.bar true true
      | .stuck => s
      | .fail code =>
        if c.closed then ({ s with copies := s.copies.upd id (fun c => { c with owed := [] }) } : State).reap id
        else if !c.flying.isEmpty then s
        else ((s.endFailed id c code).copyLog t c.core 0x0F code c.bar).reap id

/-- Credit the object of a request for one target (R273). -/
def State.credit (s : State) (id : Nat) (c : Copy) (tid n : Nat) (poisoned err : Bool) : State :=
  if c.credit && (0 < n || err) then
    ({ s with copies := s.copies.upd id (fun c => { c with owed := c.owed ++ [{ tid := tid, bytes := n, poisoned := poisoned, err := err }] }) } : State).payOwed id
  else s

/-- A team that has not retired (R275). -/
def State.holder (s : State) (tid : Nat) : Option Nat :=
  (s.teams.look tid).bind (fun t => if t.place == .retired then none else some tid)

/-- The targets of a request that still hold a team: the kicking team, or those of a multicast. -/
def State.liveTargets (s : State) (c : Copy) : List Nat :=
  if c.mode = 4 then c.targets.filterMap (fun x => x.bind s.holder) else [c.tid]

/-- A request ends as failed (R276), with the record and the credit of the rest with ERR; a request whose object cannot be reached applies
no credit (R273). -/
def State.finishFail (s : State) (id code va : Nat) (rest : Bool) : State :=
  match s.copies.look id with
  | none => s
  | some c =>
    let s := s.endFailed id c code
    match s.teams.look c.tid with
    | none => s.reap id
    | some t =>
      let s := s.copyLog t c.core 0x0F code va
      (if rest then (s.liveTargets c).foldl (fun s tid => s.credit id c tid (c.total - c.progress) false true) s else s).reap id

/-- A request fails: a multicast first drains the slots it holds, and no longer waits for one. -/
def State.failCopy (s : State) (id code va : Nat) (rest : Bool) : State :=
  match s.copies.look id with
  | none => s
  | some c =>
    if c.closed then ({ s with copies := s.copies.upd id (fun c => { c with owed := [], wait := none }) } : State).reap id
    else if s.slotsOf id = 0 then s.finishFail id code va rest
    else { s with copies := s.copies.upd id (fun c => { c with doomed := some (code, va, rest), wait := none, queued := false }) }

/-! ## Acceptance -/

/-- Whether a range of a team's scratchpad holds poison. -/
def Team.scratchPoison (t : Team) (a n : Nat) : Bool := t.scratch.poisoned a n

/-- The team of each rank that MCAST selects, if it still runs (R274). -/
def State.ranks (s : State) (t : Team) (gang mask : Nat) : List (Option Nat) :=
  (setBits mask 16).map (fun k =>
    if gang ≤ 1 then (if k = 0 then s.teams.keys.find? (fun x => ((s.teams.look x).map (fun y => y.launch == t.launch && y.number == t.number)).getD false) else none)
    else (s.teams.find? (fun p => p.2.launch == t.launch && p.2.gang == t.gang && p.2.number % gang == k)).map (·.1))

/-- Gang size of a team's launch. -/
def State.gangSize (s : State) (t : Team) : Nat := ((s.launches.look t.launch).map (·.gang)).getD 1

/-- Reject a kick (R271): the status registers, STATUS, the record, and the ERR mark on its object, which waits where the object cannot
be reached yet (R344). -/
def State.rejectKick (s : State) (core : Nat) (t : Team) (k : Kick) (b : List Byte) (cause : Nat) : State :=
  let code := if cause = 1 then 0x0E else 0x0F
  let c := requestOf k.tid core k.off b {} []
  let s := s.updTeam k.tid (fun t => { t with kick :=
    { kseal := k.sealByte, rseal := fieldAt b 0 1, code := code, cause := cause, count := satNat (t.kick.count + 1) 0xFFFF, addr := k.off } })
  let s := if cause = 1 then s else s.writeStatus c 5 0x0F 0
  let s := s.copyLog t core code cause k.off
  let barOk := c.credit && copySpace c.barSpace && c.bar % 16 == 0 && s.inSpace t c.barSpace (c.bar : Nat) 16
  let s := if barOk then
      let owed : Copy := { c with record := none, gaps := [], closed := true }
      (({ s with copies := s.copies.put s.nextId owed, nextId := s.nextId + 1 } : State).credit s.nextId owed k.tid 0 false true).reap s.nextId
    else s
  s.kickDone k.op

/-- The active requests of a core (R270). -/
def State.activeOn (s : State) (core : Nat) : Nat := (s.copies.vals.filter (fun c => c.core == core && !c.closed)).length

/-- The limits of R270: 256 active requests of the core, 15 that write a line. -/
def State.withinLimits (s : State) (core : Nat) (lines : List LineLeft) : Bool :=
  decide (s.activeOn core < 256) && lines.all (fun x => decide (s.lineCount x.home x.line < 15))

/-- Enter a request as active: presence bits, STATUS, the request (R270). Accesses that have begun come before (R219). -/
def State.enterCopy (s : State) (c : Copy) : State :=
  let c := { c with accepted := s.rounds }
  let s := c.lines.foldl State.clearPresence s.finishBegun
  let s := s.writeStatus c 1 0 0
  { s with copies := s.copies.put s.nextId c, nextId := s.nextId + 1 }

/-- The lines of a request in all its targets. -/
def State.copyLines (s : State) (t : Team) (c : Copy) : List LineLeft :=
  linesOf ((if c.mode = 4 then c.targets.filterMap id else [c.tid]).flatMap (s.dstSpans t c))

/-- The request that the record of a kick describes, with the team of each rank that it selects (R261 to R268, R274). -/
def State.kickRequest (s : State) (t : Team) (core : Nat) (k : Kick) : Copy :=
  let b := t.scratch.bytes k.off 128
  let mode := fieldAt b 1 1
  let sh := t.scratch.bytes (fieldAt b 0x24 4) 128
  let origin := (upFrom 0 5).map (fun i => sext (fieldAt b (0x40 + 4 * i) 4) 32)
  let shape := if mode == 1 || mode == 2 || mode == 3 then shapeOf sh origin else {}
  let rows := if mode = 3 then min (fieldAt b 0x20 4) 65536 else 0
  let index := (upFrom 0 rows).map (fun r =>
    let a := fieldAt b 0x2C 4 + 4 * r
    (natOf (t.scratch.bytes a 4), t.scratchPoison a 4))
  let c := requestOf k.tid core k.off b shape index
  { c with targets := if mode = 4 then s.ranks t (s.gangSize t) (fieldAt b 0x28 2) else [] }

/-- The check that the record of a kick fails, if one (R267, R271): its request or shape holds poison, or a cause of the table. -/
def State.kickCause (s : State) (t : Team) (c : Copy) (k : Kick) : Option Nat :=
  let b := t.scratch.bytes k.off 128
  let at_ := fieldAt b 0x24 4
  let shaped := c.mode == 1 || c.mode == 2 || c.mode == 3
  s.rejectCause t c b (t.scratch.bytes at_ 128) (s.gangSize t) (t.scratchPoison k.off 128 || (shaped && t.scratchPoison at_ 128))

/-- Decide the first kick of a core's queue: one in a clock at most (R270). -/
def State.acceptKick (s : State) (core : Nat) : State :=
  match (s.core core).kicks with
  | [] => s
  | k :: rest =>
    let pop := fun (s : State) => s.updCore core (fun c => { c with kicks := rest, decided := c.clock + 1 })
    if (s.core core).decided = (s.core core).clock + 1 then s
    else match s.teams.look k.tid with
    | none => (pop s).kickDone k.op
    | some t =>
      let b := t.scratch.bytes k.off 128
      if fieldAt b 0 1 != k.sealByte then (pop s).rejectKick core t k b 1
      else
        let c := s.kickRequest t core k
        match s.kickCause t c k with
        | some cause => (pop s).rejectKick core t k b cause
        | none =>
          let c := { c with lines := s.copyLines t c }
          if s.withinLimits core c.lines then ((pop s).enterCopy c).kickDone k.op else s

/-- Declared inputs of the resident teams of a core are accepted within the limits, in order (R270, R279). -/
def State.acceptInputs (s : State) (core : Nat) : State :=
  s.teams.foldl (fun s p =>
    if p.2.core != core || p.2.place != .resident then s
    else p.2.inputs.foldl (fun s x => match s.teams.look p.1 with
      | none => s
      | some t =>
        let c : Copy := { tid := p.1, core := core, record := none, mode := 0, scope := 2, credit := true, srcSpace := 0, dstSpace := 2,
                          barSpace := 2, evict := 0, src := x.1, dst := x.2.1, bar := 0, total := x.2.2, gaps := [(0, x.2.2)] }
        let c := { c with lines := s.copyLines t c }
        if t.inputs.head? = some x && s.withinLimits core c.lines then
          (s.enterCopy c).updTeam p.1 (fun t => { t with inputs := t.inputs.drop 1 })
        else s) s) s

/-- ACCEPTANCE: the copy engine of a core decides one kick (R270), and declared inputs that had to wait. -/
def execAcceptance (s : State) : Host.Outcome State Fault Refusal :=
  .next (((s.acceptInputs s.arg.a).handKicks s.arg.a).acceptKick s.arg.a)

/-! ## Pieces -/

/-- Take a range out of the gaps. -/
def cutGaps (lo hi : Nat) : List (Nat × Nat) → List (Nat × Nat)
  | [] => []
  | (a, b) :: rest =>
    (if a < min b lo then [(a, min b lo)] else []) ++ (if max a hi < b then [(max a hi, b)] else []) ++ cutGaps lo hi rest

/-- The two sides of a run clipped so that each lies in one page or granule and on one side of a protection tail: its length, at most n. -/
def State.clip (s : State) (t : Team) (c : Copy) (r : Run) (n : Nat) : Nat :=
  min (min n r.len) (min (s.room t c c.dstSpace r.dst) (match r.src with
    | some a => s.room t c c.srcSpace a
    | none => r.len))

/-- Both sides of a run. -/
def State.sides (s : State) (t : Team) (c : Copy) (r : Run) (n : Nat) : Placed × Placed :=
  (match r.src with
    | some a => s.copyPlace t c c.tid c.srcSpace a n false
    | none => .ok [] false,
   if c.mode = 4 then .ok [] false else s.copyPlace t c c.tid c.dstSpace r.dst n true)

/-- Both sides can be reached. -/
def Placed.isOk : Placed → Bool
  | .ok _ _ => true
  | _ => false

/-- The pages of a run, on one side: the address of each. -/
def pagesOf (space : Nat) (a : Int) (n : Nat) : List Nat :=
  if space != 0 || n = 0 then [] else (upFrom (a.toNat / 2 ^ 21) ((a.toNat + n - 1) / 2 ^ 21 + 1 - a.toNat / 2 ^ 21)).map (· * 2 ^ 21)

/-- The pages of the bytes from PROGRESS to an offset. -/
def Copy.pagesTo (c : Copy) (off : Nat) : List Nat :=
  (c.runs c.progress off c.runFuel).flatMap (fun p => pagesOf c.dstSpace p.2.dst p.2.len ++ (match p.2.src with
    | some a => pagesOf c.srcSpace a p.2.len
    | none => []))

/-- Every byte of a run on one side can be reached. -/
def State.sideReached (s : State) (t : Team) (c : Copy) (space : Nat) (a : Int) (n : Nat) : Nat → Bool
  | 0 => n == 0
  | k + 1 =>
    let m := min n (s.room t c space a)
    n == 0 || ((s.copyPlace t c c.tid space a m (space == c.dstSpace)).isOk && s.sideReached t c space (a + m) (n - m) k)

/-- Every byte from PROGRESS to an offset can be reached, so that a later piece may go first (R266, R276). A request that touches chip
scratchpad moves its bytes in order (log entry 135). -/
def State.reachableTo (s : State) (t : Team) (c : Copy) (off : Nat) : Bool :=
  c.dstSpace != 4 && c.srcSpace != 4 && (c.runs c.progress off c.runFuel).all (fun p =>
    let fuel := 2 * (p.2.len / 2 ^ 21) + 4
    s.sideReached t c c.dstSpace p.2.dst p.2.len fuel && (match p.2.src with
      | some a => s.sideReached t c c.srcSpace a p.2.len fuel
      | none => true))

/-- A request that moves a piece early keeps the translations of the bytes before it, until these are written (R276). -/
def State.keepLeaves (s : State) (t : Team) (id : Nat) (c : Copy) (off : Nat) : State :=
  if off = c.progress then s
  else { s with copies := s.copies.upd id (fun x => { x with
    leaves := (c.pagesTo off).foldl (fun m va => match s.leafOf t c va with
      | some l => m.put (va / 2 ^ 21) l
      | none => m) x.leaves }) }

/-- Everything that a request writes, in all its targets (R268). -/
def State.ownSpans (s : State) (t : Team) (c : Copy) : List (Home × Nat × Nat) :=
  (if c.mode = 4 then c.targets.filterMap id else [c.tid]).flatMap (s.dstSpans t c)

/-- A byte lies in one of some spans. -/
def inSpans (spans : List (Home × Nat × Nat)) (h : Home) (x : Nat) : Bool :=
  spans.any (fun p => p.1 == h && decide (p.2.1 ≤ x) && decide (x < p.2.1 + p.2.2))

/-- A home in another package. -/
def Home.isFar : Home → Bool
  | .remote _ => true
  | _ => false

/-- The parts of a placed range that lie in other packages. -/
def Placed.far : Placed → Far
  | .ok l _ => l.filterMap (fun p => match p.1 with
    | .remote pkg => some (pkg, p.2.1, p.2.2)
    | _ => none)
  | _ => []

/-- The bytes of one part of a source with their poison: bytes read at the home after recalling deltas, or bytes of another package as
its answer brought them (R421). The part begins at an address of the source, and is read with an EVICT. A byte that the request also writes is undefined
(R268). -/
def State.fetchPart (s : State) (c : Copy) (own : List (Home × Nat × Nat)) (va evict : Nat) (far : List Byte × Nat) (p : Home × Nat × Nat) :
    State × List (Byte × Bool) :=
  let h := p.1
  let a := p.2.1
  let s := (s.recall h a p.2.2).mixEngine (some c.tid) none h a p.2.2 va evict
  let raw : List (Byte × Bool) := match h with
    | .remote _ => (upFrom 0 p.2.2).map (fun i => (far.1.getD i 0, bit far.2 (i / 32)))
    | _ => (s.readHome h a p.2.2).zip ((upFrom a p.2.2).map (fun x => s.poisonAt h x 1))
  let r := s.mixRead h a (raw.map (·.1))
  ((r.1.drawn).noteEngine (some c.tid) h a p.2.2 va, (r.2.zip (raw.map (·.2))).zipIdx.map (fun q =>
    (if inSpans own h (a + q.2) then r.1.freeByte (a + q.2) else q.1.1, q.1.2)))

/-- The bytes of a run with their poison: the fill pattern, or the bytes of each part of its source. -/
def State.fetchRun (s : State) (t : Team) (c : Copy) (off : Nat) (r : Run) (src : Placed) (n : Nat) (far : List (List Byte × Nat)) :
    State × List (Byte × Bool) :=
  match r.src, src with
  | some a, .ok l _ =>
    let own := s.ownSpans t c
    let f := l.foldl (fun (x : (State × List (Byte × Bool)) × List (List Byte × Nat)) p =>
      let y := x.1.1.fetchPart c own (a.toNat + x.1.2.length) (s.copyEvict t c c.srcSpace a (c.evict % 8)) (x.2.headD ([], 0)) p
      ((y.1, x.1.2 ++ y.2), if p.1.isFar then x.2.drop 1 else x.2)) ((s.through (s.copyMode t c c.srcSpace a), []), far)
    (f.1.1.through none, f.1.2)
  | _, _ => (s, (upFrom off n).map (fun o => (c.fillByte o, r.poisoned)))

/-- Write bytes with their poison to one part of a destination, which begins at an address, with an EVICT (R262, R277): a write, poison
marks, and the kicking core's L1 line. -/
def State.putPart (s : State) (c : Copy) (va evict : Nat) (h : Home) (a : Nat) (bs : List (Byte × Bool)) : State :=
  let s := ((s.mixEngine (some c.tid) none h a bs.length va evict).enginePut h a (bs.map (·.1)) (bs.map (·.2))).noteEngine (some c.tid) h a bs.length va
  let s := match h, s.teams.look c.tid with
    | .remote pkg, some t => if s.wayTo pkg then s else s.lostFar t
    | _, _ => s
  if h = .glob then s.dropLine c.core a else s

/-- Write the bytes of a run to the parts of its destination. -/
def State.putRun (s : State) (c : Copy) (va evict : Nat) : List (Home × Nat × Nat) → List (Byte × Bool) → State
  | [], _ => s
  | p :: rest, bs => (s.putPart c va evict p.1 p.2.1 (bs.take p.2.2)).putRun c (va + p.2.2) evict rest (bs.drop p.2.2)

/-- A request that moves its bytes in order (log entry 135) may leave, of a byte that it writes twice, what it has written first (R268):
that is free for each byte. -/
def State.eitherWrite (s : State) (t : Team) (c : Copy) (off : Nat) (l : List (Home × Nat × Nat)) (bs : List (Byte × Bool)) : List (Byte × Bool) :=
  if c.srcSpace != 4 && c.dstSpace != 4 then bs
  else
    let old := (c.runs 0 off c.runFuel).flatMap (fun p => s.homesOf t c c.tid c.dstSpace p.2.dst p.2.len (2 * (p.2.len / 2 ^ 21) + 4))
    let at_ := l.flatMap (fun p => (upFrom p.2.1 p.2.2).map (fun x => (p.1, x)))
    (at_.zip bs).map (fun q => match q.1.1 with
      | .remote _ => q.2
      | h => if inSpans old h q.1.2 && s.freeBit q.1.2 then (((s.readHome h q.1.2 1).headD 0), s.poisonAt h q.1.2 1) else q.2)

/-- A snapshot copy must come first (R348). -/
def State.copyHeld (s : State) (t : Team) (c : Copy) (r : Run) (n : Nat) (tracked : Bool) : Bool :=
  tracked && !(s.uncopied t.ctx (c.dstSpace == 4) r.dst.toNat n).isEmpty

/-- The order in which multicasts are served: acceptance clock, then core, then the order of its acceptances (R275). -/
def Copy.servedBefore (c : Copy) (id : Nat) (d : Copy) (other : Nat) : Bool :=
  decide (c.accepted < d.accepted) || (c.accepted == d.accepted && (decide (c.core < d.core) || (c.core == d.core && decide (id < other))))

/-- A slot of the holding buffer is free for a multicast (R275): 64 in a cluster, 8 of one request, and no request that
comes before it waits for one. -/
def State.slotFree (s : State) (id : Nat) (c : Copy) : Bool :=
  let cl := clusterOf c.core
  decide ((s.slots.vals.filter (fun x => x.cluster == cl)).length < 64) && decide (s.slotsOf id < 8)
    && !s.copies.any (fun p => p.2.servedBefore p.1 c id && p.2.queued && p.2.mode == 4 && clusterOf p.2.core == cl && decide (s.slotsOf p.1 < 8))

/-- A piece is written (R260): its lines, STATUS, and its credit. The translations kept for an early piece are let go once nothing
before a written byte is left. -/
def State.wrotePiece (s : State) (id : Nat) (l : List (Home × Nat × Nat)) (m : Nat) (poisoned : Bool) : State :=
  match s.copies.look id with
  | none => s
  | some c =>
    let s := l.foldl (fun s p => s.landSpan id p.1 p.2.1 p.2.2) s
    let s := { s with copies := s.copies.upd id (fun c =>
      { c with leaves := if c.flying.isEmpty && (c.gaps.isEmpty || c.gaps = [(c.progress, c.total)]) then [] else c.leaves }) }
    let s := s.credit id c c.tid m poisoned false
    (if ((s.copies.look id).map (fun c => c.owed.isEmpty)).getD false then s.closeDone id else s).reap id

/-- Move one piece of a request whose sides are reached (R260, R275): read, write, and the rest of R260 once it is written; bytes for
another package are written when that package has acknowledged them. -/
def State.movePiece (s : State) (id : Nat) (c : Copy) (t : Team) (off n : Nat) (r : Run) (src : Placed) (dst : Placed) (far : List (List Byte × Nat)) : State :=
  let f := s.fetchRun t c off r src n far
  let s := f.1.untaint (.copy id)
  let bs := if f.1.tainted (.copy id) then f.2.map (fun x => (x.1, true)) else f.2
  let m := bs.length
  let poisoned := bs.any (·.2)
  let upd := fun (c : Copy) => { c with gaps := cutGaps off (off + m) c.gaps, poison := c.poison || poisoned, queued := false }
  if m = 0 then s
  else if c.mode = 4 then
    let s := { s with copies := s.copies.upd id upd }
    { s with slots := s.slots.put s.nextId { cluster := clusterOf c.core, req := id, off := off, data := bs, targets := c.targets },
             nextId := s.nextId + 1 }
  else match dst with
    | .ok l tracked =>
      let s := s.keepLeaves t id c off
      let lost := tracked && s.lostWrite t.ctx (c.dstSpace == 4) r.dst.toNat m
      let s := if lost then s else ((s.through (s.copyMode t c c.dstSpace r.dst)).putRun c r.dst.toNat (s.copyEvict t c c.dstSpace r.dst (c.evict / 16 % 8)) l
        (s.eitherWrite t c off l bs)).through none
      let s := { s with copies := s.copies.upd id upd }
      if !lost && l.any (fun p => match p.1 with
        | .remote _ => true
        | _ => false) then { s with copies := s.copies.upd id (fun c => { c with flying := c.flying.put off (m, poisoned) }) }
      else s.wrotePiece id l m poisoned
    | _ => s

/-- Another package has acknowledged the piece of a request at a canonical offset (R260, R421). -/
def State.pieceLanded (s : State) (id off : Nat) : State :=
  match s.copies.look id with
  | none => s
  | some c => match c.flying.look off with
    | none => s
    | some p => ({ s with copies := s.copies.upd id (fun c => { c with flying := c.flying.del off }) } : State).wrotePiece id [] p.1 p.2

/-- The routers that the packets of a piece go to (R351). -/
def State.routersOf (s : State) (p : Placed) : List Nat :=
  match p with
  | .ok l _ => (l.filterMap (fun x => s.routerOf x.1 x.2.1)).eraseDups
  | _ => []

/-- The packets of a piece go over the package network (R353, R354): one that has no route is answered with retry; after 64 answers a
read returns poisoned bytes, and a write is dropped with its launch killed. -/
def State.sendPiece (s : State) (id : Nat) (c : Copy) (t : Team) (off n : Nat) (r : Run) (src dst : Placed) : State :=
  let b := baseOf (dieOf c.core)
  let q := if s.ms.asks.any (fun x => x.who == (Requester.copy id).key) then (s, .go)
    else s.request (.copy id) b (s.routersOf src ++ s.routersOf dst) (s.core c.core).clock
  match q.2 with
  | .wait => q.1
  | .go => match q.1.ask (.copy id) src.far with
    | (s, some far) => (s.unask (.copy id) src.far).movePiece id c t off n r src dst far
    | (s, none) => s
  | .lost =>
    let s := q.1.lostRecord (s.identOf t) t.number
    if (s.routersOf dst).all (fun d => (s.packet b d).2) then
      (s.taint (.copy id)).movePiece id c t off n r src dst []
    else s.killLaunch t.launch 0x0A

/-- COPY_PIECE: at most `most` bytes from a canonical offset that is still to be written (R266, R273, R275, R276); what the request owes
comes first. A request that moves bytes of a saved team's on-chip memory waits until the team is back (R375). -/
def State.copyPiece (s : State) (id off most : Nat) : State :=
  match s.copies.look id with
  | none => s
  | some c => match s.teams.look c.tid with
    | none => s
    | some t =>
      let away := (match t.place with
        | .saved _ => true
        | _ => false) && (c.mode == 4 || c.dstSpace == 2 || c.dstSpace == 3 || c.srcSpace == 2 || c.srcSpace == 3)
      if c.wait.isSome then s
      else if !c.owed.isEmpty then s.payOwed id
      else if c.closed || c.state != 1 || c.doomed.isSome || away then s
      else match c.gaps.find? (fun g => decide (g.1 ≤ off) && decide (off < g.2)) with
        | none => s
        | some g =>
          let r := c.runAt off
          let n := min (s.clip t c r (min most (g.2 - off))) (if c.mode = 4 then 32768 else 2 ^ 21)
          let bar : Placed := if c.credit && c.mode != 4 then s.barPlace t c c.tid else .ok [] false
          let flying := !c.flying.isEmpty
          match bar with
          | .miss => s.copyWalk id c t c.bar true true
          | .stuck => s
          | .fail code => if flying then s else s.failCopy id code c.bar false
          | .ok _ _ =>
            let p := s.sides t c r n
            if n = 0 || (off != c.progress && (c.mode == 4 || !s.reachableTo t c off || !p.1.isOk || !p.2.isOk)) then s
            else match p.1, p.2 with
              | .fail 0x0C, _ => if flying then s else s.failCopy id 0x0C ((r.src.getD 0).toNat) true
              | _, .fail 0x0C => if flying then s else s.failCopy id 0x0C r.dst.toNat true
              | .fail x, _ => if flying then s else s.failCopy id x ((r.src.getD 0).toNat) true
              | _, .fail x => if flying then s else s.failCopy id x r.dst.toNat true
              | .miss, _ => if flying then s else s.copyWalk id c t ((r.src.getD 0).toNat) false false
              | _, .miss => if flying then s else s.copyWalk id c t r.dst.toNat true false
              | .ok _ _, .ok _ tracked =>
                if c.mode != 4 && s.copyHeld t c r n tracked then s
                else if c.mode = 4 && !s.slotFree id c then { s with copies := s.copies.upd id (fun c => { c with queued := true }) }
                else s.sendPiece id c t off n r p.1 p.2
              | _, _ => { s with copies := s.copies.upd id (fun c => { c with queued := false }) }

def execCopyPiece (s : State) : Host.Outcome State Fault Refusal := .next (s.copyPiece s.arg.a s.arg.b s.arg.c)

/-! ## The holding buffer -/

/-- The last drain of a slot has landed: the slot is released, and a failing request ends (R275). -/
def State.releaseSlot (s : State) (k id : Nat) : State :=
  let s := { s with slots := s.slots.del k }
  match s.copies.look id with
  | some c => match c.doomed with
    | some d => if s.slotsOf id = 0 then s.finishFail id d.1 d.2.1 d.2.2 else s
    | none => s.reap id
  | none => s

/-- A target of a slot that still holds a team. -/
def State.targetTeam (s : State) (target : Option Nat) : Option Nat := target.bind s.holder

/-- The ranks at the head of a slot's list that no longer hold a team are dropped (R275). -/
def State.dropGone (s : State) (k : Nat) (x : Slot) : State × List (Option Nat) :=
  let rest := x.targets.dropWhile (fun y => (s.targetTeam y).isNone)
  let s := { s with slots := s.slots.upd k (fun x => { x with targets := rest }) }
  (if rest.length = x.targets.length then s else { s with copies := s.copies.upd x.req (fun c => { c with dropped := true }) }, rest)

/-- Every other slot of a request holds none but ranks that no longer hold a team: what it still writes is what slot k drains. -/
def State.lastSlot (s : State) (k req : Nat) : Bool :=
  s.slots.all (fun p => p.1 == k || p.2.req != req || p.2.targets.all (fun y => (s.targetTeam y).isNone))

/-- The other slots of a request drop the ranks that no longer hold a team. -/
def State.dropOthers (s : State) (k req : Nat) : State :=
  s.slots.foldl (fun s p => if p.1 = k || p.2.req != req then s else (s.dropGone p.1 p.2).1) s

/-- HOLDING_BUFFER_DRAIN: one slot drains to one target (R274, R275); a rank that no longer holds a team sets DROPPED. With the last
drain that goes to a team, STATUS is written before its credit (R260). -/
def State.drainSlot (s : State) (k : Nat) : State :=
  match s.slots.look k with
  | none => s
  | some x => match s.copies.look x.req with
    | none => { s with slots := s.slots.del k }
    | some _ =>
      let d := s.dropGone k x
      let s := d.1
      match d.2 with
      | [] => match s.copies.look x.req with
        | some c => (if c.gaps.isEmpty && s.lastSlot k x.req && c.doomed.isNone then s.closeCopy x.req else s).releaseSlot k x.req
        | none => s
      | target :: rest =>
        let s := { s with slots := s.slots.upd k (fun x => { x with targets := rest }) }
        let d := s.dropGone k { x with targets := rest }
        let s := d.1
        match s.copies.look x.req, target with
        | some c, some tid =>
          let a := c.dst + x.off
          let s := s.putPart c a 0 (.scratch tid) a x.data
          let s := s.landSpan x.req (.scratch tid) a x.data.length
          let s := if d.2.isEmpty && c.gaps.isEmpty && s.lastSlot k x.req && c.doomed.isNone then (s.dropOthers k x.req).closeCopy x.req else s
          let s := s.credit x.req c tid x.data.length (x.data.any (·.2)) false
          if d.2.isEmpty then s.releaseSlot k x.req else s
        | _, _ => s

def execHoldingBufferDrain (s : State) : Host.Outcome State Fault Refusal := .next (s.drainSlot s.arg.a)

/-! ## Host replies, kills, declared inputs -/

/-- A stopped request goes on, once its team is resident (R375). -/
def State.goOn (s : State) (id : Nat) (c : Copy) : State :=
  let saved := match s.teams.look c.tid with
    | some t => (match t.place with
      | .saved _ => true
      | _ => false)
    | none => false
  if c.state = 2 && !saved then
    { s.writeStatus c 1 0 c.progress with copies := s.copies.upd id (fun c => { c with state := 1 }) }
  else s

/-- A walk that a request waits for has succeeded, or its retry has come (R276): the request goes on at PROGRESS, and pays what it
owes. -/
def State.resumeCopies (s : State) (req : Nat) : State :=
  s.copies.foldl (fun s p => match p.2.wait with
    | some (r, _, _) =>
      if r = req then
        (({ s with copies := s.copies.upd p.1 (fun c => { c with wait := none }) } : State).goOn p.1 p.2).payOwed p.1
      else s
    | none => s) s

/-- Every multicast that waits for a walk has drained its slots, so that every byte before the fault is written (R276). -/
def State.copiesDrained (s : State) (req : Nat) : Bool :=
  s.copies.all (fun p => match p.2.wait with
    | some (r, _, _) => r != req || (s.slotsOf p.1 == 0 && p.2.flying.isEmpty)
    | none => true)

/-- The fault record of a walk goes out: the requests that wait for it stop (R276). -/
def State.stopCopies (s : State) (req : Nat) : State :=
  s.copies.foldl (fun s p => match p.2.wait with
    | some (r, _, _) =>
      if r = req && !p.2.closed then
        { s.writeStatus p.2 2 0x08 p.2.progress with copies := s.copies.upd p.1 (fun c => { c with state := 2, queued := false }) }
      else s
    | none => s) s

/-- A fail reply ends the requests that wait for the walk (R273, R276). -/
def State.failCopies (s : State) (req : Nat) : State :=
  s.copies.foldl (fun s p => match p.2.wait with
    | some (r, va, forBar) => if r = req then s.failCopy p.1 0x08 va (!forBar) else s
    | none => s) s

/-- A kill ends the requests of the launch's teams and discards their kicks (R278). -/
def State.killCopies (s : State) (mine : Nat → Bool) : State :=
  let gone := (s.copies.filter (fun p => mine p.2.tid)).map (·.1)
  { s with
    copies := s.copies.filter (fun p => !mine p.2.tid)
    slots := s.slots.filter (fun p => !gone.contains p.2.req)
    cores := s.cores.map (fun p => (p.1, { p.2 with kicks := p.2.kicks.filter (fun k => !mine k.tid) })) }

/-- The declared inputs of a launch record: the INPUT entries with a length (R361). -/
def Launch.inputs (l : Launch) : List (Nat × Nat × Nat) := ((upFrom 0 4).map l.input).filter (fun x => x.2.2 != 0)

/-- Declared inputs (R279): b0 as BINIT 0 and BEXP of the total leave it, then one linear request each, as the limits of R270 allow. -/
def State.declareInputs (s : State) (tid : Nat) (l : Launch) : State :=
  match s.teams.look tid with
  | none => s
  | some t =>
    if l.inputs.isEmpty then s
    else
      let s := (s.barUpdate (.scratch tid) 0 (.init 0 2)).1
      let s := (s.barUpdate (.scratch tid) 0 (.expect (l.inputs.foldl (fun n x => n + x.2.2) 0))).1
      (s.updTeam tid (fun t => { t with inputs := l.inputs })).acceptInputs t.core

end Sys2Proof.Machine
end

