-- ==== Sys2Proof/Machine/Registers.lean ====
section
/-! DEFINITION. The special registers by SRD number (R80, R81, R86, R100, R121, R241, R282, R309, R346, R350, R391): reads,
and writes by kernels and by system software (R99, R9). -/

namespace Sys2Proof.Machine

/-! ## Writes with a rule of their own -/

/-- A write of CTX_ELOG_TAIL is ignored when HEAD − TAIL would exceed 4,096 (R79). -/
def State.elogTailWrite (s : State) (c v : Nat) : State :=
  if 4096 < ((s.ctx c).elogHead + 2 ^ 32 - v % 2 ^ 32) % 2 ^ 32 then s
  else s.updCtx c (fun k => { k with elogTail := v % 2 ^ 32 })

/-- CTX_ELOG_STAT.CLR (R80). -/
def State.elogStatClr (s : State) (c : Nat) : State := s.updCtx c (fun k => { k with elogLost := 0 })

/-- A write of CTX_SVC_TAIL is ignored when HEAD − TAIL would exceed 2^LOG2N (R121). -/
def State.svcTailWrite (s : State) (c v : Nat) : State :=
  let k := s.ctx c
  if 2 ^ (k.svcBase % 16) < (k.svcHead + 2 ^ 32 - v % 2 ^ 32) % 2 ^ 32 then s
  else s.updCtx c (fun k => { k with svcTail := v % 2 ^ 32 })

/-- CORE_LS_STAT.CLR (R241). -/
def State.lsStatClr (s : State) (core : Nat) : State := s.updCore core (fun k => { k with reread := 0, polled := 0 })

/-- CORE_KICK_STATUS.CLR (R282): every field of that register. -/
def State.kickStatusClr (s : State) (tid : Nat) : State :=
  s.updTeam tid (fun t => { t with kick := { addr := t.kick.addr } })

/-- CORE_MTX_STALL.CLR (R309). -/
def State.mtxStallClr (s : State) (core : Nat) : State := s.updCore core (fun k => { k with stall := 0 })

/-- CTX_SNAP_STAT.CLR (R350). -/
def State.snapStatClr (s : State) (c : Nat) : State := s.updCtx c (fun k => { k with snapCopied := 0, snapRestored := 0 })

/-- CTX_SCHED_STAT.CLR (R391). -/
def State.schedStatClr (s : State) (c : Nat) : State := s.updCtx c (fun k => { k with saves := 0, moves := 0, kills := 0 })

/-! ## Reads -/

/-- A timer as the word of LEAD_TIMER (R100, R126). -/
def Timer.word (t : Timer) : Nat :=
  satNat t.remain 0x1FFFFFFF + b2n t.cut * 2 ^ 29 + b2n t.fired * 2 ^ 30 + b2n t.armed * 2 ^ 31

/-- LEAD_TRAP_CAUSE (R86). -/
def Lead.cause (l : Lead) : Nat :=
  l.trap.code + l.trap.kind * 2 ^ 8 + l.trap.pclass * 2 ^ 11 + l.trap.index * 2 ^ 13 + l.trap.cls * 2 ^ 18
    + b2n l.trap.leadf * 2 ^ 21 + b2n (!l.queue.isEmpty) * 2 ^ 22

/-- The registers of the lead engine and of a trap (R86, R100). -/
def Team.leadReg (t : Team) (n : Nat) : Nat :=
  match n with
  | 0x000 => t.number + t.vdie * 2 ^ 32 + t.core % 20 * 2 ^ 48 + b2n t.paired * 2 ^ 53 + t.slot * 2 ^ 54
  | 0x001 => b2n t.lead.hmode + t.liveCount * 2 ^ 8
  | 0x002 => t.lead.timer.word
  | 0x110 => t.lead.cause
  | 0x111 => t.lead.trap.clause
  | 0x112 => t.lead.trap.homewarp + t.lead.trap.quarter * 2 ^ 16 + b2n t.lead.trap.partner * 2 ^ 18
  | 0x113 => t.lead.trap.active
  | 0x114 => t.lead.trap.lanes
  | 0x115 => t.lead.trap.addr
  | 0x116 => t.lead.trap.info
  | 0x117 => if t.lead.trap.elogNone then 2 ^ 32 else t.lead.trap.elog
  | 0x118 => t.lead.resume.toNat
  | 0x119 => t.lead.retPc
  | 0x11A => t.lead.retIdx
  | 0x130 => t.kick.kseal + t.kick.rseal * 2 ^ 8 + t.kick.code * 2 ^ 16 + t.kick.cause * 2 ^ 24 + t.kick.count * 2 ^ 32
  | 0x131 => t.kick.addr
  | _ => (t.lead.saves.get 0 (n - 0x120)).toNat

/-- The registers of a context by SRD number (R80, R81, R121, R241, R346, R350, R391). -/
def Ctx.reg (k : Ctx) (n : Nat) : Nat :=
  match n with
  | 0x100 => k.trapBase
  | 0x101 => k.elogBase
  | 0x102 => k.elogHead
  | 0x103 => k.elogTail
  | 0x104 => k.elogLost + k.elogThresh * 2 ^ 17 + b2n k.elogMsien * 2 ^ 19
  | 0x105 => k.svcBase
  | 0x106 => k.svcHead
  | 0x107 => k.svcTail
  | 0x108 => k.irqCount
  | 0x10A => b2n k.mixtrap
  | 0x150 => k.chipGranules
  | 0x151 => k.snapCopied + k.snapRestored * 2 ^ 32
  | 0x160 => k.quantum + k.target * 2 ^ 16 + b2n k.schedEn * 2 ^ 24
  | 0x161 => k.saves + k.moves * 2 ^ 16 + k.kills * 2 ^ 32
  | _ => (k.evt.get 0 (n - 0x200)).toNat

/-- The registers of a core by SRD number (R241, R282, R309). -/
def State.coreReg (s : State) (core n : Nat) : Nat :=
  let k := s.core core
  match n with
  | 0x10B => k.reread + k.polled * 2 ^ 16
  | 0x132 => (s.copies.vals.filter (fun c => c.core == core && !c.closed)).length
      + (s.forwards.filter (fun f => f.core == core)).length * 2 ^ 9
      + (s.slots.vals.filter (fun x => x.cluster == clusterOf core)).length * 2 ^ 15
  | 0x140 => k.budget + k.next * 2 ^ 16 + k.used * 2 ^ 32
  | _ => k.stall

/-- SRD numbers of per-core registers. -/
def coreRegs (n : Nat) : Bool := n == 0x10B || n == 0x132 || n == 0x140 || n == 0x141

/-- SRD numbers of per-team registers. -/
def teamRegs (n : Nat) : Bool :=
  decide (n ≤ 2) || (decide (0x110 ≤ n) && decide (n ≤ 0x127)) || n == 0x130 || n == 0x131

/-- SRD (R99): the registers of the issuing team, its context, or its core. -/
def State.srd (s : State) (t : Team) (core n : Nat) : Nat :=
  if teamRegs n then t.leadReg n else if coreRegs n then s.coreReg core n else (s.ctx t.ctx).reg n

/-! ## Writes -/

/-- A write of a context register by a kernel (R99): only fields that are not RO for kernels. -/
def State.kernelWrite (s : State) (c n v : Nat) : State :=
  match n with
  | 0x101 => s.updCtx c (fun k => { k with elogBase := v % 2 ^ 64 / 2 ^ 18 * 2 ^ 18 + v % 2 })
  | 0x103 => s.elogTailWrite c v
  | 0x104 =>
    let s := if bit v 16 then s.elogStatClr c else s
    s.updCtx c (fun k => { k with elogThresh := bits v 18 17, elogMsien := bit v 19 })
  | 0x151 => if bit v 48 then s.snapStatClr c else s
  | 0x161 => if bit v 48 then s.schedStatClr c else s
  | _ => s

/-- A write of a context register by system software through the context's window (R9, R450); a field whose feature is not
acknowledged keeps its value (R464). -/
def State.systemWrite (s : State) (c n v : Nat) : State :=
  match n with
  | 0x100 => s.updCtx c (fun k => { k with trapBase := v % 2 ^ 64 / 8 * 8 })
  | 0x105 => s.updCtx c (fun k => { k with svcBase := v % 2 ^ 64 / 2 ^ 12 * 2 ^ 12 + v % 32 })
  | 0x107 => s.svcTailWrite c v
  | 0x108 => s.updCtx c (fun k => { k with irqCount := v % 256 })
  | 0x10A => if s.feature 10 then s.updCtx c (fun k => { k with mixtrap := bit v 0 }) else s
  | 0x150 => if s.feature 6 then s.updCtx c (fun k => { k with chipGranules := v % 128 }) else s
  | 0x160 => s.updCtx c (fun k => { k with
      quantum := v % 2 ^ 16, target := bits v 19 16, schedEn := if bit v 24 then k.schedEn || s.host.featStatus == 1 else false })
  | _ => if 0x200 ≤ n && n ≤ 0x2FF then s.updCtx c (fun k => { k with evt := k.evt.set 0 (n - 0x200) (BitVec.ofNat 64 v) })
    else s.kernelWrite c n v

/-- SWR (R99): trap registers only in handler mode (R86); read-only fields ignore it. -/
def State.swr (s : State) (t : Team) (tid core n v : Nat) : State :=
  if n = 0x118 then if t.lead.hmode then s.updLead tid (fun l => { l with resume := BitVec.ofNat 64 (v / 8 * 8) }) else s
  else if 0x120 ≤ n && n ≤ 0x127 then
    if t.lead.hmode then s.updLead tid (fun l => { l with saves := l.saves.set 0 (n - 0x120) (BitVec.ofNat 64 v) }) else s
  else if n = 0x130 then if bit v 48 then s.kickStatusClr tid else s
  else if n = 0x10B then if bit v 32 then s.lsStatClr core else s
  else if n = 0x141 then if bit v 48 then s.mtxStallClr core else s
  else if teamRegs n || coreRegs n then s
  else s.kernelWrite t.ctx n v

def execSrd (f : FmtI) (s : State) : Host.Outcome State Fault Refusal :=
  .next (s.issue f.msel.toNat f.pclass.toNat 0 false (fun _ => []) (fun e => e.lead) (fun e s =>
    .done (s.setS e.tid f.dst.toNat (s.srd e.t e.core f.imm.toNat))))
def execSwr (f : FmtI) (s : State) : Host.Outcome State Fault Refusal :=
  .next (s.issue f.msel.toNat f.pclass.toNat 0 false (fun _ => []) (fun e => e.lead) (fun e s =>
    .done (s.swr e.t e.tid e.core f.imm.toNat (e.t.sreg f.a.toNat))))

/-! ## The steps that are such a write -/

def execCtxElogTailWrite (s : State) : Host.Outcome State Fault Refusal := .next (s.elogTailWrite s.arg.a s.arg.b)
def execCtxElogStatClr (s : State) : Host.Outcome State Fault Refusal := .next (s.elogStatClr s.arg.a)
def execCtxSvcTailWrite (s : State) : Host.Outcome State Fault Refusal := .next (s.svcTailWrite s.arg.a s.arg.b)
def execCoreLsStatClr (s : State) : Host.Outcome State Fault Refusal := .next (s.lsStatClr s.arg.a)
def execCoreKickStatusClr (s : State) : Host.Outcome State Fault Refusal := .next (s.kickStatusClr s.arg.a)
def execCoreMtxStallClr (s : State) : Host.Outcome State Fault Refusal := .next (s.mtxStallClr s.arg.a)
def execCtxSnapStatClr (s : State) : Host.Outcome State Fault Refusal := .next (s.snapStatClr s.arg.a)
def execCtxSchedStatClr (s : State) : Host.Outcome State Fault Refusal := .next (s.schedStatClr s.arg.a)

end Sys2Proof.Machine
end

