-- ==== Sys2Proof/Machine/LeadFlow.lean ====
section
/-! DEFINITION. Control flow of the lead stream (R105, R106) and the pushes and status of the broadcast queues (R112,
R113). -/

namespace Sys2Proof.Machine

/-- The lead thread goes on at a header. -/
def State.leadGoto (s : State) (tid pc : Nat) : State :=
  (s.updLead tid (fun l => l.goto pc)).trapNext tid

/-- A lead transfer (R105, R106): a target that is not taken is neither read nor checked. -/
def leadJump (e : Env) (s : State) (target : Option Nat) (write : List (Nat × Nat)) : Res :=
  match target with
  | none => .jumped ((write.foldl (fun s w => s.setS e.tid w.1 w.2) s).leadGoto e.tid e.nextClause)
  | some tgt => match s.checkTarget e true 0 tgt with
    | .wait s why => .suspend s why
    | .fault c => .fault { code := c, addr := if c = 0x03 then 0 else tgt }
    | .ok => .jumped ((write.foldl (fun s w => s.setS e.tid w.1 w.2) s).leadGoto e.tid tgt)

/-- A transfer of the lead stream. -/
def leadTransfer (s : State) (msel pclass : Nat) (body : Env → State → Res) : State :=
  s.issue msel pclass 0 true (fun _ => []) (fun e => e.lead) body

def execSbr (f : FmtB) (s : State) : Host.Outcome State Fault Refusal :=
  .next (leadTransfer s f.msel.toNat f.pclass.toNat (fun e s =>
    leadJump e s (if condHolds f.kind.toNat 64 (e.t.sreg f.reg.toNat) then some (e.target f.target) else none) []))
def execSjmp (f : FmtB) (s : State) : Host.Outcome State Fault Refusal :=
  .next (leadTransfer s f.msel.toNat f.pclass.toNat (fun e s => leadJump e s (some (e.target f.target)) []))
def execScall (f : FmtB) (s : State) : Host.Outcome State Fault Refusal :=
  .next (leadTransfer s f.msel.toNat f.pclass.toNat (fun e s =>
    leadJump e s (some (e.target f.target)) [(f.reg.toNat, e.nextClause)]))
def execSret (f : FmtA) (s : State) : Host.Outcome State Fault Refusal :=
  .next (leadTransfer s f.msel.toNat f.pclass.toNat (fun e s => leadJump e s (some (e.t.sop f.za f.a.toNat)) []))
/-- SLOOP: the register decreases, and the new value decides. -/
def execSloop (f : FmtB) (s : State) : Host.Outcome State Fault Refusal :=
  .next (leadTransfer s f.msel.toNat f.pclass.toNat (fun e s =>
    let v := (e.t.sreg f.reg.toNat + 2 ^ 64 - 1) % 2 ^ 64
    leadJump e s (if condHolds (if f.kind.toNat = 0 then 1 else 4) 64 v then some (e.target f.target) else none)
      [(f.reg.toNat, v)]))

/-! ## Pushes -/

def execDqpush (f : FmtA) (s : State) : Host.Outcome State Fault Refusal :=
  .next (s.issue f.msel.toNat f.pclass.toNat 0 false (fun _ => []) (fun e => e.lead) (fun e s =>
    pushBody 0 (e.t.sop f.za f.a.toNat) none e s))
def execAqpush (f : FmtA) (s : State) : Host.Outcome State Fault Refusal :=
  .next (s.issue f.msel.toNat f.pclass.toNat 0 false (fun _ => []) (fun e => e.lead) (fun e s =>
    pushBody (1 + f.dst.toNat) (e.t.sop f.za f.a.toNat) none e s))
def execAqstep (f : FmtI) (s : State) : Host.Outcome State Fault Refusal :=
  .next (s.issue f.msel.toNat f.pclass.toNat 0 false (fun _ => []) (fun e => e.lead) (fun e s =>
    pushBody (1 + f.dst.toNat) (e.t.sreg f.a.toNat)
      (some (f.a.toNat, (e.t.sreg f.a.toNat + f.simm 64) % 2 ^ 64)) e s))
/-- QSTAT: the occupancy of each queue (R113). -/
def execQstat (f : FmtA) (s : State) : Host.Outcome State Fault Refusal :=
  .next (leadResult s f.msel.toNat f.pclass.toNat f.dst.toNat (fun e =>
    e.t.occupancy 0 + e.t.occupancy 1 * 2 ^ 16 + e.t.occupancy 2 * 2 ^ 25 + e.t.occupancy 3 * 2 ^ 34 + e.t.occupancy 4 * 2 ^ 43))

end Sys2Proof.Machine
end

