-- ==== Sys2Proof/Machine/Clause.lean ====
section
/-! DEFINITION. Clauses from fetch to issue: forming warps (R177, R178), meeting and hold (R180 to R183), reforming
(R184 to R187), clause fetch and header checks (R44 to R46), resuming a suspended clause (R63), timers (R126 to R128),
queue discipline (R110) and trap entry (R82). -/

namespace Sys2Proof.Machine

/-! ## Reading a clause -/

/-- The result of fetching a clause. -/
inductive Fetched where
  | ok (h : DWord) (words : List DWord)
  | miss (va : Nat)
  | wait
  | fault (code va : Nat)

/-- Read n words of code. -/
def State.readWords (s : State) (core c va : Nat) : Nat → Except Fetched (List DWord)
  | 0 => .ok []
  | n + 1 => match s.readCode core c va with
    | .miss => .error (.miss va)
    | .wait => .error .wait
    | .fault code => .error (.fault code va)
    | .word w => match s.readWords core c (va + 8) n with
      | .ok ws => .ok (w :: ws)
      | .error f => .error f

/-- Read a clause: the header, and its instruction words where the header is legal (R38, R46). -/
def State.readClause (s : State) (core c va : Nat) (lead : Bool) : Fetched :=
  match s.readCode core c va with
  | .miss => .miss va
  | .wait => .wait
  | .fault code => .fault code va
  | .word h =>
    if !headerOk lead h then .ok h []
    else match s.readWords core c (va + 8) (getHeader h).count with
      | .ok ws => .ok h ws
      | .error f => f

/-- A cross-lane instruction (R184). -/
def isCrossLane : Instr → Bool
  | .waitm _ | .vote _ | .shfl _ | .bcast _ | .redx _ | .scanx _ | .matchx _ | .sample _ => true
  | _ => false

/-- MSEL of the first cross-lane instruction of a clause; none if the clause is not a reforming clause (R184). -/
def reformMsel (h : DWord) (ws : List DWord) : Option Nat :=
  if (getHeader h).cls != 2 then none
  else (ws.find? (fun w => match rawDecode .grp w with
    | some i => isCrossLane i
    | none => false)).map (fun w => bits w.toNat 15 12)

/-! ## Forming warps -/

/-- A new formed warp of some threads at a header (R177). -/
def State.newWarp (s : State) (tid : Nat) (ths : List Nat) (quarter pc : Nat) (reformed : Bool) (split : List Nat) : State :=
  s.updTeam tid (fun t =>
    { t with
      threads := ths.foldl (fun ts th => ts.upd th (fun x => { x with run := .issuing })) t.threads
      formed := t.formed.put t.nextFid { threads := ths, quarter := quarter, pc := pc, reformed := reformed, split := split }
      nextFid := t.nextFid + 1 })

/-- Put the threads of one home warp into the first group that has all their home lanes free: they go into one formed warp (R178,
R181, log entry 134). -/
def placeUnit (t : Team) (u : List Nat) : List (List Nat) → List (List Nat)
  | [] => [u]
  | g :: rest => if g.any (fun x => u.any (fun th => t.laneOf x == t.laneOf th)) then g :: placeUnit t u rest else (g ++ u) :: rest

/-- Split a list of threads into classes of equal key, in order of first appearance. -/
def classes {α : Type} [DecidableEq α] (key : Nat → α) (l : List Nat) : List (List Nat) :=
  l.foldl (fun acc th =>
    if acc.any (fun g => (g.head?.map key) == some (key th)) then
      acc.map (fun g => if (g.head?.map key) == some (key th) then g ++ [th] else g)
    else acc ++ [[th]]) []

/-- The warps that threads ready at one header form (R177, R178): equal clocks of readiness, equal positions, home warps
in ascending order where their lanes are free; each in ascending home lane. -/
def Team.groups (t : Team) (l : List Nat) : List (List Nat) :=
  (classes (fun th => ((t.thread th).since, (t.thread th).pos)) l).flatMap (fun g =>
    (t.hwsOf g).foldl (fun acc hw => placeUnit t (g.filter (fun th => t.hwOf th == hw)) acc) [])

/-- Threads in ascending home lane. -/
def Team.byLane (t : Team) (l : List Nat) : List Nat :=
  (upFrom 0 t.width).flatMap (fun k => l.filter (fun th => t.laneOf th == k))

/-- Threads of a quarter in a run state at a header, ascending. -/
def Team.standing (t : Team) (quarter pc : Nat) (run : ThreadRun) : List Nat :=
  (t.threads.filter (fun p => p.2.run == run && p.2.pc == pc && (t.warps.get {} (t.hwOf p.1)).quarter == quarter)).map (·.1)

/-- The participant set of a home warp (R184). -/
def Team.participants (t : Team) (msel hw : Nat) : List Nat :=
  (t.threads.filter (fun p => p.2.live && t.hwOf p.1 == hw && t.enabled msel p.1)).map (·.1)

/-- Form the warps of threads that have finished a reforming wait: one for each group of positions; a group of
participants that lacks others keeps them for the fault of R186. -/
def State.formReformed (s : State) (tid : Nat) (t : Team) (ths ps : List Nat) (quarter pc : Nat) : State :=
  let gs := classes (fun th => (t.thread th).pos) ths
  let split := decide (1 < (gs.filter (fun g => g.any ps.contains)).length)
  gs.foldl (fun s g =>
    let missing := if split && g.any ps.contains then ps.filter (fun p => !g.contains p) else []
    s.newWarp tid (t.byLane g) quarter pc true missing) s

/-- Threads ready at the header of a reforming clause (R185): participants begin to wait; others form a warp of their home
warp at once where no participant waits. -/
def State.formAtReform (s : State) (tid quarter pc msel : Nat) (ready : List Nat) : State :=
  match s.teams.look tid with
  | none => s
  | some t =>
    (t.hwsOf ready).foldl (fun s hw =>
      let mine := ready.filter (fun th => t.hwOf th == hw)
      let ps := t.participants msel hw
      let waits := mine.filter ps.contains
      if waits.isEmpty then
        if (t.standing quarter pc .reforming).any ps.contains then s
        else (classes (fun th => (t.thread th).pos) mine).foldl (fun s g => s.newWarp tid (t.byLane g) quarter pc true []) s
      else waits.foldl (fun s th => s.updThread tid th (fun x => { x with run := .reforming })) s) s

/-- The end of a home warp's reforming wait at a header (R185): every participant waits there or has exited. A header whose
translation is no longer held is translated again. -/
def State.reformAt (s : State) (tid hw pc : Nat) : State :=
  match s.teams.look tid with
  | none => s
  | some t =>
    let q := (t.warps.get {} hw).quarter
    match s.readClause (t.coreOf q) t.ctx pc false with
    | .ok h ws => match reformMsel h ws with
      | some msel =>
        let ps := t.participants msel hw
        if ps.all (fun th => (t.thread th).run == .reforming && (t.thread th).pc == pc) then
          let all := (t.standing q pc .reforming ++ t.standing q pc .ready).filter (fun th => t.hwOf th == hw)
          s.formReformed tid t all ps q pc
        else s
      | none => s
    | .miss va => (s.startWalk (s.walkOf t false (t.coreOf q) va 3)).1
    | _ => s

/-- The headers at which threads of a home warp are reforming. -/
def Team.reformingAt (t : Team) (hw : Nat) : List Nat :=
  t.threads.foldl (fun acc p => if p.2.run == .reforming && t.hwOf p.1 == hw then NatSet.ins acc p.2.pc else acc) []

/-- The end of each reforming wait of a home warp that is over (R185). -/
def State.reformRelease (s : State) (tid hw : Nat) : State :=
  match s.teams.look tid with
  | none => s
  | some t => (t.reformingAt hw).foldl (fun s pc => s.reformAt tid hw pc) s

def execReformRelease (s : State) : Host.Outcome State Fault Refusal := .next (s.reformRelease s.arg.a s.arg.b)

/-! ## Fetching -/

/-- The environment of a party outside its issue. -/
def State.partyEnv (s : State) (tid : Nat) (fid : Option Nat) : Option Env :=
  ({ s with who := match fid with
      | none => .lead tid
      | some f => .warp tid f }).env 0 0

/-- A party has fetched its clause: it waits at a port. -/
def State.setClause (s : State) (tid : Nat) (fid : Option Nat) (h : DWord) (ws : List DWord) : State :=
  match fid with
  | none => s.updLead tid (fun l => { l with header := h, words := ws, run := .running .waiting })
  | some f => s.updWarp tid f (fun w => { w with header := h, words := ws, run := .waiting })

/-- Keep a fetched clause in the core's instruction lines (R43). -/
def State.keepClause (s : State) (core c va n : Nat) : State := (upFrom 0 (n + 1)).foldl (fun s i => s.cacheCode core c (va + 8 * i)) s

/-- Fetch and check the clause of a party (R46): the header, then its words; a fault stands at index 31, a class that the
stream allows in no form at index 0. A translation miss waits for its walk (R46, R331). -/
def State.fetchFor (s : State) (tid : Nat) (fid : Option Nat) : State :=
  match s.partyEnv tid fid with
  | none => s
  | some e => match s.readClause e.core e.t.ctx e.pc e.lead with
    | .wait => s
    | .miss va =>
      let r := s.startWalk (s.walkOf e.t e.lead e.core va 3)
      r.1.block e (.walk r.2 (if e.lead then 0 else e.t.laneMask e.all) va)
    | .fault code va => s.raise e 14 31 { code := code, lanes := if e.lead then 0 else e.t.laneMask e.all, addr := va }
    | .ok h ws =>
      if !headerOk e.lead h then s.raise { e with header := h } 14 31 { code := 0x02, lanes := if e.lead then 0 else e.t.laneMask e.all }
      else
        let s := s.keepClause e.core e.t.ctx e.pc ws.length
        let s := s.setClause tid fid h ws
        match Cls.ofCode (getHeader h).cls with
        | some c =>
          if classOk e.lead c then s
          else match s.partyEnv tid fid with
            | some e => s.raise { e with idx := 0 } (getHeader h).cls 0 { code := 0x01, lanes := if e.lead then 0 else e.t.laneMask e.all }
            | none => s
        | none => s

/-- A formed warp at the header of a reforming clause that was not known to be one goes back to its threads (R185). -/
def State.unform (s : State) (tid fid : Nat) : State :=
  match s.teams.look tid with
  | none => s
  | some t => match t.formed.look fid with
    | none => s
    | some w => s.updTeam tid (fun t => { t with
        threads := w.threads.foldl (fun ts th => ts.upd th (fun x => { x with run := .ready })) t.threads
        formed := t.formed.del fid })

/-- The formed warps of a team that stand unfetched at a header of a quarter. -/
def Team.unfetched (t : Team) (quarter pc : Nat) : List (Nat × Warp) :=
  t.formed.filter (fun p => p.2.run == .unfetched && p.2.pc == pc && p.2.quarter == quarter)

/-- Threads that came to their meeting header before its word had been read are held once it is known to be a header of the lane stream
(R180): those that stand ready there, and those of a formed warp that waited for the word. -/
def State.holdCheck (s : State) (tid quarter pc : Nat) : State :=
  match s.teams.look tid with
  | none => s
  | some t =>
    if !s.laneHeader (t.coreOf quarter) t.ctx pc then s
    else
      let s := (t.unfetched quarter pc).foldl (fun s p =>
        if !p.2.reformed && p.2.idx = 0 && p.2.threads.any (fun th => (t.thread th).mustMeet pc) then s.unform tid p.1 else s) s
      match s.teams.look tid with
      | none => s
      | some t => (t.standing quarter pc .ready).foldl (fun s th =>
          s.updThread tid th (fun x => if x.mustMeet pc then { x with run := .held, holdcnt := 0 } else x)) s

/-- CLAUSE_FETCH of a quarter (R46, R178, R180, R185): threads ready at the header form warps, or begin a reforming wait,
and each unfetched warp fetches its clause. -/
def State.fetchQuarter (s : State) (tid quarter pc : Nat) : State :=
  match s.teams.look tid with
  | none => s
  | some t =>
    if !s.mayIssue t then s
    else
      let s := s.holdCheck tid quarter pc
      let msel := match s.readClause (t.coreOf quarter) t.ctx pc false with
        | .ok h ws => reformMsel h ws
        | _ => none
      let s : State := match msel with
        | none => s
        | some _ => (t.unfetched quarter pc).foldl (fun s p => if p.2.reformed || p.2.idx != 0 then s else s.unform tid p.1) s
      match s.teams.look tid with
      | none => s
      | some t =>
        let ready := t.standing quarter pc .ready
        let s := match msel with
          | some m => s.formAtReform tid quarter pc m ready
          | none => (t.groups ready).foldl (fun s g => s.newWarp tid (t.byLane g) quarter pc false []) s
        match s.teams.look tid with
        | none => s
        | some t => (t.unfetched quarter pc).foldl (fun s p => s.fetchFor tid (some p.1)) s

/-- The physical addresses of the words of a clause, as far as its header is known, that a core must fetch from the L2 (R43). -/
def State.codeNeeds (s : State) (core c pc : Nat) : List Nat :=
  let n := match s.readCode core c pc with
    | .word h => (getHeader h).count
    | _ => 0
  (upFrom 0 (n + 1)).filterMap (fun i => match s.held core c (pc + 8 * i) with
    | some l =>
      let a := l.frame + (pc + 8 * i) % 2 ^ 21
      if !l.x || l.alias_ != 0 || s.shut l || inTail l (pc + 8 * i) 8 || ((s.core core).icache.look a).isSome || (s.core core).ipoison.has a then none
      else some a
    | none => none)

/-- A word of code reaches a core from another package, or poisoned (R30, R421). -/
def State.codeCame (s : State) (core a : Nat) (bs : List Byte) (poisoned : Bool) : State :=
  s.updCore core (fun k =>
    if poisoned then { k with icache := k.icache.del a, ipoison := k.ipoison.ins a }
    else { k with icache := k.icache.put a (BitVec.ofNat 64 (natOf bs)), ipoison := k.ipoison.rem a })

/-- The words of a clause are fetched over the package network, and from other packages (R351 to R354, R421): whether the fetch may go on. A
fetch that the network loses finds poison (R30). -/
def State.codeSent (s : State) (core c pc : Nat) : State × Bool :=
  let need := s.codeNeeds core c pc
  let far := need.filterMap (fun a => if a / 2 ^ 43 = s.pkg then none else some (a / 2 ^ 43, a % 2 ^ 43, 8))
  let key := Requester.fetch core
  let q := if s.ms.asks.any (fun x => x.who == key.key) then (s, .go)
    else s.request key (baseOf (dieOf core)) ((need.map s.physPlace).filterMap (fun p => s.routerOf p.1 p.2)).eraseDups (s.core core).clock
  match q.2 with
  | .wait => (q.1, false)
  | .lost => (need.foldl (fun s a => s.codeCame core a [] true) (q.1.lostRecord 0 0), true)
  | .go =>
    let bad := q.1.tainted key
    let s := if bad then need.foldl (fun s a => s.codeCame core a [] true) (q.1.untaint key) else q.1
    match s.ask key far with
    | (s, none) => (s, false)
    | (s, some l) => ((far.zip l).foldl (fun s p => s.codeCame core (p.1.1 * 2 ^ 43 + p.1.2.1) (p.2.1) (bad || p.2.2 != 0)) (s.unask key far), true)

/-- CLAUSE_FETCH: of the lead thread, or of a quarter at a header, once its words have come. -/
def State.clauseFetch (s : State) (tid : Nat) (port : Option Nat) (pc : Nat) : State :=
  match s.teams.look tid with
  | none => s
  | some t =>
    let r := match port with
      | some q => s.codeSent (t.coreOf q) t.ctx pc
      | none => s.codeSent t.core t.ctx t.lead.pc
    if !s.mayIssue t then s
    else if !r.2 then r.1
    else match port with
      | some q => r.1.fetchQuarter tid q pc
      | none => if t.lead.run == .running .unfetched then r.1.fetchFor tid none else s

def execClauseFetch (s : State) : Host.Outcome State Fault Refusal := .next (s.clauseFetch s.arg.a s.arg.opt s.arg.b)

/-! ## Meeting -/

/-- A thread cannot issue until another party acts (R182): its formed warp is blocked, it is reforming, or an access of it waits for an
absent line. -/
def State.parked (s : State) (tid : Nat) (t : Team) (th : Nat) : Bool :=
  (t.thread th).run == .reforming || !s.unheld tid t false [th] || t.formed.any (fun p => p.2.threads.contains th && (match p.2.run with
    | .blocked _ => true
    | _ => false))

/-- Threads of a home warp held at a meeting header. -/
def Team.heldAt (t : Team) (hw meet : Nat) : List Nat :=
  (t.threads.filter (fun p => t.hwOf p.1 == hw && p.2.run == .held && p.2.meet == meet && p.2.pc == meet)).map (·.1)

/-- Every other live thread of the home warp that expects this meeting is held there, parked, or has exited (R181). -/
def State.meetReady (s : State) (tid : Nat) (t : Team) (hw meet : Nat) : Bool :=
  t.threads.all (fun p => t.hwOf p.1 != hw || !p.2.live || p.2.meet != meet || p.2.done
    || (p.2.run == .held && p.2.pc == meet) || s.parked tid t p.1)

/-- Release the threads held at a header (R181). -/
def State.releaseHeld (s : State) (tid hw meet : Nat) : State :=
  match s.teams.look tid with
  | none => s
  | some t => (t.heldAt hw meet).foldl (fun s th => s.updThread tid th (fun x =>
      { x with done := true, holdcnt := 0, run := .ready, since := (s.core t.core).clock })) s

/-- MEET_RELEASE (R181) and HOLDCNT_EXPIRY (R183). -/
def State.meetRelease (s : State) (tid hw meet : Nat) : State :=
  match s.teams.look tid with
  | some t => if s.meetReady tid t hw meet then s.releaseHeld tid hw meet else s
  | none => s
def State.holdExpiry (s : State) (tid hw meet : Nat) : State :=
  match s.teams.look tid with
  | some t => if (t.heldAt hw meet).any (fun th => decide (65536 ≤ (t.thread th).holdcnt)) then s.releaseHeld tid hw meet else s
  | none => s

def execMeetRelease (s : State) : Host.Outcome State Fault Refusal := .next (s.meetRelease s.arg.a s.arg.b s.arg.c)
def execHoldcntExpiry (s : State) : Host.Outcome State Fault Refusal := .next (s.holdExpiry s.arg.a s.arg.b s.arg.c)

/-! ## Resuming -/

/-- The party's suspended or parked state. -/
def Team.whyOf (t : Team) (fid : Option Nat) : Option Why :=
  match fid with
  | none => match t.lead.run with
    | .running (.blocked w) => some w
    | _ => none
  | some f => match t.formed.look f with
    | some w => match w.run with
      | .blocked why => some why
      | _ => none
    | none => none

/-- Move a blocked party past its instruction, and let it go on. -/
def State.passOver (s : State) (tid : Nat) (fid : Option Nat) : State :=
  (match fid with
    | none => s.updLead tid (fun l => { l with idx := l.idx + 1 })
    | some f => s.updWarp tid f (fun w => { w with idx := w.idx + 1 })).wakeParty tid fid

/-- CLAUSE_RESUME (R63, R110, R235): the condition that suspended a clause has cleared, and its continuation is ready with
its original stamp. A lead push takes effect in the first clock in which its queue has room. -/
def State.clauseResume (s : State) (tid : Nat) (fid : Option Nat) : State :=
  match s.teams.look tid with
  | none => s
  | some t =>
    if t.place != .resident then s
    else
      match t.whyOf fid with
      | some (.queueEmpty q ths) => if s.entriesFor t q ths then s.wakeParty tid fid else s
      | some (.queueFull q v reg) =>
        if t.occupancy q < queueDepth q then
          let s := s.pushTo tid q v
          let s := match reg with
            | some r => s.setS tid r.1 r.2
            | none => s
          s.passOver tid fid
        else s
      | some (.counterFull c hws) => if t.countFull hws fid.isNone c then s else s.wakeParty tid fid
      | some (.counterWait c n hws) => if t.countLe hws fid.isNone c n then s.wakeParty tid fid else s
      | some .room => s.wakeParty tid fid
      | _ => s

/-! ## Trap entry -/

/-- TRAP_ENTRY (R82, R84): the first queued trap enters as soon as the lead thread can take it. -/
def State.trapEntry (s : State) (tid : Nat) : State :=
  match s.teams.look tid with
  | none => s
  | some t => match t.lead.queue with
    | [] => s
    | tr :: rest =>
      if t.lead.canEnter then (s.updLead tid (fun l => { l with queue := rest })).enterTrap tid tr else s

def execTrapEntry (s : State) : Host.Outcome State Fault Refusal := .next (s.trapEntry s.arg.a)

/-! ## Timers and queue discipline -/

/-- The timer of a home warp or of the lead thread. -/
def Team.timerOf (t : Team) (hw : Option Nat) : Timer :=
  match hw with
  | none => t.lead.timer
  | some h => (t.warps.get {} h).timer
def State.setTimer (s : State) (tid : Nat) (hw : Option Nat) (f : Timer → Timer) : State :=
  match hw with
  | none => s.updLead tid (fun l => { l with timer := f l.timer })
  | some h => s.updHw tid h (fun w => { w with timer := f w.timer })

/-- A BWAIT or WAITA park that a timer may end: no lane waits for a presence bit or a translation (R127). -/
def Op.cuttable (o : Op) : Bool :=
  (o.kind == .bwait || o.kind == .waita) && o.lanes.all (fun a => match a.phase with
    | .walk _ | .absent => false
    | _ => true)

/-- End the park of one party at a timer's expiry (R127): the new state, and whether a park ended. -/
def State.cutPark (s : State) (tid : Nat) (t : Team) (fid : Option Nat) : State × Bool :=
  match t.whyOf fid with
  | some (.queueEmpty _ _) => (s.passOver tid fid, true)
  | some (.queueFull _ _ _) => (s.passOver tid fid, true)
  | some (.access id) => match s.ops.look id with
    | some o => if o.cuttable then (s.timeoutOp id, true) else (s, false)
    | none => (s, false)
  | _ => (s, false)

/-- A timer is due: REMAIN has reached 0 (R126). -/
def Timer.due (m : Timer) : Bool := m.armed && m.remain == 0

/-- The parties whose parks involve the timer of a home warp, or of the lead thread (R127). -/
def Team.timedBy (t : Team) (hw : Option Nat) : List (Option Nat) :=
  match hw with
  | none => [none]
  | some h => (t.formed.filter (fun p => p.2.threads.any (fun th => t.hwOf th == h))).map (fun p => some p.1)

/-- The timers of a team that expire with this one, itself among them: those of home warps that are due in the clock (R127). -/
def Team.dueWith (t : Team) (hw : Option Nat) : List (Option Nat) :=
  if !(t.timerOf hw).due then []
  else match hw with
    | none => [none]
    | some _ => (t.warps.filter (fun h => h.2.timer.due)).map (fun h => some h.1)

/-- TIMER_EXPIRY (R126, R127): REMAIN has reached 0. ARMED clears, FIRED sets, and the parks that involve the timer's home
warp, or the lead thread, end; CUT sets if one did. Timers that expire in one clock each see the parks that they end together. -/
def State.timerExpiry (s : State) (tid : Nat) (hw : Option Nat) : State :=
  match s.teams.look tid with
  | none => s
  | some t =>
    let due := t.dueWith hw
    let parties := (due.flatMap t.timedBy).eraseDups
    let r := parties.foldl (fun (r : State × List (Option Nat)) fid =>
      let x := r.1.cutPark tid t fid
      (x.1, if x.2 then fid :: r.2 else r.2)) (s, [])
    due.foldl (fun s h => s.setTimer tid h (fun m =>
      { m with armed := false, fired := true, cut := m.cut || (t.timedBy h).any r.2.contains })) r.1

def execTimerExpiry (s : State) : Host.Outcome State Fault Refusal := .next (s.timerExpiry s.arg.a s.arg.opt)

/-- QUEUE_DISCIPLINE_TIMEOUT (R110): 2^20 clocks at one push raise 0x15 at the lead thread. -/
def State.queueTimeout (s : State) (tid : Nat) : State :=
  match s.teams.look tid with
  | none => s
  | some t => match t.whyOf none, s.partyEnv tid none with
    | some (.queueFull _ _ _), some e =>
      if t.lead.stall < 2 ^ 20 then s
      else
        let pclass := bits (t.lead.words.getD e.idx 0).toNat 11 10
        s.raise { e with pclass := pclass } (getHeader e.header).cls e.idx { code := 0x15 }
    | _, _ => s

def execQueueDisciplineTimeout (s : State) : Host.Outcome State Fault Refusal := .next (s.queueTimeout s.arg.a)

end Sys2Proof.Machine
end

