-- ==== Sys2Proof/Machine/Sys.lean ====
section
/-! DEFINITION. The SYS class (R115 to R120), service calls and interrupts (R121 to R124), the clock and timers (R125,
R126), and the requests that lane-stream SYS instructions hand to the lead engine (R117). -/

namespace Sys2Proof.Machine

/-- A SYS instruction (R115 to R117). -/
def sys (f : FmtA) (s : State) (last : Bool) (regs : List (Nat × Nat)) (legal : Env → Bool) (body : Env → State → Res) : State :=
  s.issue f.msel.toNat f.pclass.toNat 7 last (fun e => if e.lead then [] else regs) legal body

def execNop (f : FmtA) (s : State) : Host.Outcome State Fault Refusal :=
  .next (sys f s false [] (fun _ => true) (fun _ s => .done s))

/-- TRAP (R118): a log record and an entry of the handler; a lane-stream warp goes on; the lead thread stops after it. -/
def execTrap (f : FmtI) (s : State) : Host.Outcome State Fault Refusal :=
  .next (s.issue f.msel.toNat f.pclass.toNat 7 false (fun _ => []) (fun e => !(e.lead && e.t.lead.hmode)) (fun e s =>
    if !e.lead && e.act.isEmpty then .done s
    else .handled ((s.advance e .issuing).takeTrap e 2 7 e.idx { code := 0, info := f.simm 64 })))

/-! ## HALT -/

/-- HALT (R120): the lead thread ends; in the lane stream the active threads exit. Illegal in handler mode. -/
def execHalt (f : FmtA) (s : State) : Host.Outcome State Fault Refusal :=
  .next (sys f s true [] (fun e => !(e.lead && e.t.lead.hmode)) (fun e s =>
    if e.lead then .jumped ((s.updLead e.tid (fun l => { l with run := .halting })).trapNext e.tid)
    else exitBody e s))

/-- HALT_COMPLETE (R120): the lead thread has ended once its counters are empty and no trap is queued (R85). -/
def State.haltComplete (s : State) (tid : Nat) : State :=
  match s.teams.look tid with
  | none => s
  | some t =>
    if t.lead.run == .halting && t.lead.queue.isEmpty && t.lead.oc.all (fun c => c.2.isEmpty) then
      (s.updLead tid (fun l => { l with run := .ended })).boundaryDue t
    else s

def execHaltComplete (s : State) : Host.Outcome State Fault Refusal := .next (s.haltComplete s.arg.a)

/-! ## ERET -/

/-- The word that stands at an address passes every check of a header of the stream, and its class is allowed there (R46). -/
def State.headerAt (s : State) (e : Env) (lead : Bool) (va : Nat) : Bool :=
  match s.readCode e.core e.t.ctx va with
  | .word w => headerOk lead w && (Cls.ofCode (getHeader w).cls).any (classOk lead)
  | _ => false

/-- ERET (R87, R119): only in the lead stream, in handler mode. A RESUME address must hold a header that R46 finds legal in every field. -/
def execEret (f : FmtA) (s : State) : Host.Outcome State Fault Refusal :=
  .next (sys f s true [] (fun e => e.lead && e.t.lead.hmode) (fun e s =>
    let action := f.md.toNat % 4
    let tr := e.t.lead.trap
    if action = 3 then .handled ((s.releasePort e).killLaunch e.t.launch 0x14)
    else if tr.kind = 0 && action = 2 && tr.index = 31 then .fault { code := 0x01 }
    else if tr.kind = 0 && action = 0 then
      match s.checkTarget e tr.leadf 0 e.t.lead.resume.toNat with
      | .ok =>
        if s.headerAt e tr.leadf e.t.lead.resume.toNat then .handled ((s.releasePort e).returnFromTrap e.tid action) else .fault { code := 0x01 }
      | .fault c => .fault { code := if c = 0x03 then 0x01 else c, addr := if c = 0x03 then 0 else e.t.lead.resume.toNat }
      | .wait s why => .suspend s why
    else .handled ((s.releasePort e).returnFromTrap e.tid action)))

/-! ## Requests to the lead engine -/

/-- A request of a formed warp: the operation that parks it until the lead engine has executed it (R117). -/
def handOver (e : Env) (s : State) (kind : OpKind) (dst : Nat) (args : List Nat) : Res :=
  let r := s.launchOp e { e.op s kind none e.idleLanes with data := dst, args := args, parks := true }
  .park r.1 (.access r.2)

/-- The value of a 64-bit operand of an agent, or of a 32-bit one. -/
def Env.pair (e : Env) (z : Bool) (reg th : Nat) : Nat :=
  if z then 0 else if e.lead then e.t.sreg reg else (e.t.thread th).vpair reg
def Env.single (e : Env) (z : Bool) (reg th : Nat) : Nat :=
  if z then 0 else if e.lead then e.t.sreg reg else (e.t.thread th).vreg reg

/-- An argument of SVC: s[C + i], or the pair C + 2i. -/
def Env.svcArg (e : Env) (f : FmtA) (i th : Nat) : Nat := e.pair f.zc (f.c.toNat + (if e.lead then i else 2 * i)) th

/-- The operands of SVC must be uniform (R117). -/
def svcUniform (f : FmtA) (e : Env) : Option Raise :=
  (e.uniform 1 (e.pair f.za f.a.toNat)).orElse fun _ => (e.uniform 2 (e.pair f.zb f.b.toNat)).orElse fun _ =>
    (e.uniform 3 (fun th => (upFrom 0 4).foldl (fun n i => n * 2 ^ 64 + e.svcArg f i th) 0))

/-- SVC is refused (R123): EN, LOG2N, and the room in the service area. -/
def Ctx.svcFull (k : Ctx) : Bool :=
  !bit k.svcBase 4 || decide (12 < k.svcBase % 16) || (k.svcReserved + 2 ^ 32 - k.svcTail) % 2 ^ 32 == 2 ^ (k.svcBase % 16)

/-- Reserve the next slot (R123). -/
def State.reserveSlot (s : State) (c : Nat) : State := s.updCtx c (fun k => { k with svcReserved := (k.svcReserved + 1) % 2 ^ 32 })

/-- SVC (R117, R123): in the lead stream at once, in the lane stream by a request; ARGS are the descriptor, the barrier
and the arguments, and the slot once it is reserved. -/
def execSvc (f : FmtA) (s : State) : Host.Outcome State Fault Refusal :=
  .next (sys f s false [(f.a.toNat, if f.za then 0 else 2), (f.b.toNat, if f.zb then 0 else 2), (f.c.toNat, if f.zc then 0 else 8)]
    (fun _ => true) (fun e s =>
    if !e.lead && e.act.isEmpty then .done s
    else match svcUniform f e with
      | some r => .fault r
      | none =>
        let th := e.act.headD 0
        let args := [e.pair f.za f.a.toNat th, e.pair f.zb f.b.toNat th] ++ (upFrom 0 4).map (fun i => e.svcArg f i th)
        if s.replayable e.t then .fault { code := 0x10, lanes := if e.lead then 0 else e.t.laneMask e.act }
        else if e.full 7 then .suspend s (e.waitsFor 7)
        else if !e.lead then handOver e s .svc 0 args
        else if (s.ctx e.t.ctx).svcFull then .fault { code := 0x11 }
        else
          let o := e.op s .svc (some 7) e.idleLanes
          .done ((s.reserveSlot e.t.ctx).launchOp e { o with args := args ++ [(s.ctx e.t.ctx).svcReserved], started := true }).1))

/-- IRQ (R117, R124). -/
def execIrq (f : FmtA) (s : State) : Host.Outcome State Fault Refusal :=
  .next (sys f s false [(f.a.toNat, if f.za then 0 else 1)] (fun _ => true) (fun e s =>
    if !e.lead && e.act.isEmpty then .done s
    else match e.uniform 1 (e.single f.za f.a.toNat) with
      | some r => .fault r
      | none =>
        let v := e.single f.za f.a.toNat (e.act.headD 0)
        if s.replayable e.t then .fault { code := 0x10, lanes := if e.lead then 0 else e.t.laneMask e.act }
        else if e.full 7 then .suspend s (e.waitsFor 7)
        else if !e.lead then handOver e s .irq 0 [v]
        else if (s.ctx e.t.ctx).irqCount ≤ v then .fault { code := 0x09 }
        else
          let o := e.op s .irq (some 7) e.idleLanes
          .done (s.launchOp e { o with args := [v], started := true }).1))

/-- TIMRD (R125). Its copies, which all get the one value that is read, are compared on their fields (R129). -/
def execTimrd (f : FmtA) (s : State) : Host.Outcome State Fault Refusal :=
  .next (sys f s false [(f.dst.toNat, 2)] (fun _ => true) (fun e s =>
    if e.lead then .done (s.setS e.tid f.dst.toNat (s.core e.core).clock)
    else if e.act.isEmpty then .done s
    else handOver e s .timrd f.dst.toNat []))

/-- A timer armed or cleared by TIMARM with a count (R126). -/
def Timer.arm (m : Timer) (n : Nat) : Timer :=
  if n % 2 ^ 32 = 0 then { m with armed := false, fired := false, cut := false }
  else { remain := n % 2 ^ 32, armed := true, fired := false, cut := false }

/-- TIMARM (R117, R126). -/
def execTimarm (f : FmtA) (s : State) : Host.Outcome State Fault Refusal :=
  .next (sys f s false [(f.a.toNat, if f.za then 0 else 1), (f.dst.toNat, 1)] (fun _ => true) (fun e s =>
    if e.lead then
      let n := e.single f.za f.a.toNat 0
      .done ((s.setS e.tid f.dst.toNat e.t.lead.timer.word).setTimer e.tid none (fun m => m.arm n))
    else if e.act.isEmpty then .done s
    else match e.uniform 1 (e.single f.za f.a.toNat) with
      | some r => .fault r
      | none => handOver e s .timarm f.dst.toNat [e.single f.za f.a.toNat (e.act.headD 0)]))

/-- A request that the lead engine has still to execute. -/
def Op.isRequest (o : Op) : Bool :=
  o.fid.isSome && !o.started && (o.kind == .svc || o.kind == .irq || o.kind == .timrd || o.kind == .timarm)

/-- The lead engine executes a request (R117, R123 to R126). The core's clock count is that of the core of the lead engine, for a warp on
the partner core of a pair too (log entry 136). -/
def State.serve (s : State) (id : Nat) : State :=
  match s.ops.look id with
  | none => s
  | some o => match s.teams.look o.tid with
    | none => s.endOp id
    | some t =>
      let ths := o.lanes.map (·.thread)
      let all := t.laneMask ths
      let enter7 := fun (s : State) (args : List Nat) =>
        (s.updOp id (fun o => { o with counter := some 7, started := true, args := args })).enterOc o.tid false o.hws 7 id
      match o.kind with
      | .timrd =>
        ((s.setV o.tid (ths.map (fun th => (th, pairWrites o.data (s.core t.core).clock)))).unpark id).endOp id
      | .timarm =>
        let s := s.setV o.tid (ths.map (fun th => (th, [(o.data, (t.warps.get {} (t.hwOf th)).timer.word)])))
        let s := o.hws.foldl (fun s h => s.setTimer o.tid (some h) (fun m => m.arm (o.args.getD 0 0))) s
        (s.unpark id).endOp id
      | .irq =>
        if (s.ctx t.ctx).irqCount ≤ o.args.getD 0 0 then s.opFault id { code := 0x09, lanes := all }
        else (enter7 s o.args).unpark id
      | .svc =>
        if (s.ctx t.ctx).svcFull then s.opFault id { code := 0x11, lanes := all }
        else (enter7 (s.reserveSlot t.ctx) (o.args ++ [(s.ctx t.ctx).svcReserved])).unpark id
      | _ => s

/-! ## Service records and interrupts -/

/-- Every earlier access of the issuing warp, with its threads that are masked off, or of the lead thread, is complete at system scope
(R123, R124); what the warp acquired with queue entries is done (R109). -/
def State.accessesDone (s : State) (id : Nat) (o : Op) : Bool :=
  let agents := if o.fid.isNone then [leadThread] else o.party
  s.ops.all (fun p => decide (id ≤ p.1) || p.2.tid != o.tid || !p.2.kind.touches
    || p.2.lanes.all (fun a => !agents.contains a.thread || a.phase == .done))
    && (o.fid.isNone || agents.all (fun th => s.popsDone o.tid th id))

/-- The bytes of a service record (R122). -/
def svcRecord (s : State) (o : Op) (t : Team) : List Byte :=
  let arg := fun i => o.args.getD i 0
  let quarter := match o.fid with
    | none => 0xFE
    | some _ => (t.warps.get {} (o.hws.headD 0)).quarter % 4
  bytesOf 4 (arg 6) ++ bytesOf 2 (arg 0) ++ bytesOf 1 (b2n o.fid.isSome) ++ bytesOf 1 o.pclass ++ bytesOf 4 (s.identOf t)
    ++ bytesOf 4 t.number ++ bytesOf 2 (match o.fid with
      | none => 0xFFFF
      | some _ => t.hwOf ((o.lanes.map (·.thread)).headD 0)) ++ bytesOf 2 t.vdie ++ bytesOf 1 (o.core % 20) ++ bytesOf 1 quarter
    ++ bytesOf 2 (arg 0 / 2 ^ 32) ++ bytesOf 8 (arg 1) ++ bytesOf 8 (arg 2) ++ bytesOf 8 (arg 3) ++ bytesOf 8 (arg 4) ++ bytesOf 8 (arg 5)

/-- HEAD advances past each slot that has been written; each raises the service MSI, and its SVC leaves oc7 (R123). -/
def State.svcAdvance (s : State) (c : Nat) : Nat → State
  | 0 => s
  | n + 1 =>
    let k := s.ctx c
    if !k.svcWritten.has k.svcHead then s
    else
      let s := s.updCtx c (fun k => { k with svcWritten := k.svcWritten.rem k.svcHead, svcHead := (k.svcHead + 1) % 2 ^ 32 })
      let s := s.ctxMsi c 0
      let s := s.ops.foldl (fun s p =>
        if p.2.kind == .svc && p.2.started && p.2.args.getD 6 0 == k.svcHead && ((s.teams.look p.2.tid).map (·.ctx)) == some c then s.endOp p.1
        else s) s
      s.svcAdvance c n

/-- Write the bytes of a service record (R123): the new state, or the code of the failure. A write that the package network loses (R354) is
one that poison fails; what it reached of the slot is undefined. -/
def State.svcPut (s : State) (t : Team) (a : Nat) (lost : Bool) (bs : List Byte) : Except Nat State :=
  s.engineWrite t.ctx a (if lost then (upFrom 0 bs.length).map s.freeByte else bs)

/-- SVC_RECORD_WRITE (R122, R123): the record of a reserved slot; a failed write is logged. -/
def State.svcWrite (s : State) (id : Nat) (lost : Bool) : State :=
  match s.liveOp id with
  | none => s
  | some o => match s.teams.look o.tid with
    | none => s
    | some t =>
      let slot := o.args.getD 6 0
      let k := s.ctx t.ctx
      if o.kind != .svc || !o.started || !s.accessesDone id o || k.svcWritten.has slot then s
      else
        let a := k.svcBase / 2 ^ 12 * 2 ^ 12 + 64 * (slot % 2 ^ (k.svcBase % 16))
        let rec_ : LogRec := { type := 5, severity := 2, engine := 7, vdie := t.vdie, core := o.core % 20, team := t.number,
                               launch := s.identOf t, syndrome := slot, address := a }
        let s : State := match s.svcPut t a lost (svcRecord s o t) with
          | .ok s => if lost then (s.drawn.ctxLog t.ctx { rec_ with code := 0x0A }).1 else s
          | .error code => (s.ctxLog t.ctx { rec_ with code := code }).1
        let s := s.updCtx t.ctx (fun k => { k with svcWritten := k.svcWritten.ins slot })
        s.svcAdvance t.ctx ((s.ctx t.ctx).svcWritten.length + 1)

/-- SVC_RECORD_WRITE of operation a; b is 1 where the package network has lost the write (R354). -/
def execSvcRecordWrite (s : State) : Host.Outcome State Fault Refusal := .next (s.svcWrite s.arg.a (s.arg.b == 1))

/-- IRQ_MSI_POST (R124): the message goes out once every earlier access is complete. -/
def State.irqPost (s : State) (id : Nat) : State :=
  match s.liveOp id with
  | none => s
  | some o => match s.teams.look o.tid with
    | none => s
    | some t =>
      if o.kind == .irq && o.started && s.accessesDone id o then (s.ctxMsi t.ctx (2 + o.args.getD 0 0)).endOp id else s

def execIrqMsiPost (s : State) : Host.Outcome State Fault Refusal := .next (s.irqPost s.arg.a)

end Sys2Proof.Machine
end

