-- ==== Sys2Proof/Machine/Xlat.lean ====
section
/-! DEFINITION. The translation service: walks and what they release (R221, R325 to R329), fault records and the host's
replies (R329 to R331), invalidation (R332, R333). -/

namespace Sys2Proof.Machine

/-! ## Accesses that wait for a walk -/

/-- The use that an operation makes of its bytes, as at its issue. -/
def Op.use (o : Op) : Use :=
  match o.kind with
  | .ld | .ldq | .waita => readUse o.size
  | .st | .stq => writeUse o.size
  | .prsq | .kick | .cctl => readUse 0
  | .binit | .barr | .barrx | .bexp | .bdrop => { bytes := 16, align := 16, write := true, access := 2 }
  | .bwait | .btest => { bytes := 16, align := 16, write := false, access := 0 }
  | .rfold => { bytes := 16, align := 16, write := false, access := 0 }
  | .raccx | .rclr => { bytes := 16, align := 16, write := true, access := 2 }
  | _ => rmwUse o.size

/-- An operation of the matrix engine, whose pages the tile fetch unit translates (R296, R302). -/
def OpKind.matrix : OpKind → Bool
  | .mma | .mmas | .mmax | .mzero | .mpin | .munpin => true
  | _ => false

/-- An operation that parks its party until it completes, whatever the translation does. -/
def OpKind.alwaysParks : OpKind → Bool
  | .bwait | .waita => true
  | _ => false

/-- The lane waits for a walk. -/
def Acc.waitsFor (a : Acc) (req : Nat) : Bool := a.phase == .walk req

/-- The access of a lane as a want, for the checks that its translation makes possible. -/
def Acc.want (a : Acc) : Want := { th := a.thread, lane := a.lane, space := a.space, addr := a.addr, data := a.data, data2 := a.data2 }

/-- A walk that an operation waits for has succeeded: its lanes are checked and reach their homes; a fault ends the
operation; a party that only waited for the translation goes on (R221, R329). -/
def State.resolveOp (s : State) (id req : Nat) : State :=
  match s.ops.look id with
  | none => s
  | some o =>
    if !o.lanes.any (fun a => a.waitsFor req) then s
    else if o.kind.matrix then
      s.updOp id (fun o => { o with lanes := o.lanes.map (fun a => if a.waitsFor req then { a with phase := .ready } else a) })
    else match s.opEnv o with
      | none => s
      | some e =>
        let mine := o.lanes.filter (fun a => a.waitsFor req)
        match s.accessFault e o.use (mine.map Acc.want) with
        | some r => s.opFault id r
        | none =>
          let s := s.updOp id (fun o => { o with lanes := o.lanes.map (fun a =>
            if a.waitsFor req then
              Acc.of { a with phase := .ready, home := s.homeOf o.tid e.t o.core a.thread a.space a.addr }
                (if a.space = 0 then s.held o.core e.t.ctx a.addr else none)
            else a) })
          match s.ops.look id with
          | some o =>
            if o.walking || o.kind.alwaysParks then s
            else if o.lanes.any (fun a => a.phase == .absent) then s.updOp id (fun o => { o with parks := false })
            else s.unpark id
          | none => s

/-- The team of a party may take part in a walk: it is not saved (R373). -/
def State.present (s : State) (tid : Nat) : Bool :=
  match s.teams.look tid with
  | some t => match t.place with
    | .saved _ => false
    | _ => true
  | none => false

/-- Every party of the teams present, as team and formed warp. -/
def State.parties (s : State) : List (Nat × Option Nat) :=
  s.teams.flatMap (fun p => (p.1, none) :: p.2.formed.map (fun w => (p.1, some w.1)))

/-- The parties that wait for a walk before their instruction issues or their clause is fetched. -/
def State.walkers (s : State) (req : Nat) : List (Nat × Option Nat) :=
  s.parties.filter (fun p => s.present p.1 && (match s.blockedBy p.1 p.2 with
    | some (.walk r _ _) => r == req
    | _ => false))

/-- Core of a party. -/
def State.coreOfParty (s : State) (p : Nat × Option Nat) : Nat :=
  match s.teams.look p.1 with
  | none => 0
  | some t => match p.2 with
    | none => t.core
    | some f => t.coreOf (t.formed.get noWarp f).quarter

/-- Cores whose accesses wait for a walk, with the one that began it; the number of a walk of the snapshot engine or of a Saddle port
is not that of a core (R328). -/
def State.walkCores (s : State) (req : Nat) (w : Walk) : List Nat :=
  (if w.agent < 4 then [w.core] else []) ++ (s.ops.filter (fun p => p.2.lanes.any (fun a => a.waitsFor req))).map (fun p => p.2.core)
    ++ (s.walkers req).map s.coreOfParty
    ++ (s.copies.filter (fun p => (p.2.wait.map (·.1)) == some req)).map (fun p => p.2.core)

/-- Fill a translation into a cache of the memory side: 0 to 3 the shared ones of the base dies, 4 + p that of Saddle port p (R328). -/
def State.fillShared (s : State) (k c va : Nat) (l : Leaf) : State :=
  s.updMs (fun m => { m with xlat := m.xlat.put k ((m.xlat.get [] k).put (xkey c va) l) })

/-- A walk succeeds: the translation is filled where it is waited for, and every waiting access goes on (R328, R331). -/
def State.finishWalk (s : State) (req : Nat) (w : Walk) (l : Leaf) : State :=
  let s := (s.walkCores req w).foldl (fun s c => s.fillXlat c w.ctx w.va l) s
  let s := if w.agent = 5 then (s.fillShared (4 + w.core) w.ctx w.va l).fillShared (w.core % 4) w.ctx w.va l else s
  let s := s.updMs (fun m => { m with walks := m.walks.del req })
  let parties := s.walkers req
  let s := s.ops.foldl (fun s p => if s.present p.2.tid then s.resolveOp p.1 req else s) s
  let s := parties.foldl (fun s p => s.wakeParty p.1 p.2) s
  let s := (s.resumeCopies req).freeWaits req
  { s with launches := s.launches.map (fun p => (p.1, if (p.2.snapWait.map (·.1)) = some req then { p.2 with snapWait := none } else p.2)) }

/-- The base die whose walkers serve a walk (R328, R347). -/
def Walk.router (w : Walk) : Nat := if w.agent < 4 then baseOf (dieOf w.core) else w.core % 4

/-- The first entry on a walk's path in another package that has not been read (R421). -/
def State.farEntry (s : State) (path : List Nat) : Far :=
  ((path.filter (fun a => a / 2 ^ 43 != s.pkg && s.reachable (a / 2 ^ 43) && (s.answered (a / 2 ^ 43) (a % 2 ^ 43) 8).isNone)).take 1).map
    (fun a => (a / 2 ^ 43, a % 2 ^ 43, 8))

/-- TRANSLATION_WALK (R327): a walker completes; a poisoned entry is logged for the package (R327, R32). Its reads go over the package
network (R353, R354), and to other packages (R421). -/
def State.translationWalk (s : State) (req : Nat) : State :=
  match s.ms.walks.look req with
  | none => s
  | some w =>
    let far := s.farEntry (s.walkPath w.ctx w.va)
    let path := (s.walkPath w.ctx w.va).map s.physPlace
    let r := if s.ms.asks.any (fun x => x.who == (Requester.walk req).key && far.contains (x.pkg, x.addr, x.len)) then (s, .go)
      else s.request (.walk req) w.router (path.filterMap (fun p => s.routerOf p.1 p.2)) (s.ms.clocks.get 0 w.router)
    let x := r.1.ask (.walk req) (if r.2 = .go then far else [])
    if w.failed.isSome then s
    else if r.2 = .wait || !far.isEmpty && r.2 != .lost then x.1
    else
      let s := path.foldl (fun s p => s.touchL2 p.1 p.2 8) r.1
      let lost := r.2 == .lost || s.tainted (.walk req)
      let s := s.untaint (.walk req)
      let fail := fun (s : State) (cause entry : Nat) => s.drawn.updMs (fun m => { m with walks := m.walks.upd req (fun w => { w with failed := some (cause, entry) }) })
      if lost then fail (s.lostRecord w.launch 0) 4 (Config.freeWord s.free).toNat
      else match s.walk w.ctx w.va with
      | .ok l => (s.drawn.finishWalk req w l).forget (.walk req)
      | .miss cause entry => fail (s.forget (.walk req)) cause entry
      | .bad a => fail ((s.forget (.walk req)).pkgLog { type := 4, severity := 3, engine := 10, address := s.pkg * 2 ^ 43 + a }) 4 (Config.freeWord s.free).toNat

def execTranslationWalk (s : State) : Host.Outcome State Fault Refusal := .next (s.translationWalk s.arg.a)

/-! ## Fail -/

/-- A party that waits for a walk faults with 0x08 (R329): at its clause's fetch with index 31, else at its instruction. -/
def State.failParty (s : State) (tid : Nat) (fid : Option Nat) : State :=
  match s.blockedBy tid fid, s.partyEnv tid fid with
  | some (.walk _ lanes addr), some e =>
    let r : Raise := { code := 0x08, lanes := lanes, addr := addr }
    if e.header = 0 then s.raise e 14 31 r
    else
      let word := match fid with
        | none => e.t.lead.words.getD e.idx 0
        | some _ => e.w.words.getD e.idx 0
      s.raise { e with pclass := bits word.toNat 11 10 } (getHeader e.header).cls e.idx r
  | _, _ => s

/-- An operation that waits for a walk faults with 0x08. -/
def State.failOp (s : State) (id req : Nat) : State :=
  match s.ops.look id with
  | none => s
  | some o => match o.lanes.filter (fun a => a.waitsFor req) with
    | [] => s
    | a :: rest =>
      let lanes := match s.teams.look o.tid with
        | some t => if o.fid.isNone then 0 else t.laneMask ((a :: rest).map (·.thread))
        | none => 0
      let va := ((s.ms.walks.look req).map (·.va)).getD a.addr
      let r : Raise := { code := 0x08, lanes := lanes, addr := if o.kind.matrix then va else a.addr }
      if o.kind.matrix then s.mtxFault id o r else s.opFault id r

/-- A granule of a launch's regions cannot be saved (R350): its writes are dropped, and the launch is killed. -/
def State.loseGranule (s : State) (lid g : Nat) : State :=
  (s.updLaunch lid (fun l => { l with lost := l.lost.ins g, snapWait := none })).killLaunch lid 0x14

/-- A fail reply, or a fault where no records are posted, reaches every access that waits (R329, R331, R350). -/
def State.failWalk (s : State) (req : Nat) : State :=
  let parties := s.walkers req
  let s := s.ops.foldl (fun s p => if s.present p.2.tid then s.failOp p.1 req else s) s
  let s := parties.foldl (fun s p => s.failParty p.1 p.2) s
  let s := s.failCopies req
  let s := s.launches.foldl (fun s p => match p.2.snapWait with
    | some (r, g) => if r = req then s.loseGranule p.1 g else s
    | none => s) s
  (s.denyWaits req).updMs (fun m => { m with walks := m.walks.del req })

/-! ## Records and replies -/

/-- Records that the fault queue holds (R333). -/
def MemSide.xfqSize (m : MemSide) : Nat := 2 ^ (if m.xfqBase % 16 < 4 then 4 else min (m.xfqBase % 16) 12)

/-- The 32 bytes of a fault record (R330). -/
def faultRecord (w : Walk) (cause entry tag : Nat) : List Byte :=
  bytesOf 8 w.va ++ bytesOf 2 w.ctx ++ bytesOf 1 w.agent ++ bytesOf 1 w.access ++ bytesOf 1 cause ++ bytesOf 1 0
    ++ bytesOf 2 w.vdie ++ bytesOf 4 tag ++ bytesOf 4 w.launch ++ bytesOf 8 entry

/-- FAULT_RECORD_POST (R329): one record for the context and page, and the translation MSI; the copy requests that wait for
it stop. A full queue waits; with EN = 0 the accesses fail at once. -/
def State.postRecord (s : State) (req : Nat) : State :=
  match s.ms.walks.look req with
  | none => s
  | some w => match w.failed with
    | none => s
    | some (cause, entry) =>
      if !s.copiesDrained req then s
      else if w.tag.isSome then s.stopCopies req
      else if !bit s.ms.xfqBase 4 then s.failWalk req
      else if ahead' s.ms.xfqHead s.ms.xfqTail = s.ms.xfqSize then s
      else
        let tag := s.ms.nextTag
        let s := s.physPut (bits s.ms.xfqBase 51 12 * 2 ^ 12 + s.ms.xfqHead % s.ms.xfqSize * 32) (faultRecord w cause entry tag)
        let s := s.updMs (fun m => { m with
          xfqHead := (m.xfqHead + 1) % 2 ^ 32, nextTag := (tag + 1) % 2 ^ 32
          walks := m.walks.upd req (fun w => { w with tag := some tag }) })
        (s.stopCopies req).pkgMsi 0
where
  /-- Distance of two free-running indices. -/
  ahead' (a b : Nat) : Nat := (a + 2 ^ 32 - b) % 2 ^ 32

def execFaultRecordPost (s : State) : Host.Outcome State Fault Refusal := .next (s.postRecord s.arg.a)

/-- The outstanding record with a tag. -/
def State.tagged (s : State) (tag : Nat) : Option Nat := (s.ms.walks.find? (fun p => p.2.tag == some tag)).map (·.1)

/-- A retry reply walks the page again (R331). -/
def State.retryReply (s : State) (tag : Nat) : State :=
  match s.tagged tag with
  | none => s
  | some req => s.updMs (fun m => { m with walks := m.walks.upd req (fun w => { w with failed := none, tag := none }) })

/-- A fail reply (R331). -/
def State.failReply (s : State) (tag : Nat) : State :=
  match s.tagged tag with
  | none => s
  | some req => s.failWalk req

def execXlatReplyRetry (s : State) : Host.Outcome State Fault Refusal := .next (s.retryReply s.arg.a)
def execXlatReplyFail (s : State) : Host.Outcome State Fault Refusal := .next (s.failReply s.arg.a)

/-- MSIDE_XFQ_TAIL (R333): a write that would make HEAD − TAIL exceed the queue is ignored. -/
def State.xfqTailWrite (s : State) (v : Nat) : State :=
  if s.ms.xfqSize < (s.ms.xfqHead + 2 ^ 32 - v % 2 ^ 32) % 2 ^ 32 then s else s.updMs (fun m => { m with xfqTail := v % 2 ^ 32 })

def execMsideXfqTailWrite (s : State) : Host.Outcome State Fault Refusal := .next (s.xfqTailWrite s.arg.a)

/-! ## Invalidation -/

/-- A page of a context lies in the range of an invalidation; PAGES = 0 is the whole context (R333). -/
def MemSide.inRange (m : MemSide) (c va : Nat) : Bool :=
  c == m.runCtx && (m.runPages == 0 || (decide (m.runVa ≤ va / 2 ^ 21) && decide (va / 2 ^ 21 < m.runVa + m.runPages)))

/-- A key of a translation cache lies in the range. -/
def MemSide.keyInRange (m : MemSide) (k : Nat) : Bool := m.inRange (k / 2 ^ 31) (k % 2 ^ 31 * 2 ^ 21)

/-- Every delta line is flushed and combined (R316). -/
def State.recallAll (s : State) : State := s.ms.holders.keys.foldl State.recallLine s

/-- The lane's access has used an entry of the range: its home was reached through it. -/
def State.usesOld (s : State) (o : Op) (a : Acc) : Bool :=
  a.space == 0 && a.home.isSome && s.ms.inRange (((s.teams.look o.tid).map (·.ctx)).getD 0) a.addr

/-- A waiting lane of the range releases its monitor and translates again before it reads (R332). -/
def State.rewalk (s : State) (id : Nat) (o : Op) (a : Acc) : State :=
  match s.teams.look o.tid with
  | none => s
  | some t =>
    let r := s.startWalk (s.walkOf t o.fid.isNone o.core a.addr o.use.access)
    r.1.updAcc id a.lane (fun a => { a with phase := .walk r.2, home := none, monitor := false, seen := false, poll := 0 })

/-- A lane of an operation that is parked waiting on another agent: it translates again and does not hold DONE (R332). -/
def State.waitsOnOther (s : State) (o : Op) (a : Acc) : Bool :=
  a.phase == .watching || (a.phase == .ready && (o.kind.alwaysParks || o.lanes.any (fun b => b.phase == .absent) || s.snapHolds o a))

/-- An operation still uses an entry of the range; a wait does so only while its read is on its way to another package. -/
def State.holdsInval (s : State) (id : Nat) : Bool :=
  match s.ops.look id with
  | none => false
  | some o => !o.kind.alwaysParks || o.lanes.any (fun a => a.phase == .away)

/-- A copy request of the context still writes through entries of the range: pieces begun, with what must come before them (R276). -/
def State.copyHoldsInval (s : State) (c : Copy) : Bool :=
  ((s.teams.look c.tid).map (·.ctx)) == some s.ms.runCtx
    && (!c.flying.isEmpty || c.leaves.any (fun p => s.ms.inRange s.ms.runCtx (p.1 * 2 ^ 21)))

/-- INVAL_START (R332, R333): the value written to MSIDE_INVAL_CMD. Caches drop the range, its pins end, deltas are flushed,
waiting lanes translate again, and tile fetch reads not yet made do. While an invalidation runs, START is ignored. -/
def State.invalStart (s : State) (v : Nat) : State :=
  let s := s.updMs (fun m => { m with
    invalDone := m.invalDone && !bit v 30, invalMsien := bit v 31, invalCtx := v % 2 ^ 12, invalPages := bits v 27 12 })
  if s.ms.invalBusy || !bit v 28 then s
  else
      let s := s.updMs (fun m => { m with runVa := m.invalVa, runCtx := m.invalCtx, runPages := m.invalPages })
      let m := s.ms
      let keep := fun (t : Tab Leaf) => t.filter (fun p => !m.keyInRange p.1)
      let s : State := { s with cores := s.cores.map (fun p => (p.1, { p.2 with xlat := keep p.2.xlat })) }
      let s : State := s.updMs (fun m => { m with
        invalBusy := true
        xlat := m.xlat.map (fun p => (p.1, keep p.2))
        pins := m.pins.filter (fun p => !m.inRange p.ctx (128 * p.vline)) })
      let s := s.recallAll
      let s := s.ops.foldl (fun s p => p.2.lanes.foldl (fun s a =>
        if s.waitsOnOther p.2 a && s.usesOld p.2 a && s.present p.2.tid then s.rewalk p.1 p.2 a else s) s) s
      let s : State := { s with ops := s.ops.map (fun p => (p.1,
        if p.2.kind.matrix && p.2.mtx.grans.any (fun g => !g.2.home.onChip && g.2.data.isNone) then { p.2 with mtx := { p.2.mtx with checked := false } } else p.2)) }
      s.updMs (fun m => { m with invalOps := (s.ops.filter (fun p => s.present p.2.tid && p.2.lanes.any (fun a => a.phase != .done && s.usesOld p.2 a))).map (·.1) })

def execInvalStart (s : State) : Host.Outcome State Fault Refusal := .next (s.invalStart s.arg.a)

/-- INVAL_DONE (R332): every access that used an old entry has completed. -/
def State.invalDone (s : State) : State :=
  if s.ms.invalBusy && s.ms.invalOps.all (fun id => !s.holdsInval id) && s.copies.all (fun p => !s.copyHoldsInval p.2) then
    let s := s.recallAll.updMs (fun m => { m with invalBusy := false, invalDone := true, invalOps := [] })
    if s.ms.invalMsien then s.pkgMsi 0 else s
  else s

def execInvalDone (s : State) : Host.Outcome State Fault Refusal := .next s.invalDone

end Sys2Proof.Machine
end

