-- ==== Sys2Proof/Machine/Awl.lean ====
section
/-! DEFINITION. An Awl: its registers (R429), its local memory (R426, R428), taking an exception (R427), its custom
instructions (R430 to R441), and the steps of its port that concern it. -/

namespace Sys2Proof.Machine

/-! ## The hart -/

/-- x[r]; x0 reads 0. -/
def Awl.xr (a : Awl) (r : Nat) : Nat := if r = 0 then 0 else (a.x.get 0 r).toNat

/-- Write x[r]; a write of x0 is discarded. -/
def Awl.setX (a : Awl) (r v : Nat) : Awl := if r = 0 then a else { a with x := a.x.set 0 r (BitVec.ofNat 64 v) }

/-- An instruction retires (R425, R431): the pc moves past its len bytes. -/
def Awl.retire (a : Awl) (len : Nat) : Awl :=
  { a with pc := BitVec.ofNat 64 (a.pc.toNat + len), minstret := a.minstret + 1, wait := none, access := .none }

/-- Taking an exception (R427): to mtvec, in the direct mode; where bits 63:2 of mtvec are 0 the hart halts instead, and the
package's management MSI is raised. -/
def State.awlTrap (s : State) (n cause tval : Nat) : State :=
  let a := s.awl n
  if a.mtvec.toNat / 4 = 0 then (s.updAwl n (fun a => { a with fault := true, cause := cause % 256, wait := none, access := .none })).pkgMsi 1
  else s.updAwl n (fun a => { a with
    mepc := a.pc, mcause := BitVec.ofNat 64 cause, mtval := BitVec.ofNat 64 tval, mpie := a.mie, mie := false,
    pc := BitVec.ofNat 64 (a.mtvec.toNat / 4 * 4), wait := none, access := .none })

/-- AWL_EXCEPTION (R427). -/
def execAwlException (s : State) : Host.Outcome State Fault Refusal := .next (s.awlTrap s.arg.a s.arg.b s.arg.c)

/-- The return from an exception (MRET): MIE from MPIE, MPIE set; the pc then comes from mepc. -/
def Awl.mret (a : Awl) : Awl := { a with mie := a.mpie, mpie := true }

/-- The context access that the hart waits for is parked on a translation fault (R429, R432). -/
def State.awlParked (s : State) (n : Nat) : Bool :=
  match (s.awl n).wait with
  | some (req, _) => (s.ms.walks.look req).any (fun w => w.failed.isSome)
  | none => false

/-- The hart is stopped, halted by R427, or parked in awl.waitev with mask 0 (R429); with RUN = 0 it stops once the context access in
progress has completed. -/
def Awl.halted (a : Awl) : Bool :=
  a.fault || (match a.waiting with
    | .halt _ _ => true
    | .events _ _ => false
    | .no => !a.run && a.access == .none)

/-- The registers of R429 as they read, by offset; XLATE is given. -/
def Awl.reg (a : Awl) (xlate : Bool) (off : Nat) : Nat :=
  match off with
  | 0x00 => b2n a.run
  | 0x08 => b2n a.halted + 2 * b2n a.fault + 4 * b2n a.poison + 8 * b2n xlate + 256 * a.cause
  | 0x10 => 2 * a.loadStatus + a.loadAddr
  | 0x18 => a.ctx + 4096 * b2n a.lock
  | 0x20 => a.rate
  | 0x28 => a.rangeBase + 2 ^ 16 * a.rangeCount
  | 0x30 => a.doorbell.toNat
  | 0x38 => a.timer
  | 0x40 => a.egress
  | 0x48 => a.minVer.toNat
  | _ => if 0x80 ≤ off && off < 0xC0 && off % 8 = 0 then (a.allow.get 0 ((off - 0x80) / 8)).toNat else 0

/-! ## Local memory -/

/-- Bytes of local memory (R426). -/
def localSize : Nat := 0x40000

/-- A 64-bit word of the range has an uncorrectable error (R428). -/
def Awl.bad (a : Awl) (addr n : Nat) : Bool := a.ecc.any (fun w => decide (addr / 8 ≤ w) && decide (8 * w < addr + n))

/-- The bytes of a range of local memory. -/
def Awl.localBytes (a : Awl) (addr n : Nat) : List Byte := (upFrom addr n).map (fun k => a.mem.get 0 k)

/-- Write local memory. A 64-bit word written whole is without error again; the fetch may see the bytes before (R428). -/
def Awl.localWrite (a : Awl) (addr : Nat) (bs : List Byte) : Awl :=
  { a with
    mem := writeCells a.mem addr bs
    ecc := a.ecc.filter (fun w => !(decide (addr ≤ 8 * w) && decide (8 * w + 8 ≤ addr + bs.length)))
    stale := (upFrom addr bs.length).foldl (fun (t : Tab Byte) k => if (t.look k).isSome then t else t.put k (a.mem.get 0 k)) a.stale }

/-! ## Context-memory instructions -/

/-- The Awl that executes; for another party nothing happens. -/
def State.asAwl (s : State) (f : State → Nat → Awl → State) : State :=
  match s.who with
  | .awl n => f s n (s.awl n)
  | _ => s

/-- An access to context memory (R432, R433): alignment, range and translation, then `go`, or `lost` where the network has lost it (R354); a
translation fault waits. -/
def State.awlAccess (s : State) (n va len : Nat) (write : Bool) (lost : State → State) (go : State → List Piece → State) : State :=
  let a := s.awl n
  if va % len != 0 then s.awlTrap n (if write then 6 else 4) va
  else if 2 ^ 52 ≤ va then s.awlTrap n (if write then 7 else 5) va
  else match s.reach n a.ctx va len write a.wait with
    | .wait s w => s.updAwl n (fun a => { a with wait := w, access := .begun })
    | .fail s 0x0A _ => lost s
    | .fail s _ _ => s.awlTrap n (if write then 7 else 5) va
    | .go s l => go s l

/-- The local side of .bget and .bput (R433). -/
def State.awlLocal (s : State) (n addr : Nat) (write : Bool) (go : State) : State :=
  if addr % 64 != 0 then s.awlTrap n (if write then 6 else 4) addr
  else if localSize < addr + 64 then s.awlTrap n (if write then 7 else 5) addr
  else go

/-- AWLn_STAT.POISON set, and an access fault (R428, R433). -/
def State.awlPoison (s : State) (n cause tval : Nat) : State := (s.updAwl n (fun a => { a with poison := true })).awlTrap n cause tval

/-- A store of an Awl is complete, or dropped by the network (R354, R432). -/
def State.awlStored (s : State) (n : Nat) : State := s.updAwl n (fun h => h.retire 4)

/-- The bytes of a store reach their home; a home in another package acknowledges them before the instruction is complete (R421, R432), and
one to which there is no way loses them (R422, R469). -/
def State.awlStore (s : State) (n : Nat) (l : List Piece) (bs : List Byte) : State :=
  match farPieces l with
  | [] => (s.writePieces l (bs.map (fun b => (b, false)))).awlStored n
  | (pkg, a, _) :: _ =>
    if s.wayTo pkg then
      { s.updAwl n (fun h => { h with access := .sent }) with sent := s.sent ++ [.awlStore n pkg a bs (l.any (·.bad))] }
    else (s.lostRecord 0 0).awlStored n

/-- The acknowledgement of a store of an Awl comes, or the network has lost it (R421, R422). -/
def State.awlAnswered (s : State) (n : Nat) : State := if (s.awl n).access = .sent then s.awlStored n else s

def execAwlGld (s : BitVec 2) (a : BitVec 5) (d : BitVec 5) (st : State) : Host.Outcome State Fault Refusal :=
  .next (st.asAwl (fun st n h =>
    st.awlAccess n (h.xr a.toNat) (2 ^ s.toNat) false (fun st => st.awlPoison n 5 (h.xr a.toNat)) (fun st l =>
      let r := st.readPieces l
      if r.2.any (·.2) then r.1.awlPoison n 5 (h.xr a.toNat)
      else r.1.updAwl n (fun h => (h.setX d.toNat (natOf (r.2.map (·.1)))).retire 4))))

def execAwlGst (s : BitVec 2) (b : BitVec 5) (a : BitVec 5) (st : State) : Host.Outcome State Fault Refusal :=
  .next (st.asAwl (fun st n h =>
    st.awlAccess n (h.xr a.toNat) (2 ^ s.toNat) true (fun st => st.awlStored n) (fun st l =>
      st.awlStore n l (bytesOf (2 ^ s.toNat) (h.xr b.toNat)))))

def execAwlBget (l : BitVec 5) (a : BitVec 5) (s : State) : Host.Outcome State Fault Refusal :=
  .next (s.asAwl (fun s n h =>
    s.awlAccess n (h.xr a.toNat) 64 false (fun s => s.awlLocal n (h.xr l.toNat) false (s.awlPoison n 5 (h.xr a.toNat))) (fun s ps =>
      s.awlLocal n (h.xr l.toNat) false (
        let r := s.readPieces ps
        if r.2.any (·.2) then r.1.awlPoison n 5 (h.xr a.toNat)
        else r.1.updAwl n (fun h => (h.localWrite (h.xr l.toNat) (r.2.map (·.1))).retire 4)))))

def execAwlBput (l : BitVec 5) (a : BitVec 5) (s : State) : Host.Outcome State Fault Refusal :=
  .next (s.asAwl (fun s n h =>
    let out := fun (s : State) (go : State) =>
      s.awlLocal n (h.xr l.toNat) true (if h.bad (h.xr l.toNat) 64 then s.awlPoison n 7 (h.xr l.toNat) else go)
    s.awlAccess n (h.xr a.toNat) 64 true (fun s => out s (s.awlStored n)) (fun s ps =>
      out s (s.awlStore n ps (h.localBytes (h.xr l.toNat) 64)))))

/-! ## Sends and counters -/

/-- A send lies in the port's range (R429, R434). -/
def Awl.ownsSend (a : Awl) (e : Nat) : Bool := decide (a.rangeBase ≤ e) && decide (e < a.rangeBase + a.rangeCount) && decide (e ≤ 8191)

/-- A counter is the port's (R435). -/
def State.ownsCtr (s : State) (n c : Nat) : Bool := decide (c < 4096) && (s.ctr c).owner == n

/-- A send as its image gives it (R416): FIRED, DONE and ERR 0. -/
def sendOf (img : List Byte) : Send :=
  let ctl := natOf ((img.drop 2).take 1)
  { image := img, arm := bit ctl 0, credit := bit ctl 1 }

/-- The image checks of R434 for status 3. -/
def State.imageOk (s : State) (n : Nat) (x : Send) : Bool :=
  let ctl := x.field 2 1
  let c := s.ctr x.counter
  ctl / 32 == 0 && x.field 0x1E 2 == 0 && x.field 0x30 8 == 0 && x.field 0x38 8 == 0
    && x.owner == n && decide (x.counter < 4096) && c.owner == n && c.job == x.job
    && x.src % 16 == 0 && decide (16 ≤ x.length) && decide (x.length ≤ 1048576) && x.length % 16 == 0
    && (if x.credit then x.dbar % 16 == 0 else x.dbar == 0)

/-- Write a triggered send from a local image (R434): the status, and the state after it. -/
def State.writeSend (s : State) (n e : Nat) (img : List Byte) : State × Nat :=
  let old := s.send e
  let x := sendOf img
  if old.fired && !old.done then (s, 1)
  else if !s.imageOk n x then (s, 3)
  else if !s.sendAllowed n x.dpkg then (s, 2)
  else
    let s := s.updSend e (fun _ => x)
    (if s.sendDue e then s.fireSend e else s, 0)

def execAwlTswr (e : BitVec 5) (i : BitVec 5) (d : BitVec 5) (s : State) : Host.Outcome State Fault Refusal :=
  .next (s.asAwl (fun s n h =>
    let at' := h.xr i.toNat
    if at' % 64 != 0 then s.awlTrap n 4 at'
    else if !h.ownsSend (h.xr e.toNat) then s.awlTrap n 7 (h.xr e.toNat)
    else if localSize < at' + 64 then s.awlTrap n 5 at'
    else if h.bad at' 64 then s.awlPoison n 5 at'
    else
      let r := s.writeSend n (h.xr e.toNat) (h.localBytes at' 64)
      r.1.updAwl n (fun h => (h.setX d.toNat r.2).retire 4)))

def execAwlTsrd (e : BitVec 5) (d : BitVec 5) (s : State) : Host.Outcome State Fault Refusal :=
  .next (s.asAwl (fun s n h =>
    if !h.ownsSend (h.xr e.toNat) then s.awlTrap n 5 (h.xr e.toNat)
    else s.updAwl n (fun h => (h.setX d.toNat (s.send (h.xr e.toNat)).ctl).retire 4)))

def execAwlRcrd (c : BitVec 5) (d : BitVec 5) (s : State) : Host.Outcome State Fault Refusal :=
  .next (s.asAwl (fun s n h =>
    if !s.ownsCtr n (h.xr c.toNat) then s.awlTrap n 5 (h.xr c.toNat)
    else s.updAwl n (fun h => (h.setX d.toNat (s.ctr (h.xr c.toNat)).val.toNat).retire 4)))

def execAwlRcwr (v : BitVec 5) (c : BitVec 5) (s : State) : Host.Outcome State Fault Refusal :=
  .next (s.asAwl (fun s n h =>
    if !s.ownsCtr n (h.xr c.toNat) then s.awlTrap n 7 (h.xr c.toNat)
    else (s.setCtr (h.xr c.toNat) (h.xr v.toNat)).updAwl n (fun h => h.retire 4)))

def execAwlRcadd (v : BitVec 5) (c : BitVec 5) (s : State) : Host.Outcome State Fault Refusal :=
  .next (s.asAwl (fun s n h =>
    if !s.ownsCtr n (h.xr c.toNat) then s.awlTrap n 7 (h.xr c.toNat)
    else (s.setCtr (h.xr c.toNat) ((s.ctr (h.xr c.toNat)).val.toNat + h.xr v.toNat)).updAwl n (fun h => h.retire 4)))

/-- Events that are pending and in a mask are returned and cleared (R436). -/
def Awl.takeEvents (a : Awl) (m d : Nat) : Awl :=
  (({ a with pend := Nat.land a.pend (31 - m), waiting := .no } : Awl).setX d (Nat.land a.pend m)).retire 4

def execAwlWaitev (m : BitVec 5) (d : BitVec 5) (s : State) : Host.Outcome State Fault Refusal :=
  .next (s.asAwl (fun s n h =>
    let mask := h.xr m.toNat % 32
    if mask = 0 then s.updAwl n (fun h => { h with waiting := .halt d.toNat false })
    else if Nat.land h.pend mask != 0 then s.updAwl n (fun h => h.takeEvents mask d.toNat)
    else s.updAwl n (fun h => { h with waiting := .events mask d.toNat })))

/-- AWL_WAITEV_WAKE (R436): a waiting awl.waitev returns when a masked event is pending. -/
def State.waitevWake (s : State) (n : Nat) : State :=
  match (s.awl n).waiting with
  | .events m d => if Nat.land (s.awl n).pend m != 0 then s.updAwl n (fun a => a.takeEvents m d) else s
  | _ => s

def execAwlWaitevWake (s : State) : Host.Outcome State Fault Refusal := .next (s.waitevWake s.arg.a)

/-! ## Registers that system software writes -/

/-- What measurement 5 covers (R455): for every Awl with a loaded image, the image and its bounds. -/
def State.measure5 (s : State) : List Byte :=
  s.awls.flatMap (fun p =>
    if p.2.image.isEmpty then []
    else bytesOf 8 p.1 ++ p.2.image ++ ([0x18, 0x20, 0x28, 0x40] ++ (upFrom 0 8).map (fun w => 0x80 + 8 * w)).flatMap (fun o => bytesOf 8 (p.2.reg false o)))

/-- Clear every key slot (R457). -/
def State.clearKeys (s : State) : State := s.sad.keys.keys.foldl State.clearKey s

/-- A change of an Awl, with what a change to measurement 5 entails (R457). -/
def State.changeAwl (s : State) (n : Nat) (f : Awl → Awl) : State :=
  let t := s.updAwl n f
  if t.measure5 = s.measure5 then t else t.clearKeys

/-- AWL_RUN (R429, R436): RUN set or cleared; awl.waitev with mask 0 returns when RUN goes from 0 back to 1. -/
def State.awlRun (s : State) (n v : Nat) : State :=
  s.updAwl n (fun a =>
    let on := v % 2 == 1
    let a := { a with run := on }
    match a.waiting with
    | .halt d stopped =>
      if !on then { a with waiting := .halt d true }
      else if stopped then (({ a with waiting := .no } : Awl).setX d 0).retire 4
      else a
    | _ => a)

def execAwlRun (s : State) : Host.Outcome State Fault Refusal := .next (s.awlRun s.arg.a s.arg.b)

/-- The hart after a load or RESET (R444); pc := ENTRY. -/
def Awl.resetHart (a : Awl) (n pkg : Nat) : Awl :=
  { a with
    x := [(2, 0x40000), (10, BitVec.ofNat 64 n), (11, BitVec.ofNat 64 pkg)].foldl (fun (t : Tab DWord) p => t.set 0 p.1 p.2) []
    pc := BitVec.ofNat 64 a.entry
    mtvec := 0, mepc := 0, mcause := 0, mtval := 0, mscratch := 0, mie := false, mpie := false, vs := 0
    vec := {}, reserved := none, fault := false, cause := 0, waiting := .no, wait := none, access := .none, pend := 0 }

/-- AWL_RESET (R429, R444): while RUN = 0, the hart is reset, LOCK is cleared, and the sends of the range that have not fired
are disarmed. -/
def State.awlReset (s : State) (n : Nat) : State :=
  let a := s.awl n
  if a.run then s
  else
    let s := s.changeAwl n (fun a => { a.resetHart n s.pkg with lock := false })
    s.updSad (fun d => { d with sends := d.sends.map (fun (p : Nat × Send) =>
      (p.1, if a.ownsSend p.1 && !p.2.fired then { p.2 with arm := false } else p.2)) })

def execAwlReset (s : State) : Host.Outcome State Fault Refusal := .next (s.awlReset s.arg.a)

/-- AWL_LOAD_GO (R429, R464): ADDR is written; GO begins a load while RUN = 0 and no load is in progress, if Awl firmware is
an acknowledged feature. -/
def State.awlLoadGo (s : State) (n v : Nat) : State :=
  s.updAwl n (fun a =>
    let a := { a with loadAddr := bits v 51 6 * 64 }
    if bit v 0 && !a.run && a.loadStatus != 1 && s.feature 8 then { a with loadStatus := 1 } else a)

def execAwlLoadGo (s : State) : Host.Outcome State Fault Refusal := .next (s.awlLoadGo s.arg.a s.arg.b)

/-- Bytes of physical memory as an engine at system scope reads them (R443). -/
def State.physBytes (s : State) (a n : Nat) : List Byte := (s.readPieces (s.physPieces a n)).2.map (·.1)

/-- An image in the layout of R442. -/
structure Image where
  head : List Byte
  payload : List Byte
  sigRsa : List Byte
  sigSlh : List Byte

/-- A field of an image's header. -/
def Image.field (x : Image) (o n : Nat) : Nat := natOf ((x.head.drop o).take n)
def Image.loadAddr (x : Image) : Nat := x.field 0x08 4
def Image.codeSize (x : Image) : Nat := x.field 0x0C 4
def Image.zeroSize (x : Image) : Nat := x.field 0x10 4
def Image.entry (x : Image) : Nat := x.field 0x14 4
def Image.secVer (x : Image) : Nat := x.field 0x18 8

/-- Cut an image out of bytes (R442). -/
def imageOf (bs : List Byte) : Image :=
  let code := natOf ((bs.drop 0x0C).take 4)
  { head := bs.take 0x80, payload := (bs.drop 0x80).take code, sigRsa := (bs.drop (0x80 + code)).take 384,
    sigSlh := (bs.drop (0x200 + code)).take 16224 }

/-- The header is as R442 gives it, for a kind's MAGIC and FLAGS. -/
def Image.headOk (x : Image) (magic flags : Nat) : Bool :=
  x.field 0 4 == magic && x.field 4 2 == 1 && x.field 6 2 == flags && (x.head.drop 0x50).all (fun b => b == 0)
    && x.loadAddr % 64 == 0 && x.codeSize % 8 == 0 && decide (8 ≤ x.codeSize) && x.zeroSize % 8 == 0 && x.entry % 2 == 0

/-- DIGEST and both signatures verify, with the keys fused for the image's kind (R453). -/
def Image.verifies (x : Image) (rsa slh : BitVec 384) : Bool :=
  let signed := x.head ++ x.payload
  natOf ((x.head.drop 0x20).take 48) == (Config.sha384 (x.head.take 0x20 ++ x.payload)).toNat
    && Config.verify rsa signed x.sigRsa && Config.verify slh signed x.sigSlh

/-- The checks of R443, in order: the STATUS of a load. -/
def State.loadCheck (s : State) (n : Nat) (x : Image) : Nat :=
  if !x.headOk 0x4C574154 0 then 3
  else if localSize < x.loadAddr + x.codeSize + x.zeroSize then 5
  else if x.secVer < (s.awl n).minVer.toNat then 6
  else if !x.verifies (s.host.fuses.rsa.getD 2 0) (s.host.fuses.slh.getD 2 0) then 4
  else 2

/-- AWL_LOAD_COMPLETE (R443): the checks; local memory is written and the hart reset. -/
def State.awlLoaded (s : State) (n : Nat) : State :=
  let a := s.awl n
  if a.loadStatus != 1 then s
  else
    let head := imageOf (s.physBytes a.loadAddr 0x80)
    let whole := if head.headOk 0x4C574154 0 && decide (head.codeSize ≤ localSize) then s.physBytes a.loadAddr (0x200 + head.codeSize + 16224) else []
    let x := if whole.isEmpty then head else imageOf whole
    let st := s.loadCheck n x
    let s := s.drawn
    if st != 2 then s.updAwl n (fun a => { a with loadStatus := st })
    else s.changeAwl n (fun a => { ({ a with entry := x.entry } : Awl).resetHart n s.pkg with
      mem := writeCells [] x.loadAddr x.payload, stale := [], ecc := [], image := x.head ++ x.payload, loadStatus := 2 })

def execAwlLoadComplete (s : State) : Host.Outcome State Fault Refusal := .next (s.awlLoaded s.arg.a)

/-- AWL_CTX_LOCK (R429): a write of AWLn_CTX; while LOCK is 0 CONTEXT takes the value, and a write of 1 sets LOCK. -/
def State.awlCtxWrite (s : State) (n v : Nat) : State :=
  s.changeAwl n (fun a => { a with ctx := if a.lock then a.ctx else v % 4096, lock := a.lock || bit v 12 })

def execAwlCtxLock (s : State) : Host.Outcome State Fault Refusal := .next (s.awlCtxWrite s.arg.a s.arg.b)

/-- AWL_DOORBELL (R429): the value is stored and the DOORBELL event set. -/
def State.awlDoorbell (s : State) (n v : Nat) : State := (s.updAwl n (fun a => { a with doorbell := BitVec.ofNat 64 v })).awlEvent n 2

def execAwlDoorbell (s : State) : Host.Outcome State Fault Refusal := .next (s.awlDoorbell s.arg.a s.arg.b)

/-- AWL_TIMER_EXPIRY (R429): the timer goes from 1 to 0 and sets the TIMER event. -/
def State.awlTimer (s : State) (n : Nat) : State :=
  if (s.awl n).timer = 1 then (s.updAwl n (fun a => { a with timer := 0 })).awlEvent n 3 else s

def execAwlTimerExpiry (s : State) : Host.Outcome State Fault Refusal := .next (s.awlTimer s.arg.a)

/-- A write of an Awl register through the window (R429, R450): locked fields while LOCK is 0, SECVER by management firmware. -/
def State.awlRegWrite (s : State) (mgmt : Bool) (n off v : Nat) : State :=
  let unlocked := fun (f : Awl → Awl) => if (s.awl n).lock then s else s.changeAwl n f
  match off with
  | 0x00 => (if bit v 1 then s.awlReset n else s).awlRun n v
  | 0x10 => s.awlLoadGo n v
  | 0x18 => s.awlCtxWrite n v
  | 0x20 => unlocked (fun a => { a with rate := v % 2 ^ 32 })
  | 0x28 => unlocked (fun a => { a with rangeBase := bits v 12 0, rangeCount := bits v 29 16 })
  | 0x30 => s.awlDoorbell n v
  | 0x38 => s.updAwl n (fun a => { a with timer := v % 2 ^ 32 })
  | 0x40 => unlocked (fun a => { a with egress := v % 2 ^ 22 })
  | 0x48 => if mgmt then s.updAwl n (fun a => { a with minVer := BitVec.ofNat 64 v }) else s
  | _ =>
    if 0x80 ≤ off && off < 0xC0 && off % 8 = 0 then unlocked (fun a => { a with allow := a.allow.set 0 ((off - 0x80) / 8) (BitVec.ofNat 64 v) })
    else s

end Sys2Proof.Machine
end

