-- ==== Sys2Proof/Machine/SchedInstr.lean ====
section
/-! DEFINITION. The SCHED class (R386 to R390): SPAWN, STEP, YIELD, DIEQ, HOPS, with the virtual die table (R367), the
queues (R357), event counters (R364) and the step boundaries of elastic launches (R380). -/

namespace Sys2Proof.Machine

/-! ## The virtual die table -/

/-- CTX_VDIE_CORESv; 0xF_FFFF at reset (R391). -/
def Ctx.coresOf (k : Ctx) (v : Nat) : Nat := k.vdieCores.get 0xFFFFF v

/-- A virtual die entry is valid and allows a core (R367). -/
def Ctx.dieValid (k : Ctx) (v : Nat) : Bool := bit (k.vdieMap.get 0 v) 3 && k.coresOf v != 0

/-- Valid entries from v up, at most n. -/
def Ctx.diesFrom (k : Ctx) (v : Nat) : Nat → Nat
  | 0 => 0
  | n + 1 => if k.dieValid v then k.diesFrom (v + 1) n + 1 else 0

/-- The context's die count (R367). -/
def Ctx.dieCount (k : Ctx) : Nat := k.diesFrom 0 8

/-- Physical die of a virtual die (R391). -/
def Ctx.phys (k : Ctx) (v : Nat) : Nat := k.vdieMap.get 0 v % 8

/-- Hops between two physical compute dies (R15). -/
def hopsOf (a b : Nat) : Nat :=
  if a = b then 0 else if baseOf a = baseOf b then 1 else if baseOf a + baseOf b = 3 then 3 else 2

/-- CTX_VDIE_MAPv (R391): a write that names a harvested die is ignored. -/
def State.vdieMapWrite (s : State) (c v x : Nat) : State :=
  if s.hdie = some (x % 8) then s else s.updCtx c (fun k => { k with vdieMap := k.vdieMap.set 0 v (x % 16) })

def execCtxVdieMapWrite (s : State) : Host.Outcome State Fault Refusal := .next (s.vdieMapWrite s.arg.a s.arg.b s.arg.c)

/-! ## Queues -/

/-- The registers of a queue. -/
def State.queueRegs (s : State) (c q : Nat) : QueueRegs := (s.ctx c).queues.get {} q
def State.updQueue (s : State) (c q : Nat) (f : QueueRegs → QueueRegs) : State :=
  s.updCtx c (fun k => { k with queues := k.queues.put q (f (k.queues.get {} q)) })

/-- Slots of a queue (R357, R391). -/
def QueueRegs.slots (r : QueueRegs) : Nat := 2 ^ min (bits r.cfg 11 8) 12

/-- Virtual address of the slot of launch n. -/
def QueueRegs.slotAt (r : QueueRegs) (n : Nat) : Nat := bits r.cfg 51 12 * 2 ^ 12 + 256 * (n % r.slots)

/-- Distance of two free-running indices. -/
def ahead (a b : Nat) : Nat := (a + 2 ^ 32 - b) % 2 ^ 32

/-- The queue is full (R357). -/
def QueueRegs.full (r : QueueRegs) : Bool := decide (r.slots ≤ ahead r.write r.done)

/-- The live launch of a slot of a queue. -/
def State.launchAt (s : State) (c q n : Nat) : Option (Nat × Launch) :=
  s.launches.find? (fun p => p.2.ctx == c && p.2.queue == q && p.2.slot == n)

/-- DONE advances past launches that have ended (R360). -/
def State.advanceDone (s : State) (c q : Nat) : Nat → State
  | 0 => s
  | n + 1 =>
    let r := s.queueRegs c q
    if r.done = r.disp || (s.launchAt c q r.done).isSome then s
    else (s.updQueue c q (fun r => { r with done := (r.done + 1) % 2 ^ 32 })).advanceDone c q n

/-- The scheduler processes a queue: it and its context are enabled (R360). -/
def State.processed (s : State) (c q : Nat) : Bool := (s.ctx c).schedEn && bit (s.queueRegs c q).cfg 0

/-- DONE advances as far as it can, on a queue that is processed (R360). -/
def State.doneAhead (s : State) (c q : Nat) : State :=
  let r := s.queueRegs c q
  if s.processed c q then s.advanceDone c q (ahead r.disp r.done) else s

/-- CTX_Qq_WRITE (R359): a write that would move WRITE backward, or beyond DONE + 2^LOG2N, is ignored; DONE advances first
(R385). -/
def State.queueWrite (s : State) (c q v : Nat) : State :=
  let s := s.doneAhead c q
  let r := s.queueRegs c q
  if ahead r.write r.done ≤ ahead (v % 2 ^ 32) r.done && ahead (v % 2 ^ 32) r.done ≤ r.slots then
    s.updQueue c q (fun r => { r with write := v % 2 ^ 32 })
  else s

def execQueueWrite (s : State) : Host.Outcome State Fault Refusal := .next (s.queueWrite s.arg.a s.arg.b s.arg.c)

/-! ## SCHED instructions -/

/-- A SCHED instruction (R386). -/
def sched (f : FmtA) (s : State) (regs : List (Nat × Nat)) (body : Env → State → Res) : State :=
  s.issue f.msel.toNat f.pclass.toNat 6 false (fun e => if e.lead then [] else regs) (fun _ => true) body

/-- Write a result to the destination of every agent: an s register, or a group of n lane registers. -/
def State.putResult (s : State) (e : Env) (dst n : Nat) (val : Nat → Nat) : State :=
  if e.lead then s.setS e.tid dst (val 0) else s.setV e.tid (e.act.map (fun th => (th, groupWrites dst n (val th))))

/-- Every access that some threads of a team have made before operation `id` is complete (R387). -/
def State.agentsQuiet (s : State) (tid id : Nat) (ths : List Nat) : Bool :=
  s.ops.all (fun p => p.2.tid != tid || decide (id ≤ p.1) || !p.2.kind.touches || p.2.lanes.all (fun a => !ths.contains a.thread || a.phase == .done))

/-- Bytes of a slot that a failed SPAWN leaves (R387): undefined values. -/
def State.freeBytes (s : State) (n : Nat) : List Byte :=
  (upFrom 0 n).map (fun i => BitVec.ofNat 8 ((Config.freeWord (s.free + i / 8)).toNat / 256 ^ (i % 8)))

/-- A slot holds poison, in the lines of it that can be written. -/
def State.slotPoisoned (s : State) (c slot : Nat) : Bool :=
  (lineParts slot 256).any (fun p => match s.engineXlat c p.1 p.2 true with
    | .ok (h, a) => ((s.recall h a p.2).enginePoison h a p.2).any id
    | .error _ => false)

/-- A failed SPAWN leaves undefined bytes in the slot (R387), where it lies in a page that is no window. -/
def State.spoilSlot (s : State) (c slot : Nat) : State :=
  (lineParts slot 256).foldl (fun (s : State) p => match s.walk c p.1 with
    | .ok l =>
      if l.alias_ != 0 || s.shut l then s
      else
        let h := s.place l p.1
        { s.enginePut h.1 h.2 (s.freeBytes p.2) with free := s.free + 32 }
    | _ => s) s

/-- SPAWN once its party's accesses are complete (R387): the new state and the status. -/
def State.spawnAt (s : State) (c a q : Nat) : State × Nat :=
  let r := s.queueRegs c q
  if 63 < q || !bit r.cfg 0 || !bit r.cfg 1 then (s, 2)
  else
    let s := s.doneAhead c q
    let r := s.queueRegs c q
    if r.full then (s, 1)
    else match s.engineRead c a 256 with
      | .error _ => (s, 3)
      | .ok bs =>
        let s := s.engineTouch c a 256
        let slot := r.slotAt r.write
        match s.engineWrite c slot (bs.take 0xF8 ++ bytesOf 8 0) with
        | .ok s' =>
          if s.slotPoisoned c slot then (s.spoilSlot c slot, 3)
          else (s'.updQueue c q (fun r => { r with write := (r.write + 1) % 2 ^ 32 }), 0)
        | .error _ => (s.spoilSlot c slot, 3)

/-- SPAWN (R387): the checks; it takes effect at once where every earlier access of the party is complete, and else parks until they
are (R386). -/
def execSpawn (f : FmtA) (s : State) : Host.Outcome State Fault Refusal :=
  .next (sched f s [(f.a.toNat, if f.za then 0 else 2), (f.b.toNat, if f.zb then 0 else 1), (f.dst.toNat, 1)] (fun e s =>
    if !e.lead && e.act.isEmpty then .done s
    else
      let a := e.pair f.za f.a.toNat
      let q := e.single f.zb f.b.toNat
      match (e.uniform 1 a).orElse (fun _ => e.uniform 2 q) with
      | some r => .fault r
      | none =>
        let th := e.act.headD 0
        let lanes := if e.lead then 0 else e.t.laneMask e.act
        if a th % 16 != 0 then .fault { code := 0x07, lanes := lanes, addr := a th }
        else if s.replayable e.t then .fault { code := 0x10, lanes := lanes, addr := a th }
        else if !s.agentsQuiet e.tid s.nextId (if e.lead then [leadThread] else e.all) then handOver e s .spawn f.dst.toNat [a th, q th]
        else
          let r := s.spawnAt e.t.ctx (a th) (q th)
          .done (r.1.putResult e f.dst.toNat 1 (fun _ => r.2))))

/-- A parked SPAWN whose party's accesses are complete takes effect (R386, R387), after those that reached the scheduler before it
(R385). -/
def State.spawnDone (s : State) (id : Nat) : State :=
  match s.liveOp id with
  | none => s
  | some o => match s.teams.look o.tid with
    | none => s
    | some t =>
      let party := if o.fid.isNone then [leadThread] else o.party
      if o.kind != .spawn || !s.agentsQuiet o.tid id party then s
      else
        let r := s.spawnAt t.ctx (o.args.getD 0 0) (o.args.getD 1 0)
        let s := if o.fid.isNone then r.1.setS o.tid o.data r.2 else r.1.setV o.tid (o.lanes.map (fun a => (a.thread, [(o.data, r.2)])))
        (s.unpark id).endOp id

/-- CLAUSE_RESUME of a party: a suspended clause, or a SPAWN that waits (R63, R386). -/
def execClauseResume (s : State) : Host.Outcome State Fault Refusal :=
  .next (match s.blockedBy s.arg.a s.arg.opt with
    | some (.access id) => s.spawnDone id
    | _ => s.clauseResume s.arg.a s.arg.opt)

/-- The launch of a team. -/
def State.launchOf (s : State) (t : Team) : Launch :=
  s.launches.get { ctx := t.ctx, queue := 0, slot := 0, image := [], ident := 0 } t.launch

/-- The result of STEP (R388). -/
def State.stepValue (s : State) (t : Team) : Nat :=
  let l := s.launchOf t
  (if t.withdrawn then 0xFFFFFFFF else t.number) + l.dies % 2 ^ 16 * 2 ^ 32
    + (if l.elastic then l.boundaries % 2 ^ 16 * 2 ^ 48 else 0)

/-- STEP (R388): .PEEK, a launch that is not elastic and a withdrawn team return at once; else the lead thread arrives and
waits, and a lane-stream STEP waits for the count of its home warps. -/
def execStep (f : FmtA) (s : State) : Host.Outcome State Fault Refusal :=
  .next (sched f s [(f.dst.toNat, 2)] (fun e s =>
    if !e.lead && e.act.isEmpty then .done s
    else
      let now := fun (s : State) => Res.done (s.putResult e f.dst.toNat 2 (fun _ => s.stepValue e.t))
      let l := s.launchOf e.t
      if f.md.toNat % 2 = 1 || !l.elastic || e.t.withdrawn then now s
      else if e.lead then
        let k := e.t.arrived + 1
        let s := (s.updTeam e.tid (fun t => { t with arrived := k })).boundaryDue e.t
        handOver e s .step f.dst.toNat [k]
      else
        let s := e.hws.foldl (fun s h => s.updHw e.tid h (fun w => { w with steps := w.steps + 1 })) s
        let k := e.hws.foldl (fun m h => max m ((e.t.warps.get {} h).steps + 1)) 0
        if k ≤ l.boundaries then now s else handOver e s .step f.dst.toNat [k]))

/-- YIELD (R389): the quantum expires in the next clock. -/
def execYield (f : FmtA) (s : State) : Host.Outcome State Fault Refusal :=
  .next (sched f s [] (fun e s =>
    if !e.lead && e.act.isEmpty then .done s
    else .done (s.updTeam e.tid (fun t => if t.expired then t else { t with quantum := min t.quantum 1 }))))

/-- DIEQ (R390). -/
def execDieq (f : FmtA) (s : State) : Host.Outcome State Fault Refusal :=
  .next (sched f s [(f.a.toNat, if f.za then 0 else 1), (f.dst.toNat, 1)] (fun e s =>
    let k := s.ctx e.t.ctx
    .done (s.putResult e f.dst.toNat 1 (fun th => match f.md.toNat % 4 with
      | 0 => (s.launchOf e.t).dies
      | 1 => k.dieCount
      | _ =>
        let v := e.single f.za f.a.toNat th
        if v < k.dieCount then popcount (k.coresOf v) 20 else 0))))

/-- HOPS (R390). -/
def execHops (f : FmtA) (s : State) : Host.Outcome State Fault Refusal :=
  .next (sched f s [(f.a.toNat, if f.za then 0 else 1), (f.b.toNat, if f.zb then 0 else 1), (f.dst.toNat, 1)] (fun e s =>
    let k := s.ctx e.t.ctx
    .done (s.putResult e f.dst.toNat 1 (fun th =>
      let a := e.single f.za f.a.toNat th
      let b := e.single f.zb f.b.toNat th
      if a < k.dieCount && b < k.dieCount then hopsOf (k.phys a) (k.phys b) else 0xFFFFFFFF))))

/-! ## Step boundaries -/

/-- sat(TARGET, MINDIES, MAXDIES), at most the context's die count (R380). -/
def State.targetDies (s : State) (l : Launch) : Nat :=
  min (satInt ((s.ctx l.ctx).target : Int) l.minDies l.maxDies).toNat (s.ctx l.ctx).dieCount

/-- Every thread has exited and the lead thread has ended (R97). -/
def Team.finished (t : Team) : Bool := t.lead.run == .ended && t.threads.vals.all (fun th => !th.live)

/-- The first gang whose first team lies on virtual die v (R368). -/
def Launch.firstGang (l : Launch) (v : Nat) : Nat :=
  let g := max l.gang 1
  let t := if l.elastic then v * l.teamCount else (v * l.teams + l.dies - 1) / l.dies
  (t + g - 1) / g

/-- The next gang to dispatch on a virtual die, and the end of its gangs. -/
def Launch.nextGang (l : Launch) (v : Nat) : Nat := (l.next.look v).getD (l.firstGang v)
def Launch.moreOn (l : Launch) (v : Nat) : Bool := decide (v < l.dies) && decide (l.nextGang v < l.firstGang (v + 1))

/-- Every team has been dispatched or skipped. -/
def Launch.allSent (l : Launch) : Bool := l.counted && (upFrom 0 l.dies).all (fun v => !l.moreOn v)

/-- Write LAUNCH, STATE and REPLAYS into the launch's slot (R361). -/
def State.markLaunch (s : State) (lid state : Nat) : State :=
  match s.launches.look lid with
  | none => s
  | some l =>
    let s := s.updLaunch lid (fun l => { l with state := state })
    match s.engineWrite l.ctx ((s.queueRegs l.ctx l.queue).slotAt l.slot + 0xF8) (bytesOf 4 l.ident ++ bytesOf 1 state ++ bytesOf 1 l.replays) with
    | .ok s => s
    | .error _ => s

/-- A parked STEP whose count the boundaries have reached ends (R388). -/
def State.endSteps (s : State) (lid : Nat) : State :=
  s.ops.foldl (fun s p => match s.teams.look p.2.tid with
    | none => s
    | some t =>
      if p.2.kind == .step && t.launch == lid && (decide (p.2.args.getD 0 0 ≤ (s.launchOf t).boundaries) || t.withdrawn) then
        let v := s.stepValue t
        let s := if p.2.fid.isNone then s.setS p.2.tid p.2.data v
          else s.setV p.2.tid (p.2.lanes.map (fun a => (a.thread, pairWrites p.2.data v)))
        (s.unpark p.1).endOp p.1
      else s) s

/-- STEP_BOUNDARY_COMPLETE (R380): every team that has not exited or been withdrawn has arrived; dies are added or
withdrawn, and every party parked on the boundary goes on. -/
def State.stepBoundary (s : State) (lid : Nat) : State :=
  match s.launches.look lid with
  | none => s
  | some l =>
    let k := l.boundaries + 1
    let live := s.teams.filter (fun p => p.2.launch == lid && !p.2.withdrawn && !p.2.finished)
    if !l.elastic || l.killing.isSome || !l.allSent || live.isEmpty || !live.all (fun p => decide (k ≤ p.2.arrived)) then s
    else
      let d := s.targetDies l
      let s := s.updLaunch lid (fun l => { l with boundaries := k, dies := d, teams := l.teamCount * d })
      let s : State := if l.dies < d then
          (s.updLaunch lid (fun x => { x with
            floor := l.teamCount * l.dies
            next := (upFrom (l.dies + 1) (d - l.dies - 1)).foldl (fun m v => m.del v) (x.next.put l.dies (l.teamCount * l.dies / max l.gang 1)) })).markLaunch lid 2
        else { s with teams := s.teams.map (fun p =>
            (p.1, if p.2.launch = lid && l.teamCount * d ≤ p.2.number then { p.2 with withdrawn := true } else p.2)) }
      s.endSteps lid

def execStepBoundaryComplete (s : State) : Host.Outcome State Fault Refusal := .next (s.stepBoundary s.arg.a)

end Sys2Proof.Machine
end

