-- ==== Sys2Proof/Machine/Sched.lean ====
section
/-! DEFINITION. The work scheduler: acceptance and readiness of launches (R357 to R364), virtual dies and placement (R367 to
R371), tile lists (R365, R366) and dispatch (R96, R370). -/

namespace Sys2Proof.Machine

/-! ## Acceptance -/

/-- Register entries of a home warp, home warps and scratchpad shares that a launch's team needs (R131, R369). -/
structure Needs where
  entries : Nat
  warps : Nat
  /-- Home warps and scratchpad bytes on the lower core, and on the partner of a pair. -/
  lowWarps : Nat
  low : Nat
  high : Nat
  paired : Bool
  deriving DecidableEq, Repr

/-- Cluster memory that each core of a cluster lends (R369). -/
def lendOf (cluster : Nat) : Nat :=
  if cluster = 0 then 0 else if cluster ≤ 2 ^ 18 then 2 ^ 16 else if cluster ≤ 2 ^ 19 then 2 ^ 17 else 2 ^ 18

/-- What a team needs, by its dimensions. -/
def needsOf (width nregs size scratch priv : Nat) : Needs :=
  let paired := decide (1024 < size)
  let low := min size 1024
  { entries := width * nregs, warps := size / max width 1, lowWarps := low / max width 1, paired := paired
    low := (if paired then min scratch 524288 else scratch) + low * priv
    high := if paired then (scratch - 524288) + (size - 1024) * priv else 0 }
def Launch.needs (l : Launch) : Needs := needsOf l.width l.nregs l.teamSize l.scratch l.priv

/-- What is in use on a core: the slots of the teams that have their lead thread there, the number of slots that the partners' pair teams
take, register entries and home warps of each quarter, scratchpad bytes. -/
structure Load where
  slots : List Nat := []
  guests : Nat := 0
  entries : List Nat := [0, 0, 0, 0]
  warps : List Nat := [0, 0, 0, 0]
  bytes : Nat := 0
  deriving DecidableEq, Repr

/-- A home warp enters a quarter of a load. -/
def Load.add (x : Load) (q entries : Nat) : Load :=
  { x with entries := x.entries.set q (x.entries.getD q 0 + entries), warps := x.warps.set q (x.warps.getD q 0 + 1) }

/-- The quarter that R369 gives a home warp: the most free entries, the lowest on a tie, within the limits of R131. -/
def Load.pick (x : Load) (entries : Nat) : Option Nat :=
  ([0, 1, 2, 3].filter (fun q => decide (x.entries.getD q 0 + entries ≤ 65536) && decide (x.warps.getD q 0 < 16))).foldl
    (fun m q => match m with
      | none => some q
      | some p => if x.entries.getD q 0 < x.entries.getD p 0 then some q else some p) none

/-- Assign n home warps: their quarters, or none. -/
def Load.assign (x : Load) (entries : Nat) : Nat → Option (List Nat)
  | 0 => some []
  | n + 1 => match x.pick entries with
    | none => none
    | some q => ((x.add q entries).assign entries n).map (fun l => q :: l)

/-- A slot of the core is free, out of 16 (R95, R369). -/
def Load.room (x : Load) : Bool := decide (x.slots.length + x.guests < 16)

/-- A team fits on an empty core or pair (R363 cause 5). -/
def Needs.fitsEmpty (n : Needs) (lend : Nat) : Bool :=
  (({} : Load).assign n.entries n.lowWarps).isSome && (({} : Load).assign n.entries (n.warps - n.lowWarps)).isSome
    && decide (n.low + lend ≤ 524288) && decide (n.high + lend ≤ 524288)

/-- A live replayable launch of a context (R347, R363). -/
def State.liveReplays (s : State) (c : Nat) : Nat := (s.launches.filter (fun p => p.2.ctx == c && p.2.replay)).length

/-- The cause for which a record is invalid (R363), causes 1 to 9. -/
def State.invalidCause (s : State) (l : Launch) : Option Nat :=
  let usedInputs := (upFrom 0 4).map l.input |>.filter (fun x => x != (0, 0, 0))
  let c1 := bits (l.field 0 1) 7 4 != 0 || bits l.waitEn 7 4 != 0 || bits (l.field 0x4C 1) 7 1 != 0 || l.field 0x4E 2 != 0 || l.field 0xFE 2 != 0
    || (upFrom 0 8).any (fun i => bits (l.wreg i) 62 52 != 0) || l.field 0xF8 6 != 0
  let c2 := !(l.width == 16 || l.width == 32 || l.width == 64) || l.nregs == 0 || decide (512 < l.nregs) || decide (65536 < l.width * l.nregs)
  let c3 := l.teamSize == 0 || l.teamSize % max l.width 1 != 0 || decide (2048 < l.teamSize)
  let c4 := !(l.gang == 1 || l.gang == 2 || l.gang == 4) || (l.gang == 4 && decide (1024 < l.teamSize))
  let c5 := l.scratch % 128 != 0 || decide ((if 1024 < l.teamSize then 1048576 else 524288) < l.scratch) || l.priv % 16 != 0 || decide (4096 < l.priv)
    || l.cluster % 1024 != 0 || decide (1048576 < l.cluster) || !l.needs.fitsEmpty (lendOf l.cluster)
  let c6 := l.minDies == 0 || decide (l.maxDies < l.minDies) || decide ((s.ctx l.ctx).dieCount < l.minDies)
  let c7 := (!l.listed && l.teamCount == 0) || (l.listed && (l.teamCount != 0 || l.list == 0)) || (l.listed && l.elastic) || (l.elastic && !s.feature 5)
  let c8 := l.replay && (!s.feature 4 || l.nsync != 0 || l.snapAt == 0 || decide (4 ≤ s.liveReplays l.ctx))
  let c9 := decide (16 < l.nsync)
    || usedInputs.any (fun x => x.2.1 % 16 != 0 || x.2.2 % 16 != 0 || decide (x.2.1 < 16) || x.2.2 == 0 || decide (l.scratch < x.2.1 + x.2.2))
    || (upFrom 0 8).any (fun i => l.wreg i != 0 && bits (l.wreg i) 15 0 == 0) || l.leadPc % 8 != 0 || l.lanePc % 8 != 0
  (([c1, c2, c3, c4, c5, c6, c7, c8, c9].zipIdx).find? (fun p => p.1)).map (fun p => p.2 + 1)

/-- The sync table (R362): none if it cannot be read. -/
def State.readSync (s : State) (l : Launch) : Option (List (Bool × Nat)) :=
  if l.nsync = 0 then some []
  else match s.engineRead l.ctx l.syncAt (8 * l.nsync) with
    | .error _ => none
    | .ok bs => some ((upFrom 0 l.nsync).map (fun i =>
        let e := fieldAt bs (8 * i) 8
        (bit e 63, bits e 51 0)))

/-- An invalid record (R363): STATE 6, a record in the context's log, and DISP moves on. -/
def State.rejectLaunch (s : State) (c q slotVa cause : Nat) : State :=
  let s := s.updQueue c q (fun r => { r with disp := (r.disp + 1) % 2 ^ 32 })
  let s : State := match s.engineWrite c (slotVa + 0xFC) (bytesOf 1 6) with
    | .ok s => s
    | .error _ => s
  ((s.ctxLog c { type := 5, severity := 2, code := 0x14, engine := 11, syndrome := cause, address := slotVa }).1).doneAhead c q

/-- The launch at DISP − 1 allows the next one: all its teams dispatched, and ended if it is SERIAL (R360). -/
def State.prevAllows (s : State) (c q disp : Nat) : Bool :=
  match s.launchAt c q ((disp + 2 ^ 32 - 1) % 2 ^ 32) with
  | none => true
  | some (_, l) => l.state == 3 && !l.serial && l.killing.isNone

/-- LAUNCH_ACCEPT (R360, R363): DONE advances; the record at DISP is read, checked and accepted, or marked invalid. -/
def State.acceptLaunch (s : State) (c q : Nat) : State :=
  let k := s.ctx c
  if !s.processed c q then s
  else
    let s := s.doneAhead c q
    let r := s.queueRegs c q
    if r.disp = r.write || !s.prevAllows c q r.disp then s
    else
      let va := r.slotAt r.disp
      let w := s.schedSent c (s.enginePieces c va 256 false) false
      if w.2 = .wait then w.1
      else if w.2 = .lost then (((w.1.lostRecord 0 0).untaint (.sched c)).forget (.sched c)).rejectLaunch c q va 10
      else
      let read := w.1.engineRead c va 256
      let s := (w.1.engineTouch c va 256).forget (.sched c)
      match read with
      | .error _ => s.rejectLaunch c q va 10
      | .ok bs =>
        let l : Launch := { ctx := c, queue := q, slot := r.disp, image := bs, ident := k.nextIdent }
        match s.invalidCause l with
        | some cause => s.rejectLaunch c q va cause
        | none => match s.readSync l with
          | none => s.rejectLaunch c q va 10
          | some sync =>
            let s := s.updCtx c (fun k => { k with nextIdent := if (k.nextIdent + 1) % 2 ^ 32 = 0 then 1 else k.nextIdent + 1 })
            let s := s.updQueue c q (fun r => { r with disp := (r.disp + 1) % 2 ^ 32 })
            let lid := s.nextId
            { s with launches := s.launches.put lid { l with sync := sync }, nextId := lid + 1 }.markLaunch lid 1

def execLaunchAccept (s : State) : Host.Outcome State Fault Refusal := .next (s.acceptLaunch s.arg.a s.arg.b)

/-- LAUNCH_READY (R360): every wait that is enabled holds. -/
def State.launchReady (s : State) (lid : Nat) : State :=
  match s.launches.look lid with
  | none => s
  | some l =>
    let k := s.ctx l.ctx
    if l.state = 1 && l.killing.isNone && !l.restoring && s.processed l.ctx l.queue
        && (setBits l.waitEn 4).all (fun i => decide (l.thresh i ≤ (k.evt.get 0 (l.waitIdx i)).toNat)) then
      s.markLaunch lid 2
    else s

def execLaunchReady (s : State) : Host.Outcome State Fault Refusal := .next (s.launchReady s.arg.a)

/-! ## What is in use -/

/-- A team holds its core's resources, or only its scratchpad (R97, R381). -/
def Team.resident (t : Team) : Bool := t.place == .resident
def Team.holdsScratch (t : Team) : Bool := t.place == .resident || t.place == .retired

/-- What a resident team needs. -/
def Team.needs (t : Team) : Needs := needsOf t.width t.nregs t.size t.scratchBytes t.privBytes

/-- Bytes that a core lends to the cluster memory of gangs on its cluster, without the gangs of some teams. -/
def State.lentBy (s : State) (core : Nat) (without : List Nat) : Nat :=
  s.teams.foldl (fun m p =>
    if p.2.clusterBytes != 0 && p.2.holdsScratch && clusterOf p.2.core == clusterOf core && !without.contains p.1 then max m (lendOf p.2.clusterBytes) else m) 0

/-- What is in use on a core, without some teams. -/
def State.loadOf (s : State) (core : Nat) (without : List Nat) : Load :=
  s.teams.foldl (fun (x : Load) p =>
    let t := p.2
    let here := t.core == core
    let partner := t.paired && t.core + 1 == core
    if without.contains p.1 || !(here || partner) then x
    else
      let x := if t.holdsScratch then { x with bytes := x.bytes + (if here then t.needs.low else t.needs.high) } else x
      if !t.resident then x
      else
        let x := if here then { x with slots := t.slot :: x.slots } else { x with guests := x.guests + 1 }
        t.warps.foldl (fun x h => if (h.2.quarter < 4) = here then x.add (h.2.quarter % 4) t.needs.entries else x) x)
    { bytes := s.lentBy core without }

/-- A placement: the slot and the quarters of the home warps. -/
structure Place where
  core : Nat
  slot : Nat
  quarters : List Nat
  deriving DecidableEq, Repr

/-- A virtual die allows a core (R367), which is not on the harvested die (R2). -/
def State.allows (s : State) (c v core : Nat) : Bool :=
  let k := s.ctx c
  s.hdie != some (dieOf core) && decide (v < k.dieCount) && k.phys v == dieOf core && bit (k.coresOf v) (core % 20)

/-- Place a team on a core with some load, or a pair (R369). -/
def placeTeam (n : Needs) (core : Nat) (low high : Load) : Option Place :=
  match (upFrom 0 16).find? (fun i => !low.slots.contains i) with
  | none => none
  | some slot =>
    if 524288 < low.bytes + n.low || !low.room then none
    else match low.assign n.entries n.lowWarps with
      | none => none
      | some a =>
        if !n.paired then some { core := core, slot := slot, quarters := a }
        else if core % 2 != 0 || 524288 < high.bytes + n.high || !high.room then none
        else (high.assign n.entries (n.warps - n.lowWarps)).map (fun b =>
          { core := core, slot := slot, quarters := a ++ b.map (· + 4) })

/-- A load with a placed team, seen from its lower core or its partner. -/
def Load.with (x : Load) (n : Needs) (p : Place) (partner : Bool) : Load :=
  let x := { x with
    bytes := x.bytes + (if partner then n.high else n.low)
    slots := if partner then x.slots else p.slot :: x.slots
    guests := if partner then x.guests + 1 else x.guests }
  p.quarters.foldl (fun x q => if (q < 4) = !partner then x.add (q % 4) n.entries else x) x

/-- Every formed warp keeps its home warps on one quarter (R177, R378). -/
def Team.coherent (t : Team) (quarters : List Nat) : Bool :=
  t.formed.all (fun p => match p.2.threads with
    | [] => true
    | th :: rest => rest.all (fun u => quarters.getD (t.hwOf u) 0 == quarters.getD (t.hwOf th) 0))

/-- The quarters of a team's home warps. -/
def Team.quarters (t : Team) : List Nat := t.warps.vals.map (·.quarter)

/-- The team's old quarters fit a core's loads. -/
def Team.oldFits (t : Team) (low high : Load) : Bool :=
  let n := t.needs
  let f := t.quarters.foldl (fun (x : Load × Load) q =>
    if q < 4 then (x.1.add q n.entries, x.2) else (x.1, x.2.add (q - 4) n.entries)) (low, high)
  (f.1.entries ++ f.2.entries).all (fun e => decide (e ≤ 65536)) && (f.1.warps ++ f.2.warps).all (fun w => decide (w ≤ 16))

/-- The place of a team on a core with some load, or a pair: for a team that returns or moves, the quarters of R369 if its formed warps
stay together, else its old ones if they fit (R378). -/
def seat (n : Needs) (who : Option Team) (core : Nat) (low high : Load) : Option Place :=
  match placeTeam n core low high, who with
  | some p, some t =>
    if t.coherent p.quarters then some p
    else if t.oldFits low high then some { p with quarters := t.quarters }
    else none
  | p, _ => p

/-- Loads of some cores. -/
abbrev Loads := Tab Load

/-- Put a placed team into the loads. -/
def Loads.enter (m : Loads) (n : Needs) (p : Place) : Loads :=
  let m := m.upd p.core (fun x => x.with n p false)
  if n.paired then m.upd (p.core + 1) (fun x => x.with n p true) else m

/-- The first of some cores on which a team fits. -/
def Loads.first (m : Loads) (n : Needs) (who : Option Team) : List Nat → Option Place
  | [] => none
  | c :: rest => match seat n who c (m.get {} c) (m.get {} (c + 1)) with
    | some p => some p
    | none => m.first n who rest

/-- Place several teams of equal needs, new ones or given ones, one after another, on some cores; whole or not at all (R369). -/
def Loads.placeAll (m : Loads) (n : Needs) (cores : List Nat) : List (Option Team) → Option (List Place)
  | [] => some []
  | t :: rest => match m.first n t cores with
    | none => none
    | some p => ((m.enter n p).placeAll n cores rest).map (fun l => p :: l)

/-- The cores of a cluster, from one core on. -/
def clusterCores (core : Nat) : List Nat :=
  let b := core / 4 * 4
  (upFrom (core % 4) 4).map (fun i => b + i % 4)

/-- Where some teams of a launch fit, new ones or given ones, with `core` first and some teams away: a team with no gang on that core or
its pair, a gang on its cluster (R369). A cluster holds the cluster memory of one gang. -/
def State.spots (s : State) (l : Launch) (v core : Nat) (who : List (Option Team)) (without : List Nat) : Option (List Place) :=
  let n := l.needs
  let core := if n.paired then core / 2 * 2 else core
  let ganged := decide (1 < l.gang) || l.cluster != 0
  let cores := ((if 1 < l.gang then clusterCores core else [core])).filter (fun x =>
    s.allows l.ctx v x && (!n.paired || (x % 2 == 0 && s.allows l.ctx v (x + 1))))
  let lend := lendOf l.cluster
  let all := if ganged then clusterCores core else [core, core + 1]
  let loads : Loads := all.foldl (fun (m : Loads) x =>
    let y := s.loadOf x without
    m.put x { y with bytes := y.bytes + lend }) []
  if !cores.contains core then none
  else if l.cluster != 0 && (s.lentBy core without != 0 || all.any (fun x => decide (524288 < (loads.get {} x).bytes))) then none
  else loads.placeAll n cores who

/-! ## Waiting teams -/

/-- The teams of a gang number that are to be dispatched (R368, R380). -/
def Launch.membersOf (l : Launch) (g : Nat) : List Nat :=
  (upFrom (g * max l.gang 1) (max l.gang 1)).filter (fun t => decide (t < l.teams) && decide (l.floor ≤ t))

/-- Teams of the gang of a team, itself included; a team without a gang stands alone. -/
def State.gangMates (s : State) (tid : Nat) : List Nat :=
  match s.teams.look tid with
  | none => []
  | some t =>
    if 1 < (s.launchOf t).gang then
      (s.teams.filter (fun p => p.2.launch == t.launch && p.2.gang == t.gang && p.2.place != .retired)).map (·.1)
    else [tid]

/-- A team or gang that waits for a place: its launch, its virtual die, the saved teams or the gang number to dispatch. -/
structure Waiting where
  lid : Nat
  vdie : Nat
  eprio : Nat
  number : Nat
  /-- Saved teams; none for a gang never dispatched. -/
  saved : Option (List Nat)
  gang : Nat
  deriving DecidableEq, Repr

/-- The order of R371. -/
def Waiting.before (a b : Waiting) : Bool :=
  if a.eprio != b.eprio then decide (b.eprio < a.eprio)
  else if a.lid != b.lid then decide (a.lid < b.lid)
  else if a.saved.isSome != b.saved.isSome then a.saved.isSome
  else decide (a.number < b.number)

/-- Effective priority of a launch's queue (R371). -/
def State.eprioOf (s : State) (l : Launch) : Nat := (s.queueRegs l.ctx l.queue).eprio

/-- The count word of a listed launch, if it can be read and is not too large (R365). -/
def State.countWord (s : State) (l : Launch) : Option Nat :=
  match s.engineRead l.ctx l.list 4 with
  | .error _ => none
  | .ok bs => if 2 ^ 24 < natOf bs then none else some (natOf bs)

/-- A launch as its first dispatch binds it (R365, R368): its dies and its teams. One whose count word cannot be read is killed at that
dispatch, of a first team. -/
def State.bound (s : State) (l : Launch) : Launch :=
  if l.counted then l
  else
    let k := s.ctx l.ctx
    let d := min l.maxDies k.dieCount
    let d := if l.elastic then min d k.target else d
    { l with
      dies := d, next := []
      teams := if l.listed then (s.countWord l).getD 1 else if l.elastic then l.teamCount * d else l.teamCount }

/-- Virtual dies on which a launch has a gang to dispatch; an empty tile list has its one dispatch on die 0 (R365). -/
def Launch.diesOpen (l : Launch) : List Nat :=
  if !l.counted && l.teams = 0 && l.dies != 0 then [0] else (upFrom 0 l.dies).filter l.moreOn

/-- Every team or gang that waits (R371), a saved one also where another was promised its place. -/
def State.allWaiting (s : State) : List Waiting :=
  (s.launches.filter (fun p => p.2.killing.isNone && (p.2.state == 2 || p.2.state == 3))).flatMap (fun p =>
    let l := s.bound p.2
    let base : Waiting := { lid := p.1, vdie := 0, eprio := s.eprioOf l, number := 0, saved := none, gang := 0 }
    let new := l.diesOpen.map (fun v =>
      { base with vdie := v, number := l.nextGang v * max l.gang 1, gang := l.nextGang v })
    let saved := s.teams.filterMap (fun t =>
      match t.2.place with
      | .saved _ =>
        if t.2.launch = p.1 && (s.gangMates t.1).head? = some t.1 then
          some { base with vdie := t.2.vdie, number := t.2.number, saved := some (s.gangMates t.1) }
        else none
      | _ => none)
    saved ++ new)

/-- The teams and gangs that are considered for a place (R371, R372): the place of a team saved at its quantum expiry goes
first to the waiting team that won it at the expiry, so the saved one comes after that one. -/
def State.waiting (s : State) : List Waiting :=
  let all := s.allWaiting
  all.filter (fun w => match w.saved with
    | some (m :: _) => (match (s.teams.look m).bind (·.behind) with
      | some k => !all.any (fun x => x.lid == k.1 && x.number == k.2)
      | none => true)
    | _ => true)

/-- The teams that a waiting entry places: saved ones, or new ones. -/
def State.seatsOf (s : State) (w : Waiting) : List (Option Team) := match w.saved with
  | some l => l.map s.teams.look
  | none => match s.launches.look w.lid with
    | some l => ((s.bound l).membersOf w.gang).map (fun _ => none)
    | none => []

/-- Where a waiting team or gang fits with `core` first, some teams away. -/
def State.fitsAt (s : State) (w : Waiting) (core : Nat) (without : List Nat) : Option (List Place) :=
  match s.launches.look w.lid with
  | none => none
  | some l => s.spots l w.vdie core (s.seatsOf w) without

/-- A waiting gang or pair team: its place may be held by several teams. -/
def State.big (s : State) (w : Waiting) : Bool :=
  match s.launches.look w.lid with
  | some l => decide (1 < l.gang) || l.needs.paired || l.cluster != 0
  | none => false

/-- The cores that a waiting gang or pair team takes with a core: its cluster, or its pair (R369). -/
def State.siteOf (s : State) (w : Waiting) (core : Nat) : List Nat :=
  match s.launches.look w.lid with
  | some l => if 1 < l.gang || l.cluster != 0 then clusterCores core else [core / 2 * 2, core / 2 * 2 + 1]
  | none => [core]

/-- The resident teams on the site of a waiting team that it may displace: those of no higher effective priority (R372). -/
def State.yielding (s : State) (w : Waiting) (core : Nat) : List Nat :=
  (s.teams.filter (fun p => p.2.resident && (s.siteOf w core).contains p.2.core && decide (s.eprioOf (s.launchOf p.2) ≤ w.eprio))).map (·.1)

/-- A waiting team takes the place that some teams would free: with them away it fits, or, where it needs a site that several teams hold,
with them and the others of the site that yield to it away (R372, R376; log entry 162). -/
def State.takes (s : State) (w : Waiting) (core : Nat) (without : List Nat) : Bool :=
  (s.fitsAt w core without).isSome
    || (s.big w && !without.isEmpty && (s.fitsAt w core (without ++ s.yielding w core)).isSome)

/-- A place at a core is kept for a waiting gang or pair team for which a team of its site has been saved, or is to be, until all of the
site that it needs is free (R376; log entry 162). -/
def State.keptFrom (s : State) (w : Waiting) (core : Nat) : Bool :=
  s.waiting.any (fun x => x != w && x.before w && s.big x
    && s.teams.any (fun p => p.2.behind == some (x.lid, x.number) && (s.siteOf x core).contains p.2.core)
    && (s.fitsAt x core (s.yielding x core)).isSome)

/-- The waiting teams and gangs that fit at one of some cores, or would with some teams away. -/
def State.fitting (s : State) (cores without : List Nat) : List Waiting :=
  s.waiting.filter (fun w => cores.any (fun c => s.takes w c without && !s.keptFrom w c))

/-- The best of the waiting teams that fit at one of some cores (R371). -/
def State.bestOf (s : State) (cores without : List Nat) : Option Waiting :=
  (s.fitting cores without).foldl (fun m w => match m with
    | none => some w
    | some x => if w.before x then some w else some x) none
def State.bestAt (s : State) (core : Nat) (without : List Nat) : Option Waiting := s.bestOf [core] without

/-- A core with room offers a place (R371, R376): the best of the waiting teams that fit there takes it at once. -/
def State.offer (s : State) (core : Nat) : State :=
  match s.bestAt core [] with
  | none => s
  | some w => match w.saved with
    | some (m :: _) => s.soon [.event .teamRestore { a := m, b := core }]
    | _ => s.soon [.event .teamDispatch { a := w.lid, b := core }]

/-- The cores whose room some teams free: those that they hold, and, of a gang with cluster memory, the others of its cluster (R369,
R372). -/
def State.coresFreed (s : State) (tids : List Nat) : List Nat :=
  (tids.flatMap (fun m => match s.teams.look m with
    | some t => if t.clusterBytes != 0 then clusterCores t.core else if t.paired then [t.core, t.core + 1] else [t.core]
    | none => [])).eraseDups

/-- Cores that some teams hold. -/
def State.coresHeld (s : State) (tids : List Nat) : List Nat :=
  (tids.flatMap (fun m => match s.teams.look m with
    | some t => if t.paired then [t.core, t.core + 1] else [t.core]
    | none => [])).eraseDups

/-! ## Dispatch -/

/-- Core clocks of a quantum (R372, R391). -/
def Ctx.quantumClocks (k : Ctx) : Nat := 1000 * (if k.quantum < 200 then 200 else if 64000 < k.quantum then 64000 else k.quantum)

/-- First dispatch of a launch (R365, R368): it binds its dies and reads its count word. -/
def State.bindLaunch (s : State) (lid : Nat) : State :=
  match s.launches.look lid with
  | none => s
  | some l =>
    if l.counted then s
    else if l.listed && (s.countWord l).isNone then s.killLaunch lid 0x14
    else s.updLaunch lid (fun l => { s.bound l with counted := true })

/-- A tile record (R366): its ROWS, or none if it cannot be read or holds more than 64. -/
def State.rowsOf (s : State) (l : Launch) (t : Nat) : Option Nat :=
  match s.engineRead l.ctx (l.list + 32 + 32 * t) 32 with
  | .error _ => none
  | .ok bs => if 64 < fieldAt bs 8 1 then none else some (fieldAt bs 8 1)

/-- A new team (R96, R133, R370): registers and memory 0, lines present, clean. -/
def newTeam (l : Launch) (lid gang number vdie clock boundaries quantum : Nat) (p : Place) : Team :=
  let tile := if l.listed then (l.list + 32 + 32 * number) % 2 ^ 64 else 0
  let sregs : List Nat := [l.argp, number, l.teams, vdie, l.dies, tile, l.ident]
  { launch := lid, ctx := l.ctx, number := number, vdie := vdie, core := p.core, slot := p.slot, paired := l.needs.paired
    width := l.width, size := l.teamSize, nregs := l.nregs, privBytes := l.priv, scratchBytes := l.scratch, clusterBytes := l.cluster
    gang := gang, quantum := quantum, arrived := boundaries
    lead := { pc := l.leadPc, regs := sregs.zipIdx.foldl (fun (m : Tab DWord) x => m.set 0 x.2 (BitVec.ofNat 64 x.1)) [] }
    threads := (upFrom 0 l.teamSize).map (fun i => (i, { pc := l.lanePc, since := clock }))
    warps := p.quarters.zipIdx.map (fun x => (x.2, { quarter := x.1, steps := boundaries })) }

/-- A queue of which a team is placed (R371): its effective priority and its bypasses start again. -/
def State.queuePlaced (s : State) (l : Launch) : State :=
  s.updQueue l.ctx l.queue (fun r => { r with eprio := bits r.cfg 4 2, bypass := 0 })

/-- A team has its place: nobody is behind it any longer (R372). -/
def State.promiseKept (s : State) (lid number : Nat) : State :=
  { s with teams := s.teams.map (fun p => (p.1, if p.2.behind = some (lid, number) then { p.2 with behind := none } else p.2)) }

/-- The first clause of a team comes after every access that happens-before its launch's acceptance or readiness, and after
the team's own accesses before a save or a move (R370, R378): its cores drop their lines, as an acquire does (R255). -/
def State.teamAcquires (s : State) (core : Nat) (paired : Bool) : State :=
  if paired then (s.dropL1 core).dropL1 (core + 1) else s.dropL1 core

/-- Dispatch one team of a launch (R96, R279, R370). -/
def State.dispatchTeam (s : State) (lid gang number vdie : Nat) (p : Place) : State :=
  match s.launches.look lid with
  | none => s
  | some l =>
    let tid := s.nextId
    let t := newTeam l lid gang number vdie (s.core p.core).clock l.boundaries (s.ctx l.ctx).quantumClocks p
    ((({ s with teams := s.teams.put tid t, nextId := tid + 1 }.teamAcquires p.core t.paired).queuePlaced l).promiseKept lid number).declareInputs tid l

/-- Every team dispatched: STATE 3 (R361). -/
def State.markSent (s : State) (lid : Nat) : State :=
  match s.launches.look lid with
  | none => s
  | some l => if l.state = 2 && l.allSent && l.killing.isNone then s.markLaunch lid 3 else s

/-- Dispatch, or skip, the next gang of a launch on a virtual die, at a core. -/
def State.dispatchGang (s : State) (lid : Nat) (l : Launch) (w : Waiting) (core : Nat) : State :=
  let rows := (l.membersOf w.gang).map (fun t => (t, if l.listed then s.rowsOf l t else some 1))
  if rows.any (fun r => r.2.isNone) then s.killLaunch lid 0x14
  else
    let run := (rows.filter (fun r => r.2 != some 0)).map (·.1)
    let on := fun (s : State) =>
      (s.updLaunch lid (fun l => { l with next := l.next.put w.vdie (w.gang + 1) })).markSent lid
    if run.isEmpty then on s
    else match s.spots l w.vdie core (run.map (fun _ => none)) [] with
      | none => s
      | some ps =>
        let ganged := decide (1 < l.gang) || l.cluster != 0
        let g := s.nextId
        let s := if ganged then
            { s with gangs := s.gangs.put g { launch := lid, number := w.gang, cluster := clusterOf core }, nextId := g + 1 }
          else s
        on ((run.zip ps).foldl (fun s x => s.dispatchTeam lid (if ganged then g else 0) x.1 w.vdie x.2) s)

/-- TEAM_DISPATCH (R365 to R371): if the next team or gang of the launch is the first in the scheduler's order among those that fit at
the core, it is placed there; a launch binds its dies and teams with its first dispatch. -/
def State.teamDispatch (s : State) (lid core : Nat) : State :=
  match s.bestAt core [] with
  | none => s
  | some w =>
    let l := s.launches.get { ctx := 0, queue := 0, slot := 0, image := [], ident := 0 } lid
    let q := if l.counted || !l.listed then (s, Sending.go) else s.schedSent l.ctx (s.enginePieces l.ctx l.list 4 false) false
    if w.lid != lid || w.saved.isSome then s
    else if q.2 = .wait then q.1
    else if q.2 = .lost then (((q.1.lostRecord l.ident 0).untaint (.sched l.ctx)).forget (.sched l.ctx)).killLaunch lid 0x0A
    else
      let s := (q.1.bindLaunch lid).forget (.sched l.ctx)
      match s.launches.look lid with
      | some l => if l.killing.isSome then s else s.dispatchGang lid l w core
      | none => s

def execTeamDispatch (s : State) : Host.Outcome State Fault Refusal := .next (s.teamDispatch s.arg.a s.arg.b)

end Sys2Proof.Machine
end

