-- ==== Sys2Proof/Machine/Host.lean ====
section
/-! DEFINITION. The host complex (13_host.md): fatal errors (R467), the watchdog (R452), power (R466), host credits (R463),
feature negotiation (R464), the root port (R458, R459). -/

namespace Sys2Proof.Machine

/-- Change the host complex. -/
def State.updHost (s : State) (f : HostCx → HostCx) : State := { s with host := f s.host }

/-- Harts 8 and 9 are the management harts (R447). -/
def mgmtHart (h : Nat) : Bool := h == 8 || h == 9

/-! ## Fatal errors -/

/-- A fatal error (R467): every core, Awl and port engine stops, the first cause is kept, and the management MSI is raised. -/
def State.fatal (s : State) (cause : Nat) : State :=
  if s.host.stopped then s
  else (s.updHost (fun h => { h with stopped := true, fatalCause := cause, fatalTime := h.mtime.toNat })).pkgMsi 1

/-- HOST_FATAL_REQ (R452, R467): any host hart writes REQ = 1. -/
def State.fatalReq (s : State) (v : Nat) : State := if bit v 0 then s.fatal 5 else s

def execHostFatalReq (s : State) : Host.Outcome State Fault Refusal := .next (s.fatalReq s.arg.a)

/-- WATCHDOG_SERVICE (R452): a write of SERVICE by management firmware sets REMAIN to 2^28. -/
def State.serviceWatchdog (s : State) (v hart : Nat) : State :=
  if mgmtHart hart && bit v 63 then s.updHost (fun h => { h with wdog := 2 ^ 28 }) else s

def execWatchdogService (s : State) : Host.Outcome State Fault Refusal := .next (s.serviceWatchdog s.arg.a s.arg.b)

/-- WATCHDOG_EXPIRY (R452, R467): the running watchdog goes from 1 to 0. -/
def State.watchdogExpiry (s : State) : State :=
  if s.host.started && s.host.wdog = 1 then (s.updHost (fun h => { h with wdog := 0 })).fatal 3 else s

def execWatchdogExpiry (s : State) : Host.Outcome State Fault Refusal := .next s.watchdogExpiry

/-- THERMAL_TRIP (R466, R467): a compute-die sensor reads at or above 110 °C, in units of 0.125 °C. -/
def State.thermalTrip (s : State) (reading : Nat) : State :=
  if 880 ≤ reading then (s.updHost (fun h => { h with tmax := max h.tmax (reading % 2 ^ 16) })).fatal 1 else s

def execThermalTrip (s : State) : Host.Outcome State Fault Refusal := .next (s.thermalTrip s.arg.b)

/-! ## Power -/

/-- HOST_PWR_LIMIT.WATTS as it acts (R466). -/
def HostCx.powerLimit (h : HostCx) : Nat := min 3000 (max 1000 h.limit)

/-- POWER_CLAMP (R466): after 10,000 consecutive ticks more than 5 % over the limit, NEXT := FLOOR on every core, and CLAMP. -/
def State.powerClamp (s : State) : State :=
  if s.host.hotTicks < 10000 then s
  else
    let s := (upFrom 0 160).foldl (fun (s : State) c => s.updCore c (fun k => { k with next := s.host.floor })) s
    s.updHost (fun h => { h with clamp := true, hotTicks := 0 })

def execPowerClamp (s : State) : Host.Outcome State Fault Refusal := .next s.powerClamp

/-- One tick of the host timer (R447, R452, R466): mtime, the watchdog, the time spent over the power limit and at 110 °C; and what falls
due. -/
def State.tickHost (s : State) : State :=
  let expires := s.host.started && s.host.wdog == 1
  let trips := match s.host.trip with
    | some (reading, left) => if left = 0 || s.freeBit 0 then [Turn.event .thermalTrip { b := reading }] else []
    | none => []
  let s := s.updHost (fun h => { h with
    mtime := h.mtime + 1
    wdog := if h.started && decide (1 < h.wdog) then h.wdog - 1 else h.wdog
    trip := h.trip.map (fun t => (t.1, t.2 - 1))
    hotTicks := if h.powerLimit * 105 < h.watts * 100 then min (h.hotTicks + 1) 10000 else 0 })
  s.drawn.soon ((if expires then [Turn.event .watchdogExpiry {}] else []) ++ trips
    ++ (if s.host.hotTicks = 10000 then [Turn.event .powerClamp {}] else []))

/-- The sensors read (R466): at 110 °C or more, in units of 0.125 °C, the core clocks stop within 1,000 ticks, at one that is free. -/
def State.sense (s : State) (watts tmax : Nat) : State :=
  s.updHost (fun h => { h with
    watts := watts % 2 ^ 12, tmax := tmax % 2 ^ 16
    trip := if h.trip.isNone && decide (880 ≤ tmax % 2 ^ 16) then some (tmax % 2 ^ 16, 999) else h.trip })

/-! ## Locks and counts -/

/-- HOST_LOCK_WRITE (R454): management firmware writes LOCK = 1; a write of 0 is ignored. -/
def State.lockWrite (s : State) (v hart : Nat) : State :=
  if mgmtHart hart && bit v 0 then s.updHost (fun h => { h with lock := true }) else s

def execHostLockWrite (s : State) : Host.Outcome State Fault Refusal := .next (s.lockWrite s.arg.a s.arg.b)

/-- HOST_MSI_STAT_CLR (R452). -/
def State.msiStatClr (s : State) : State := { s with msiDropped := 0 }

def execHostMsiStatClr (s : State) : Host.Outcome State Fault Refusal := .next s.msiStatClr

/-! ## Host credits -/

def State.hostCredit (s : State) (h : Nat) : HostCredit := s.host.credits.get {} h
def State.updCredit (s : State) (h : Nat) (f : HostCredit → HostCredit) : State :=
  s.updHost (fun x => { x with credits := x.credits.put h (f (s.hostCredit h)) })

/-- HOST_CREDIT_GO (R463): a write of HOST_CREDITh_CMD by hart h. FAILED is cleared by writing 1; a GO while BUSY is ignored. -/
def State.creditGo (s : State) (h v : Nat) : State :=
  s.updCredit h (fun c =>
    let c := { c with ctx := bits v 11 0, bytes := bits v 27 12, err := bit v 28, failed := c.failed && !bit v 31 }
    if bit v 29 && c.going.isNone then { c with going := some { va := c.va.toNat, ctx := c.ctx, bytes := c.bytes, err := c.err } } else c)

def execHostCreditGo (s : State) : Host.Outcome State Fault Refusal := .next (s.creditGo s.arg.a s.arg.b)

/-- HOST_CREDIT_APPLY (R463): the credit is applied at the object's home, with ERR if asked for; a translation, permission or
poison failure, or a misaligned address, applies nothing and sets FAILED. It is applied only once no store of the hart waits or is out; one
for another package stays BUSY until that has answered. -/
def State.creditApply (s : State) (h : Nat) : State :=
  match (s.hostCredit h).going with
  | none => s
  | some c =>
    let finish := fun (s : State) (failed : Bool) => s.updCredit h (fun x => { x with going := none, failed := x.failed || failed, away := false })
    if (s.hostCredit h).away || s.host.waits.any (fun x => x.c % 16 == h && !x.data.isEmpty) || (s.host.harts.get {} h).unacked != 0 then s
    else if c.va % 16 != 0 then finish s true
    else match s.engineXlat c.ctx c.va 16 true with
      | .error _ => finish s true
      | .ok (home, a) =>
        let q := s.request (.hostCredit h) 4 (s.routerOf home a).toList (s.ms.clocks.get 0 0)
        let bad := q.1.tainted (.hostCredit h)
        let s := q.1.untaint (.hostCredit h)
        match q.2, home with
        | .wait, _ => q.1
        | .lost, _ => finish (s.lostRecord 0 0) true
        | .go, .remote pkg =>
          if bad then finish s true
          else ({ s with sent := s.sent ++ [Sent.hostCredit h pkg a c.bytes c.err] } : State).updCredit h (fun x => { x with away := true })
        | .go, _ =>
          if bad then finish s true
          else
            let r := s.pieceBar { home := home, addr := a, len := 16, prot := s.engineMode c.ctx c.va } (.credit c.bytes false c.err)
            finish r.1 r.2

/-- The answer to a credit that has gone to another package (R463). -/
def State.creditAnswered (s : State) (h : Nat) (failed : Bool) : State :=
  s.updCredit h (fun x => if x.away then { x with going := none, failed := x.failed || failed, away := false } else x)

def execHostCreditApply (s : State) : Host.Outcome State Fault Refusal := .next (s.creditApply s.arg.a)

/-! ## Features -/

/-- HOST_FEAT_ACK_WRITE (R464): until COMMIT, word `w` of the acknowledgement; bits that the device does not offer are ignored.
Both models offer bits 0 to 10. -/
def State.featAck (s : State) (w v : Nat) : State :=
  if s.host.featStatus = 1 || w != 0 then s else s.updHost (fun h => { h with ack0 := BitVec.ofNat 64 (v % 2 ^ 11) })

def execHostFeatAckWrite (s : State) : Host.Outcome State Fault Refusal := .next (s.featAck s.arg.b s.arg.a)

/-- HOST_FEAT_COMMIT (R464): a commit with bit 0 clear is refused. -/
def State.featCommit (s : State) : State :=
  if s.host.featStatus = 1 then s else s.updHost (fun h => { h with featStatus := if bit h.ack0.toNat 0 then 1 else 2 })

def execHostFeatCommit (s : State) : Host.Outcome State Fault Refusal := .next s.featCommit

end Sys2Proof.Machine
end

