-- ==== Sys2Proof/Machine/Harts.lean ====
section
/-! DEFINITION. The host harts (R447, R460): their registers, modes and CSRs, traps, interrupt files, wired sources and PMP, as the RISC-V
specifications that R447 and R460 name have them (log entry 124). -/

namespace Sys2Proof.Machine

def State.hart (s : State) (n : Nat) : Hart := s.host.harts.get {} n
def State.updHart (s : State) (n : Nat) (f : Hart → Hart) : State := s.updHost (fun h => { h with harts := h.harts.put n (f (s.hart n)) })

def Hart.csr (h : Hart) (n : Nat) : Nat := (h.csrs.get 0 n).toNat
def Hart.setCsr (h : Hart) (n v : Nat) : Hart := { h with csrs := h.csrs.set 0 n (BitVec.ofNat 64 v) }

/-- Register x of a hart; x0 takes no value. -/
def Hart.setReg (h : Hart) (r v : Nat) : Hart := if r = 0 then h else { h with regs := h.regs.set 0 r (BitVec.ofNat 64 v) }

/-- A hart runs: a management hart, or an application hart that has been released (R454). -/
def State.hartRuns (s : State) (n : Nat) : Bool := mgmtHart n || (decide (n < 8) && s.host.released.has n)

/-- The hart of an operand, and the register that takes the value of its load: hart + 16 × register. -/
def hartOf (c : Nat) : Nat := c % 16

/-- The value of a load reaches its hart. -/
def State.hartGive (s : State) (c : Nat) (data : List Byte) : State :=
  let s := if c / 16 % 32 = 0 then s else s.updHart (hartOf c) (fun h => h.setReg (c / 16 % 32) (natOf data))
  { s with sent := s.sent ++ [.hartData (hartOf c) data] }

/-- A store or an atomic in another package has been answered (R421, R448): an atomic gives the bytes that it found. -/
def State.hartAnswered (s : State) (c : Nat) (data : List Byte) : State :=
  let s := s.updHart (hartOf c) (fun h => { h with unacked := h.unacked - 1 })
  if data.isEmpty then s else s.hartGive c data

/-! ## Interrupt files -/

/-- The pending and enabled identity of highest priority that the threshold lets through; 0 for none (R460). -/
def IntFile.top (x : IntFile) : Nat := (x.pending.filter (fun k => x.enabled.has k && (x.threshold == 0 || decide (k < x.threshold)))).headD 0
def IntFile.signals (x : IntFile) : Bool := x.delivery && x.top != 0

/-- 64 identities of a set from k on, as a word; and the set with those replaced. -/
def wordAt (l : NatSet) (k : Nat) : Nat := maskOf ((l.filter (fun x => decide (k ≤ x) && decide (x < k + 64))).map (· - k))
def withWord (l : NatSet) (k v : Nat) : NatSet :=
  ((setBits v 64).map (· + k)).foldl (fun (l : NatSet) x => if x = 0 || 2048 ≤ x then l else l.ins x) (l.filter (fun x => !(decide (k ≤ x) && decide (x < k + 64))))

/-- A register of an interrupt file: 0x70 delivery, 0x72 threshold, from 0x80 the pending identities, from 0xC0 the enabled ones. -/
def IntFile.reg (x : IntFile) (r : Nat) : Nat :=
  if r = 0x70 then b2n x.delivery
  else if r = 0x72 then x.threshold
  else if 0x80 ≤ r && r < 0xC0 then wordAt x.pending ((r - 0x80) / 2 * 64)
  else if 0xC0 ≤ r && r < 0x100 then wordAt x.enabled ((r - 0xC0) / 2 * 64)
  else 0
def IntFile.setReg (x : IntFile) (r v : Nat) : IntFile :=
  if r = 0x70 then { x with delivery := v == 1 }
  else if r = 0x72 then { x with threshold := v % 2048 }
  else if 0x80 ≤ r && r < 0xC0 then { x with pending := withWord x.pending ((r - 0x80) / 2 * 64) v }
  else if 0xC0 ≤ r && r < 0x100 then { x with enabled := withWord x.enabled ((r - 0xC0) / 2 * 64) v }
  else x

/-- A wired source of the management interface rises: the APLIC forwards it as a message (R460). -/
def State.wireRaised (s : State) (n : Nat) : State :=
  let w := s.host.wired.get {} n
  if w.on then s.deliverMsi (if w.hart = 9 then 9 else 8) 7 w.eiid else s

/-! ## CSRs -/

/-- Modes with virtualization on; the privilege level of a mode. -/
def Priv.virtual (p : Priv) : Bool := p == .vs || p == .vu
def Priv.level (p : Priv) : Nat := if p = .m then 3 else if p = .hs || p = .vs then 1 else 0

/-- In VS mode the supervisor CSRs stand for their VS counterparts. -/
def csrHome (mode : Priv) (n : Nat) : Nat :=
  if mode.virtual && [0x100, 0x104, 0x105, 0x140, 0x141, 0x142, 0x143, 0x144, 0x14D, 0x150, 0x151, 0x15C, 0x180].contains n then n + 0x100 else n

/-- The cause of the exception that an access to a CSR raises, if it raises one: illegal instruction (2), or virtual instruction (22). -/
def csrBars (hart : Nat) (mode : Priv) (n : Nat) (write : Bool) : Option Nat :=
  let lvl := n / 256 % 4
  if (write && n / 1024 == 3) || 4096 ≤ n || (mgmtHart hart && lvl != 3 && n != 0xC01) then some 2
  else if mode.virtual then (if lvl = 3 then some 2 else if lvl = 2 || mode.level < lvl then some 22 else none)
  else if lvl = 3 && mode != .m then some 2
  else if (if mode = .hs || mode = .m then 2 else 0) < lvl && lvl != 3 then some 2
  else none

/-- Bits of mstatus that sstatus shows. -/
def sstatusMask : Nat := 0x80000003000DE762

/-- Bits of x under a mask, with the others of y. -/
def underMask (m x y : Nat) : Nat := Nat.lor (Nat.land x m) (y - Nat.land y m)

/-- The guest file that hstatus.VGEIN names. -/
def Hart.vgein (h : Hart) : Nat := bits (h.csr 0x600) 17 12

/-- hgeip: the guest files that signal (R460). -/
def State.hgeip (s : State) (n : Nat) : Nat := maskOf ((upFrom 1 6).filter (fun f => (s.host.file n f).signals))

/-- mip of a hart: the bits that it holds, the interrupt files, and the Sstc timers (R447, R460). -/
def State.mip (s : State) (n : Nat) : Nat :=
  let h := s.hart n
  let held := h.csr 0x344
  let hv := h.csr 0x645
  let stce := bit (h.csr 0x30A) 63
  let vstce := stce && bit (h.csr 0x60A) 63
  maskOf ([1, 3, 7].filter (bit held)
    ++ [2, 6, 10].filter (bit hv)
    ++ (if stce then (if h.csr 0x14D ≤ s.host.mtime.toNat then [5] else []) else [5].filter (bit held))
    ++ (if vstce && decide (h.csr 0x24D ≤ (s.host.mtime.toNat + h.csr 0x605) % 2 ^ 64) then [6] else [])
    ++ (if bit held 9 || (s.host.file n 0).signals then [9] else [])
    ++ (if (decide (h.vgein != 0) && bit (s.hgeip n) h.vgein) then [10] else [])
    ++ (if (s.host.file n 7).signals then [11] else [])
    ++ (if Nat.land (s.hgeip n) (h.csr 0x607) != 0 then [12] else []))

/-- The interrupt file behind iselect, ireg and topei of a level. -/
def Hart.fileAt (h : Hart) (n : Nat) : Nat := if n / 256 = 3 then 7 else if n / 256 = 2 then h.vgein else 0

/-- Read a CSR. -/
def State.csrRead (s : State) (n c : Nat) : Nat :=
  let h := s.hart n
  let vs := 0x444
  match c with
  | 0xF14 => n
  | 0xC01 => (s.host.mtime.toNat + if h.mode.virtual then h.csr 0x605 else 0) % 2 ^ 64
  | 0x100 => Nat.land (h.csr 0x300) sstatusMask
  | 0x104 => Nat.land (h.csr 0x304) (h.csr 0x303)
  | 0x144 => Nat.land (s.mip n) (h.csr 0x303)
  | 0x204 => Nat.land (Nat.land (h.csr 0x304) (h.csr 0x603)) vs / 2
  | 0x244 => Nat.land (Nat.land (s.mip n) (h.csr 0x603)) vs / 2
  | 0x344 => s.mip n
  | 0x604 => Nat.land (h.csr 0x304) (vs + 4096)
  | 0x644 => Nat.land (s.mip n) (vs + 4096)
  | 0xE12 => s.hgeip n
  | 0x151 | 0x251 | 0x351 => (s.host.file n (h.fileAt c)).reg (h.csr (c - 1))
  | 0x15C | 0x25C | 0x35C => let t := (s.host.file n (h.fileAt c)).top; t * 2 ^ 16 + t
  | _ => h.csr c

/-- Write a CSR. A write of topei claims the interrupt: it is pending no more (R460). -/
def State.csrWrite (s : State) (n c v : Nat) : State :=
  let h := s.hart n
  let vs := 0x444
  let put := fun (c v : Nat) => s.updHart n (fun h => h.setCsr c v)
  match c with
  | 0x100 => put 0x300 (underMask sstatusMask v (h.csr 0x300))
  | 0x104 => put 0x304 (underMask (h.csr 0x303) v (h.csr 0x304))
  | 0x144 => put 0x344 (underMask (Nat.land (h.csr 0x303) 2) v (h.csr 0x344))
  | 0x204 => put 0x304 (underMask (Nat.land (h.csr 0x603) vs) (2 * v) (h.csr 0x304))
  | 0x244 => put 0x645 (underMask (Nat.land (h.csr 0x603) 4) (2 * v) (h.csr 0x645))
  | 0x604 => put 0x304 (underMask (vs + 4096) v (h.csr 0x304))
  | 0x644 => put 0x645 (underMask 4 v (h.csr 0x645))
  | 0x151 | 0x251 | 0x351 => s.updFile n (h.fileAt c) (fun x => x.setReg (h.csr (c - 1)) v)
  | 0x15C | 0x25C | 0x35C => s.updFile n (h.fileAt c) (fun x => { x with pending := x.pending.rem x.top })
  | _ => put c v

/-! ## Traps -/

/-- The fields of a status register that a trap into S level changes: SPIE := SIE, SIE := 0, SPP := the level. -/
def trapS (x level : Nat) : Nat := putBits (putBits (putBits x 5 5 (bits x 1 1)) 1 1 0) 8 8 level

/-- Where a trap goes: the base of tvec, or in vectored mode the entry of an interrupt's cause. -/
def tvecOf (tvec cause : Nat) (int : Bool) : Nat := tvec / 4 * 4 + if int && tvec % 4 == 1 then 4 * cause else 0

/-- A trap into M mode, into HS mode, and into VS mode. -/
def Hart.trapM (h : Hart) (cause tval : Nat) (int : Bool) : Hart :=
  let x := h.csr 0x300
  let st := putBits (putBits (putBits (putBits x 7 7 (bits x 3 3)) 3 3 0) 12 11 h.mode.level) 39 39 (b2n h.mode.virtual)
  let h' := (((h.setCsr 0x341 h.pc.toNat).setCsr 0x342 (cause + 2 ^ 63 * b2n int)).setCsr 0x343 tval).setCsr 0x300 st
  { h' with mode := .m, pc := BitVec.ofNat 64 (tvecOf (h.csr 0x305) cause int), reserved := none }
def Hart.trapHs (h : Hart) (cause tval : Nat) (int : Bool) : Hart :=
  let g := putBits (if h.mode.virtual then putBits (h.csr 0x600) 8 8 h.mode.level else h.csr 0x600) 7 7 (b2n h.mode.virtual)
  let h' := ((((h.setCsr 0x141 h.pc.toNat).setCsr 0x142 (cause + 2 ^ 63 * b2n int)).setCsr 0x143 tval).setCsr 0x300 (trapS (h.csr 0x300) h.mode.level)).setCsr 0x600 g
  { h' with mode := .hs, pc := BitVec.ofNat 64 (tvecOf (h.csr 0x105) cause int), reserved := none }
def Hart.trapVs (h : Hart) (cause tval : Nat) (int : Bool) : Hart :=
  let h' := (((h.setCsr 0x241 h.pc.toNat).setCsr 0x242 (cause + 2 ^ 63 * b2n int)).setCsr 0x243 tval).setCsr 0x200 (trapS (h.csr 0x200) h.mode.level)
  { h' with mode := .vs, pc := BitVec.ofNat 64 (tvecOf (h.csr 0x205) cause int), reserved := none }

/-- An exception goes to the level that medeleg and hedeleg delegate it to. -/
def Hart.exception (h : Hart) (cause tval : Nat) : Hart :=
  if h.mode = .m || !bit (h.csr 0x302) cause then h.trapM cause tval false
  else if !h.mode.virtual || !bit (h.csr 0x602) cause then h.trapHs cause tval false
  else h.trapVs cause tval false

/-- The interrupts in the order of their priority, of those in a word. -/
def firstInt (w : Nat) : Option Nat := [11, 3, 7, 9, 1, 5, 12, 10, 2, 6].find? (bit w)

/-- A hart takes the pending and enabled interrupt of highest priority, if there is one (R460). -/
def State.takeInterrupt (s : State) (n : Nat) : State :=
  let h := s.hart n
  let w := Nat.land (s.mip n) (h.csr 0x304)
  let deleg := h.csr 0x303
  let m := w - Nat.land w deleg
  let hs := let x := Nat.land w deleg; x - Nat.land x (Nat.land (h.csr 0x603) 0x444)
  let vs := Nat.land (Nat.land w deleg) (Nat.land (h.csr 0x603) 0x444)
  match if h.mode != .m || bit (h.csr 0x300) 3 then firstInt m else none with
  | some c => s.updHart n (fun h => h.trapM c 0 true)
  | none => match if h.mode = .u || h.mode.virtual || (h.mode = .hs && bit (h.csr 0x300) 1) then firstInt hs else none with
    | some c => s.updHart n (fun h => h.trapHs c 0 true)
    | none => match if h.mode = .vu || (h.mode = .vs && bit (h.csr 0x200) 1) then firstInt vs else none with
      | some c => s.updHart n (fun h => h.trapVs (c - 1) 0 true)
      | none => s

/-- The mode of a level and a virtualization bit. -/
def privOf (level : Nat) (virtual : Bool) : Priv := if level = 3 then .m else if level = 1 then (if virtual then .vs else .hs) else if virtual then .vu else .u

/-- MRET; and SRET of HS mode, of M mode, and of VS mode. -/
def Hart.mret (h : Hart) : Hart :=
  let x := h.csr 0x300
  let to_ := privOf (bits x 12 11) (bit x 39)
  let h' := h.setCsr 0x300 (putBits (putBits (putBits (putBits x 3 3 (bits x 7 7)) 7 7 1) 12 11 0) 39 39 0)
  { h' with mode := to_, pc := BitVec.ofNat 64 (h.csr 0x341) }
def Hart.sret (h : Hart) : Hart :=
  let back := fun (x : Nat) => putBits (putBits (putBits x 1 1 (bits x 5 5)) 5 5 1) 8 8 0
  if h.mode.virtual then
    { h.setCsr 0x200 (back (h.csr 0x200)) with mode := privOf (bits (h.csr 0x200) 8 8) true, pc := BitVec.ofNat 64 (h.csr 0x241) }
  else
    { (h.setCsr 0x300 (back (h.csr 0x300))).setCsr 0x600 (putBits (h.csr 0x600) 7 7 0) with
      mode := privOf (bits (h.csr 0x300) 8 8) (bit (h.csr 0x600) 7), pc := BitVec.ofNat 64 (h.csr 0x141) }

/-- A hart gets an exception on an access: an access fault of a load (5) or of a store (7), or the exception of another cause (R449, R465). -/
def State.hartFault (s : State) (n : Nat) (store : Bool) (addr : Nat) : State :=
  let s := s.updHart n (fun h => h.exception (if store then 7 else 5) addr)
  { s with sent := s.sent ++ [.hartFault n store] }

/-! ## PMP -/

/-- The range of PMP entry k of a hart, if the entry is on: first address and end. -/
def Hart.pmpRange (h : Hart) (k : Nat) : Option (Nat × Nat) :=
  let cfg := h.csr (0x3A0 + k / 8 * 2) / 2 ^ (8 * (k % 8)) % 256
  let a := h.csr (0x3B0 + k)
  match bits cfg 4 3 with
  | 1 => some ((if k = 0 then 0 else h.csr (0x3B0 + k - 1) * 4), a * 4)
  | 2 => some (a * 4, a * 4 + 4)
  | 3 =>
    let ones := ((upFrom 0 54).takeWhile (bit a)).length
    some (a / 2 ^ ones * 2 ^ ones * 4, a / 2 ^ ones * 2 ^ ones * 4 + 2 ^ (ones + 3))
  | _ => none

/-- A hart's PMP allows an access (R465): the lowest-numbered entry that meets it decides, and must hold all of it. -/
def Hart.pmpAllows (h : Hart) (a n : Nat) (write : Bool) : Bool :=
  match (upFrom 0 64).find? (fun k => match h.pmpRange k with
    | some r => decide (r.1 < a + n) && decide (a < r.2)
    | none => false) with
  | none => h.mode == .m
  | some k =>
    let cfg := h.csr (0x3A0 + k / 8 * 2) / 2 ^ (8 * (k % 8)) % 256
    match h.pmpRange k with
    | some r => decide (r.1 ≤ a) && decide (a + n ≤ r.2) && ((h.mode == .m && !bit cfg 7) || (if write then bit cfg 1 else bit cfg 0))
    | none => false

end Sys2Proof.Machine
end

