-- ==== Sys2Proof/Machine/RootPort.lean ====
section
/-! DEFINITION. The PCI Express root port (R458, R459): inbound windows, outbound requests and their completions, errors and containment. -/

namespace Sys2Proof.Machine

/-- A request is completed as an unsupported request, and counted (R459). -/
def State.pcieRefuse (s : State) : State :=
  { s.updHost (fun h => { h with ur := satNat (h.ur + 1) 0xFFFF }) with sent := s.sent ++ [.pcieUr] }

/-- The window that decides for a bus address (R459): the lowest-numbered one that contains it. -/
def HostCx.windowOf (h : HostCx) (addr : Nat) : Option InWin :=
  ((h.inwin.filter (fun p => decide (p.1 < 8) && decide (p.2.bus * 4096 ≤ addr) && decide (addr < (p.2.bus + p.2.pages) * 4096))).map (·.2)).head?

/-- Bytes of the outbound range (R459): 0 where it is disabled. -/
def HostCx.outbound (h : HostCx) : Nat := if 29 ≤ h.pcieLog2 && h.pcieLog2 ≤ 40 then 2 ^ h.pcieLog2 else 0

/-- A physical address lies in the outbound range. -/
def HostCx.outbounds (h : HostCx) (a : Nat) : Bool := decide (h.pcieBase ≤ a) && decide (a < h.pcieBase + h.outbound)

/-! ## Inbound -/

/-- A request that a window maps to a physical address is refused: it leaves the window, breaks its permission, meets the register windows
(R449), another package that is not reachable (R469) or for which the feature is not acknowledged (R464), no region, the outbound range, to
which nothing is routed back (R458), or would write the dump (R468). -/
def State.pcieBars (s : State) (w : InWin) (a phys n : Nat) (write : Bool) : Bool :=
  let pkg := phys / 2 ^ 43
  decide ((w.bus + w.pages) * 4096 < a + n) || (if write then !w.wr else !w.rd) || inWindows phys || inWindows (phys + n - 1)
    || !s.reachable pkg || (pkg != s.pkg && !s.feature 7) || (pkg == s.pkg && !s.inRegion (phys % 2 ^ 43) n)
    || s.host.outbounds phys || s.host.outbounds (phys + n - 1) || (write && s.host.inDump phys n)

/-- A read or a write of a device (R459): its packets go over the package network, and it waits where they do (R353, R421). A lost read
returns poisoned bytes; a lost write is dropped (R354). -/
def State.pcieAccess (s : State) (x : Arg) : State :=
  let write := x.b == 1
  let n := if write then x.data.length else x.c
  match s.host.windowOf x.a with
  | none => s.pcieRefuse
  | some w =>
    let phys := (w.phys * 4096 + (x.a - w.bus * 4096)) % 2 ^ 52
    if s.pcieBars w x.a phys n write then s.pcieRefuse
    else
      let r := s.piecesSent .root 4 (s.ms.clocks.get 0 0) write (s.physPieces phys n)
      match r.2.1 with
      | .wait => r.1.updHost (fun h => { h with inWaits := x :: h.inWaits })
      | .lost =>
        let s := r.1.lostRecord 0 0
        if write then s else { s with sent := s.sent ++ [.pcieData ((upFrom 0 n).map (fun _ => 0)) (2 ^ ((n + 31) / 32) - 1)] }
      | .go =>
        if write then r.1.writePieces r.2.2 (withPoison x.data x.poison)
        else
          let d := r.1.readPieces r.2.2
          { d.1 with sent := d.1.sent ++ [.pcieData (d.2.map (·.1)) (poisonOf d.2)] }

/-- The oldest request that waits goes on. -/
def State.pcieAgain (s : State) : State :=
  match s.host.inWaits with
  | [] => s
  | x :: rest => (s.updHost (fun h => { h with inWaits := rest })).pcieAccess x

/-- A completion of the read of a tag (R458, R459): the hart gets the bytes, or ones where the request was not completed. -/
def State.pcieCompletion (s : State) (tag : Nat) (data : List Byte) (failed : Bool) : State :=
  match s.host.outReads.find? (fun r => r.tag == tag) with
  | none => s
  | some r =>
    (s.updHost (fun h => { h with outReads := h.outReads.filter (fun r => r.tag != tag) })).hartGive r.who
      ((upFrom 0 r.len).map (fun i => if failed then 0xFF else data.getD i 0))

/-- AER logs an error, 0 correctable, 1 non-fatal, 2 fatal; downstream port containment, where it is on, shuts the link after an
uncorrectable one; the port sends its message (R458, R461). -/
def State.pcieError (s : State) (kind : Nat) : State :=
  (s.updHost (fun h => { h with aer := h.aer.ins (kind % 3), dpc := h.dpc || (h.dpcOn && kind % 3 != 0) })).pkgMsi 3

/-- PCIE_INBOUND_REQUEST (R458, R459): operand b is 0 for a read of c bytes at bus address a, 1 for a write of the data, 2 for a request
that uses an unsupported feature, 3 for a write to the interrupt file 8 × hart + file of address a (R460, R461), 4 for an error message of
kind a, 5 for a change of the port's containment and error registers (c: bit 0 containment on, 1 release it, 2 clear the errors), 6 for the
completion of the read of tag a, which has failed if c is 1, 7 to enable (c = 1) or to end IDE stream a (R464), 8 for the oldest request that
waits. While containment holds the link, no request comes in. -/
def State.pcieInbound (s : State) (x : Arg) : State :=
  match x.b with
  | 4 => s.pcieError x.a
  | 5 => s.updHost (fun h => { h with
      dpcOn := bit x.c 0, dpc := h.dpc && !bit x.c 1, aer := if bit x.c 2 then [] else h.aer })
  | 6 => s.pcieCompletion x.a x.data (x.c == 1)
  | 7 => if s.feature 9 then s.updHost (fun h => { h with ide := if x.c = 1 then h.ide.ins x.a else h.ide.rem x.a }) else s
  | 8 => s.pcieAgain
  | _ =>
    if s.host.dpc then s
    else if x.b = 3 then s.deliverMsi (x.a / 8 % 8) (x.a % 8) (x.c % 2048)
    else if 1 < x.b then s.pcieRefuse
    else if s.host.inWaits.isEmpty then s.pcieAccess x
    else s.updHost (fun h => { h with inWaits := h.inWaits ++ [x] })

def execPcieInboundRequest (s : State) : Host.Outcome State Fault Refusal := .next (s.pcieInbound s.arg)

/-- PCIE_INTX (R458): dropped and counted. -/
def execPcieIntx (s : State) : Host.Outcome State Fault Refusal := .next (s.updHost (fun h => { h with intx := satNat (h.intx + 1) 0xFFFF }))

/-! ## Outbound -/

/-- The lowest tag that no read has (R458: 10 bits). -/
def HostCx.freeTag (h : HostCx) : Option Nat := (upFrom 0 1024).find? (fun t => !h.outReads.any (fun r => r.tag == t))

/-- PCIE_OUTBOUND (R459): an access of hart c in the outbound range reaches the link, the first 256 MiB as configuration requests, the rest
as memory requests: a write of the data, or a read of b bytes, which waits for a tag. While containment holds the link, a read gives ones,
and a write is dropped. -/
def State.pcieOut (s : State) (x : Arg) : State :=
  let config := decide (x.a < s.host.pcieBase + 2 ^ 28)
  if !s.host.outbounds x.a then s
  else if s.host.dpc then (if x.data.isEmpty then s.hartGive x.c ((upFrom 0 x.b).map (fun _ => 0xFF)) else s)
  else if !x.data.isEmpty then { s with sent := s.sent ++ [.pcieOut config x.a x.data] }
  else match s.host.freeTag with
    | none => s.updHost (fun h => { h with waits := { x with d := 0, opt := none } :: h.waits })
    | some t =>
      { s.updHost (fun h => { h with outReads := h.outReads ++ [{ tag := t, who := x.c, len := x.b }] }) with
        sent := s.sent ++ [.pcieRead config x.a x.b t] }

def execPcieOutbound (s : State) : Host.Outcome State Fault Refusal := .next (s.pcieOut s.arg)

end Sys2Proof.Machine
end

