-- ==== Sys2Proof/Machine/Save.lean ====
section
/-! DEFINITION. Quanta, the preemption point, and teams that leave and take cores: save, restore and move (R371 to R379,
R280, R281). -/

namespace Sys2Proof.Machine

/-! ## Quantum expiry -/

/-- Save slots of a context in use. -/
def State.slotsUsed (s : State) (c : Nat) : List Nat :=
  s.teams.filterMap (fun p => match p.2.place with
    | .saved k => if p.2.ctx = c then some k else none
    | _ => none)

/-- n free save slots of a context, lowest first (R374, R391). -/
def State.freeSlots (s : State) (c n : Nat) : Option (List Nat) :=
  let cfg := (s.ctx c).saveCfg
  let l := (((upFrom 0 (bits cfg 10 1)).filter (fun k => !(s.slotsUsed c).contains k))).take n
  if bit cfg 0 && l.length = n then some l else none

/-- A copy request of a team goes on while the team is away (R375). -/
def Copy.survives (c : Copy) : Bool := c.dstSpace == 0 || c.dstSpace == 4 || c.state == 2

/-- The cores that have copy requests of a team which survive a save (R375). -/
def State.survivorsOn (s : State) (tid : Nat) : List Nat :=
  ((s.copies.filter (fun p => p.2.tid == tid && p.2.survives)).map (fun p => p.2.core)).eraseDups

/-- Forwarding entries are free on some cores, as many on each as it is listed (R280). -/
def State.forwardFree (s : State) (cores : List Nat) : Bool :=
  cores.all (fun c => decide ((s.forwards.filter (fun f => f.core == c)).length + cores.count c ≤ 32))

/-- Allocate forwarding entries for a team that moves or is saved (R280, R375). -/
def State.forward (s : State) (tid : Nat) (saved : Bool) (cores : List Nat) : State :=
  { s with forwards := s.forwards ++ cores.map (fun c => { core := c, tid := tid, saved := saved, since := s.nextId }), nextId := s.nextId + 1 }

/-- A waiting gang or pair team of equal or higher priority needs the cluster or pair that some teams occupy, and another core lies
outside it (R379). -/
def State.bigWaits (s : State) (core eprio : Nat) (mates : List Nat) (other : Nat) : Bool :=
  s.waiting.any (fun w => decide (eprio ≤ w.eprio) && s.big w && (s.fitsAt w core []).isNone && s.takes w core mates
    && !(s.siteOf w core).contains other)

/-- Where a resident team fits on another core (R369, R378, R379): a gang team, or one with cluster memory, within its cluster, whose other
teams or whose memory stay. -/
def State.moveSpot (s : State) (l : Launch) (tid : Nat) (t : Team) (core : Nat) : Option Place :=
  let load := fun (c : Nat) =>
    let x := s.loadOf c [tid]
    { x with bytes := x.bytes + (if s.lentBy c [tid] = 0 && clusterOf c == clusterOf t.core then lendOf t.clusterBytes else 0) }
  if !s.allows l.ctx t.vdie core || (t.paired && !s.allows l.ctx t.vdie (core + 1))
      || ((1 < l.gang || l.cluster != 0) && clusterOf core != clusterOf t.core) then none
  else seat t.needs (some t) core (load core) (load (core + 1))

/-- The queues that had a waiting team fitting the cores of an expiry and none placed there count one bypass (R371). -/
def State.countBypasses (s : State) (cores mates : List Nat) (winner : Option Waiting) : State :=
  let key := fun (w : Waiting) => (s.launches.look w.lid).map (fun l => (l.ctx, l.queue))
  let won := winner.bind key
  let qs := ((s.fitting cores mates).filterMap key).eraseDups
  qs.foldl (fun s q =>
    if some q = won then s
    else s.updQueue q.1 q.2 (fun r =>
      if 8 ≤ r.bypass + 1 then { r with eprio := min (r.eprio + 1) 7, bypass := 0 } else { r with bypass := r.bypass + 1 })) s

/-- QUANTUM_EXPIRY (R371, R372, R374, R385): retirement and a kill come first; where a waiting team of equal or higher
priority fits, it wins the place, and no new clause of the team, or of its gang, begins until it is saved; else the counter starts again. -/
def State.quantumExpiry (s : State) (tid : Nat) : State :=
  match s.teams.look tid with
  | none => s
  | some t =>
    if t.quantum != 0 || t.expired || t.finished || !s.mayIssue t then s
    else
      let mates := s.gangMates tid
      let own := s.eprioOf (s.launchOf t)
      let best := s.bestOf (s.coresFreed mates) mates
      let wins := match best with
        | some w => decide (own ≤ w.eprio) && (s.freeSlots t.ctx mates.length).isSome && s.forwardFree (mates.flatMap s.survivorsOn)
        | none => false
      let s := s.countBypasses (s.coresHeld mates) mates (if wins then best else none)
      if wins then { s with teams := s.teams.map (fun p => (p.1, if mates.contains p.1 then { p.2 with expired := true, declined := false, behind := best.map (fun w => (w.lid, w.number)) } else p.2)) }
      else s.updTeam tid (fun t => { t with quantum := (s.ctx t.ctx).quantumClocks, declined := false })

def execQuantumExpiry (s : State) : Host.Outcome State Fault Refusal := .next (s.quantumExpiry s.arg.a)

/-! ## The preemption point -/

/-- No clause of a team is mid-issue. -/
def Team.quiet (t : Team) : Bool := t.lead.run != .running .issuing && t.formed.all (fun p => p.2.run != .issuing)

/-- The preemption point of a team (R373, R281, R307). -/
def State.preemptible (s : State) (tid : Nat) (t : Team) : Bool :=
  t.quiet
    && s.ops.all (fun p => p.2.tid != tid || !p.2.kind.matrix)
    && s.copies.all (fun p => p.2.tid != tid
        || p.2.closed || (p.2.srcSpace != 2 && p.2.srcSpace != 3 && (p.2.state == 2 || (p.2.mode != 4 && (p.2.dstSpace == 0 || p.2.dstSpace == 4)))))
    && s.slots.all (fun p => !p.2.targets.contains (some tid))

/-! ## The save slot -/

/-- Bytes of the image that a save writes from offset 0x100. The layout belongs to the hardware; this length is the
model's (log entry 24). -/
def State.imageBytes (t : Team) (gangMem : Bool) : Nat :=
  t.scratchBytes + t.size * t.privBytes + (if gangMem then t.clusterBytes else 0) + 4 * t.size * t.nregs + 4096

/-- The team control block (R377). -/
def State.controlBlock (s : State) (tid : Nat) (t : Team) (fwd gangMem : Bool) : List Byte :=
  bytesOf 4 (s.identOf t) ++ bytesOf 4 t.number ++ bytesOf 2 t.vdie ++ bytesOf 1 (t.core % 20)
    ++ bytesOf 1 (b2n t.paired + 2 * b2n t.lead.hmode + 4 * b2n (t.lead.run == .ended) + 8 * b2n fwd + 16 * b2n gangMem)
    ++ bytesOf 4 t.scratchBytes ++ bytesOf 4 t.privBytes ++ bytesOf 4 (if gangMem then t.clusterBytes else 0)
    ++ bytesOf 2 t.liveCount ++ bytesOf 2 t.warps.length ++ bytesOf 4 (s.copies.filter (fun p => p.2.tid == tid)).length
    ++ bytesOf 8 (t.saves + 1) ++ bytesOf 8 (State.imageBytes t gangMem) ++ bytesOf 208 0

/-- The parts of n bytes from a virtual address that lie in the usable bytes of successive pages, line by line; none where a page
cannot be written. -/
def State.slotParts (s : State) (c va n : Nat) : Nat → Option (List Piece)
  | 0 => none
  | k + 1 =>
    if n = 0 then some []
    else match s.walk c va with
      | .ok l =>
        let m := min n (usable l.prot - va % 2 ^ 21)
        if !l.w || l.alias_ != 0 || s.shut l || usable l.prot ≤ va % 2 ^ 21 then none
        else
          let here : List Piece := (lineParts va m).map (fun p => let h := s.place l p.1; { home := h.1, addr := h.2, len := p.2, prot := some l.prot })
          (s.slotParts c ((va / 2 ^ 21 + 1) * 2 ^ 21) (n - m) k).map (fun r => here ++ r)
      | _ => none

/-- Virtual address of a save slot (R391). -/
def Ctx.saveSlot (k : Ctx) (i : Nat) : Nat := bits k.saveCfg 51 23 * 2 ^ 23 + i * 2 ^ 23

/-! ## Save -/

/-- The kicks of a team leave the queues of some cores (R281). -/
def State.takeKicks (s : State) (cores : List Nat) (tid : Nat) : State :=
  let mine := cores.flatMap (fun c => (s.core c).kicks.filter (fun k => k.tid == tid))
  (cores.foldl (fun (s : State) c => s.updCore c (fun c => { c with kicks := c.kicks.filter (fun k => k.tid != tid) })) s).updTeam tid
    (fun t => { t with kicks := t.kicks ++ mine })

/-- The kicks that left join the tail of the queue of the core where their KICK now is, in their order (R280, R281). -/
def State.giveKicks (s : State) (tid : Nat) : State :=
  match s.teams.look tid with
  | none => s
  | some t => (t.kicks.foldl (fun (s : State) k =>
      s.updCore (((s.ops.look k.op).map (fun (o : Op) => o.core)).getD t.core) (fun c => { c with kicks := c.kicks ++ [k] })) s).updTeam tid
        (fun t => { t with kicks := [] })

/-- Monitors of a team are released at its save (R373). -/
def State.releaseMonitors (s : State) (tid : Nat) : State :=
  { s with ops := s.ops.map (fun p => (p.1,
      if p.2.tid = tid then { p.2 with lanes := p.2.lanes.map (fun a => { a with monitor := false, seen := false }) } else p.2)) }

/-- Save one team into a slot (R373 to R375, R377). -/
def State.saveTeam (s : State) (tid slot : Nat) (gangMem : Bool) : State :=
  match s.teams.look tid with
  | none => s
  | some t =>
    let fwd := s.survivorsOn tid
    let n := 256 + State.imageBytes t gangMem
    let bs := s.controlBlock tid t (!fwd.isEmpty) gangMem ++ s.freeBytes (State.imageBytes t gangMem)
    let s := { s with free := s.free + State.imageBytes t gangMem / 8 + 1 }
    let parts := (s.slotParts t.ctx ((s.ctx t.ctx).saveSlot slot) n 8).getD []
    let s := s.writePieces parts (bs.map (fun b => (b, false)))
    let s := ((s.takeKicks (s.coresHeld [tid]) tid).releaseMonitors tid).forward tid true fwd
    let s := s.updTeam tid (fun t => { t with place := .saved slot, saves := t.saves + 1, slotBytes := bs, expired := false })
    s.updCtx t.ctx (fun k => { k with saves := satNat (k.saves + 1) 0xFFFF })

/-- TEAM_SAVE (R373, R374): the team, with its gang, is saved at its preemption point, if slots and forwarding entries are
there; else it goes on with a new quantum. -/
def State.teamSave (s : State) (tid : Nat) : State :=
  match s.teams.look tid with
  | none => s
  | some t =>
    let mates := s.gangMates tid
    let ready := mates.all (fun m => match s.teams.look m with
      | some x => x.resident && x.expired && s.preemptible m x
      | none => false)
    if !s.mayIssue t || !ready then s
    else
      let rank0 := fun (m : Nat) => t.clusterBytes != 0 && ((s.teams.look m).map (fun x => x.number % max (s.launchOf t).gang 1)).getD 1 == 0
      let slots := s.freeSlots t.ctx mates.length
      let ok := match slots with
        | none => false
        | some l => s.forwardFree (mates.flatMap s.survivorsOn) && (mates.zip l).all (fun x => match s.teams.look x.1 with
          | some y => (s.slotParts y.ctx ((s.ctx y.ctx).saveSlot x.2) (256 + State.imageBytes y (rank0 x.1)) 8).isSome
          | none => false)
      let parts := (mates.zip (slots.getD [])).flatMap (fun x => match s.teams.look x.1 with
        | some y => (s.slotParts y.ctx ((s.ctx y.ctx).saveSlot x.2) (256 + State.imageBytes y (rank0 x.1)) 8).getD []
        | none => [])
      let q : State × Sending := if ok then s.schedSent t.ctx parts true else (s, Sending.go)
      if q.2 = .wait then q.1
      else if q.2 = .lost then (q.1.lostRecord (s.identOf t) t.number).killLaunch t.launch 0x0A
      else
      let s := q.1.untaint (.sched t.ctx)
      if ok then
        let cores := s.coresFreed mates
        cores.foldl State.offer ((mates.zip (slots.getD [])).foldl (fun s x => s.saveTeam x.1 x.2 (rank0 x.1)) s)
      else { s with teams := s.teams.map (fun p => (p.1,
        if mates.contains p.1 then { p.2 with expired := false, quantum := (s.ctx t.ctx).quantumClocks } else p.2)) }

def execTeamSave (s : State) : Host.Outcome State Fault Refusal := .next (s.teamSave s.arg.a)

/-! ## Taking a place -/

/-- A team takes a place: core, slot, quarters; its accesses and requests belong to the new core. -/
def State.takePlace (s : State) (tid core slot : Nat) (quarters : List Nat) : State :=
  let clock := fun (k : Nat) => (s.core k).clock
  let s := s.updTeam tid (fun t => { t with
    core := core, slot := slot
    queues := t.queues.map (fun q => (q.1, { q.2 with ents := q.2.ents.map (fun x => { x with clock := 2 ^ 64 }) }))
    warps := t.warps.map (fun h => (h.1, { h.2 with quarter := quarters.getD h.1 h.2.quarter }))
    formed := t.formed.map (fun p => (p.1, { p.2 with quarter := match p.2.threads with
      | [] => p.2.quarter
      | th :: _ => quarters.getD (t.hwOf th) p.2.quarter })) })
  match s.teams.look tid with
  | none => s
  | some t =>
    let coreOfOp := fun (o : Op) => match o.fid with
      | none => t.core
      | some _ => t.coreOf (quarters.getD (o.hws.headD 0) 0)
    let coreOfCopy := fun (c : Copy) => if t.paired && c.core % 2 = 1 then core + 1 else core
    let due := fun (o : Op) (a : Acc) => if a.poll = 0 then 0 else a.poll - clock o.core + clock (coreOfOp o)
    { s with
      ops := s.ops.map (fun p => (p.1, if p.2.tid = tid then
        { p.2 with core := coreOfOp p.2, lanes := p.2.lanes.map (fun a => { a with poll := due p.2 a }) } else p.2))
      copies := s.copies.map (fun p => (p.1, if p.2.tid = tid then { p.2 with core := coreOfCopy p.2 } else p.2)) }

/-! ## Restore -/

/-- A free value by index. -/
def freeAt (s : State) (i : Nat) : Nat := (Config.freeWord (s.free + i)).toNat

/-- A table of n free values from an index. -/
def freeTab (s : State) (w i n : Nat) : Tab (BitVec w) :=
  ((upFrom 0 n).map (fun k => (k, BitVec.ofNat w (freeAt s (i + k))))).filter (fun p => p.2 != 0)

/-- A memory whose image was changed (R377): undefined bytes, poison and presence. -/
def Space.scramble (m : Space) (s : State) (i n : Nat) : Space :=
  let marks := fun (off k : Nat) => (upFrom 0 k).filter (fun j => bit (freeAt s (i + off + j)) 0)
  { m with cells := freeTab s 8 i n, poison := marks n (n / 32), absent := if m.absent.isEmpty then [] else marks (n + n / 32) (n / 128) }

/-- Words of undefined values that a memory of n bytes takes. -/
def spaceWords (n : Nat) : Nat := n + n / 32 + n / 128

/-- A timer whose image was changed (R377). -/
def freeTimer (s : State) (i : Nat) : Timer :=
  { remain := freeAt s i % 2 ^ 32, cut := bit (freeAt s (i + 1)) 0, fired := bit (freeAt s (i + 1)) 1, armed := bit (freeAt s (i + 1)) 2 }

/-- A thread of a team whose slot was changed (R377): undefined values. -/
def Thread.scramble (th : Thread) (s : State) (i nregs priv : Nat) : Thread :=
  { th with pc := freeAt s i / 8 * 8, meet := freeAt s (i + 1) / 8 * 8, done := bit (freeAt s (i + 2)) 0, idx := 0, since := 0
            run := match freeAt s (i + 3) % 4 with
              | 0 => .ready
              | 1 => .held
              | 2 => .reforming
              | _ => .exited
            holdcnt := freeAt s (i + 4) % 2 ^ 16, pos := (upFrom 0 5).map (fun k => freeAt s (i + 5 + k)), after := []
            regs := freeTab s 32 (i + 10) nregs, priv := th.priv.scramble s (i + 10 + nregs) priv }

/-- A queue of a team whose slot was changed (R377): some entries, of undefined values. -/
def freeQueue (s : State) (i depth : Nat) : Queue :=
  { base := freeAt s i, ents := (upFrom 0 (freeAt s (i + 1) % (depth + 1))).map (fun k => { val := BitVec.ofNat 64 (freeAt s (i + 2 + k)), clock := 2 ^ 64 }) }

/-- The trap registers of a team whose slot was changed (R377). -/
def freeTrap (s : State) (i : Nat) : TrapRec :=
  { code := freeAt s i % 256, kind := freeAt s (i + 1) % 16, pclass := freeAt s (i + 2) % 4, index := freeAt s (i + 3) % 256, cls := freeAt s (i + 4) % 16
    leadf := bit (freeAt s (i + 5)) 0, clause := freeAt s (i + 6), homewarp := freeAt s (i + 7) % 2 ^ 16, quarter := freeAt s (i + 8) % 4
    partner := bit (freeAt s (i + 5)) 1, active := freeAt s (i + 9), lanes := freeAt s (i + 10), addr := freeAt s (i + 11), info := freeAt s (i + 12)
    elog := freeAt s (i + 13) % 2 ^ 32, elogNone := bit (freeAt s (i + 5)) 2 }

/-- The lead thread of a team whose slot was changed (R377), from index i on. -/
def Lead.scramble (l : Lead) (s : State) (i : Nat) : Lead :=
  { l with
    regs := freeTab s 64 i 128, pc := freeAt s (i + 128) / 8 * 8, idx := 0, header := 0, words := []
    run := if bit (freeAt s (i + 129)) 0 then .ended else .running .unfetched
    hmode := bit (freeAt s (i + 129)) 1, revived := bit (freeAt s (i + 129)) 2, timer := freeTimer s (i + 130), trap := freeTrap s (i + 132)
    resume := BitVec.ofNat 64 (freeAt s (i + 146)), retPc := freeAt s (i + 147) / 8 * 8, retIdx := freeAt s (i + 148) % 32, retWhy := none
    saves := freeTab s 64 (i + 149) 8, queue := [], stall := 0 }

/-- Words of undefined values that a lead thread takes. -/
def leadWords : Nat := 157

/-- A team whose slot software changed comes back with undefined values (R377). -/
def State.scrambleTeam (s : State) (tid : Nat) (gangMem : Bool) : State :=
  match s.teams.look tid with
  | none => s
  | some t =>
    let qs := leadWords
    let ks := qs + 5 * 258
    let ws := ks + 7
    let ms := ws + 15 * t.warps.length
    let gs := ms + spaceWords t.scratchBytes
    let ths := gs + spaceWords t.clusterBytes
    let per := 10 + t.nregs + spaceWords t.privBytes
    let s' := s.updTeam tid (fun t => { t with
      lead := t.lead.scramble s 0
      queues := (upFrom 0 5).map (fun q => (q, freeQueue s (qs + 258 * q) (queueDepth q)))
      kick := { kseal := freeAt s ks % 256, rseal := freeAt s (ks + 1) % 256, code := freeAt s (ks + 2) % 256, cause := freeAt s (ks + 3) % 256
                count := freeAt s (ks + 4) % 2 ^ 16, addr := freeAt s (ks + 5) }
      unpinned := freeAt s (ks + 6)
      scratch := t.scratch.scramble s ms t.scratchBytes
      warps := t.warps.map (fun h => (h.1, { h.2 with
        timer := freeTimer s (ws + 15 * h.1), steps := freeAt s (ws + 15 * h.1 + 2)
        masks := (upFrom 0 12).foldl (fun (m : Tab DWord) k => m.set 0 k (BitVec.ofNat 64 (freeAt s (ws + 15 * h.1 + 3 + k) % 2 ^ t.width))) [] }))
      formed := []
      threads := t.threads.map (fun p => (p.1, p.2.scramble s (ths + per * p.1) t.nregs t.privBytes)) })
    let s' := if gangMem then { s' with gangs := s'.gangs.upd t.gang (fun g => { g with mem := g.mem.scramble s gs t.clusterBytes }) } else s'
    { s' with free := s.free + ths + per * t.size }

/-- The accesses of a restored team that have not been performed translate again, its waits are checked again, and its
parties that waited for a walk execute again (R373, R378). -/
def State.rearm (s : State) (tid : Nat) : State :=
  let s := s.ops.foldl (fun s p =>
    if p.2.tid != tid then s
    else p.2.lanes.foldl (fun s a =>
      let walking := match a.phase with
        | .walk _ => true
        | _ => false
      if walking || ((a.phase == .ready || a.phase == .watching) && a.space == 0 && a.home.isSome && p.2.kind.touches) then s.rewalk p.1 p.2 a
      else if a.phase == .watching then s.updAcc p.1 a.lane (fun a => { a with phase := .ready, monitor := false, seen := false, poll := 0 })
      else s) s) s
  match s.teams.look tid with
  | none => s
  | some t => ((none :: t.formed.keys.map some)).foldl (fun (s : State) f => match s.blockedBy tid f with
    | some (.walk _ _ _) => s.wakeParty tid f
    | _ => s) s

/-- Restore one team at a place (R378); an image that the network has lost arrives poisoned (R354), and its team finds undefined values. -/
def State.restoreTeam (s : State) (tid : Nat) (p : Place) (lost : Bool) : State :=
  match s.teams.look tid with
  | none => s
  | some t =>
    let va := (s.ctx t.ctx).saveSlot (match t.place with
      | .saved k => k
      | _ => 0)
    let now := s.readPieces ((s.slotParts t.ctx va t.slotBytes.length 8).getD [])
    let s := if !lost && now.2 = t.slotBytes.map (fun b => (b, false)) then now.1 else now.1.scrambleTeam tid (t.clusterBytes != 0 && t.number % max (s.launchOf t).gang 1 == 0)
    let s := s.takePlace tid p.core p.slot p.quarters
    let s := s.updTeam tid (fun t => { t with
      place := .resident, quantum := (s.ctx t.ctx).quantumClocks, expired := false, slotBytes := [] })
    let s := (s.giveKicks tid).releaseForwards
    let s := s.copies.foldl (fun s c => if c.2.tid = tid && c.2.wait.isNone then s.goOn c.1 c.2 else s) s
    (((s.rearm tid).teamAcquires p.core t.paired).queuePlaced (s.launchOf t)).promiseKept t.launch t.number

/-- TEAM_RESTORE (R371, R378): the saved team, with its gang, is the first of those that fit at the core. -/
def State.teamRestore (s : State) (tid core : Nat) : State :=
  match s.bestAt core [], s.teams.look tid with
  | some w, some t => match w.saved with
    | some mates =>
      if mates.head? != some tid then s
      else match s.fitsAt w core [] with
        | none => s
        | some ps =>
          let parts := mates.flatMap (fun m => match s.teams.look m with
            | some y => match y.place with
              | .saved k => (s.slotParts y.ctx ((s.ctx y.ctx).saveSlot k) y.slotBytes.length 8).getD []
              | _ => []
            | none => [])
          let q := s.schedSent t.ctx parts false
          if q.2 = .wait then q.1
          else
          let s := if q.2 = .lost then (q.1.lostRecord (s.identOf t) t.number).untaint (.sched t.ctx) else q.1
          let s := { s with gangs := s.gangs.upd t.gang (fun g => if t.clusterBytes != 0 || 1 < mates.length then { g with cluster := clusterOf core } else g) }
          ((mates.zip ps).foldl (fun s x => s.restoreTeam x.1 x.2 (q.2 == .lost)) s).forget (.sched t.ctx)
    | none => s
  | _, _ => s

def execTeamRestore (s : State) : Host.Outcome State Fault Refusal := .next (s.teamRestore s.arg.a s.arg.b)

/-! ## Move -/

/-- TEAM_MOVE (R379, R280): a resident team that stands in the way of a waiting gang or pair team goes to another core of its
virtual die at its preemption point; with no forwarding entry the engine declines until the next quantum expiry. -/
def State.teamMove (s : State) (tid core : Nat) : State :=
  match s.teams.look tid with
  | none => s
  | some t =>
    let l := s.launchOf t
    let core := if t.paired then core / 2 * 2 else core
    if !t.resident || t.declined || t.finished || !s.mayIssue t || core = t.core
        || !s.preemptible tid t || !s.bigWaits t.core (s.eprioOf l) [tid] core then s
    else match s.moveSpot l tid t core with
      | some p =>
        let cores := s.coresHeld [tid]
        if !s.forwardFree cores then s.updTeam tid (fun t => { t with declined := true })
        else
          let s := ((s.takeKicks cores tid).takePlace tid p.core p.slot p.quarters).forward tid false cores
          let s := (s.teamAcquires p.core t.paired).giveKicks tid
          let s := s.updTeam tid (fun t => { t with expired := false })
          (cores.foldl State.offer (s.updCtx t.ctx (fun k => { k with moves := satNat (k.moves + 1) 0xFFFF }))).releaseForwards
      | none => s

def execTeamMove (s : State) : Host.Outcome State Fault Refusal := .next (s.teamMove s.arg.a s.arg.b)

end Sys2Proof.Machine
end

