-- ==== Sys2Proof/Machine/Snapshot.lean ====
section
/-! DEFINITION. The snapshot engines (R347 to R350): copies of granules before their first write, and the restore of a
replay. -/

namespace Sys2Proof.Machine

/-- The parts of a block in other packages. -/
def farParts (l : List (Home × Nat × Nat)) : Far :=
  l.filterMap (fun p => match p.1 with
    | .remote pkg => some (pkg, p.2.1, p.2.2)
    | _ => none)

/-- Bytes of a line part with their poison, as the snapshot engines read them at the home (R348), or as another package answered (R421). -/
def State.blockRead (s : State) (mode : Option Nat) (l : List (Home × Nat × Nat)) : State × List (Byte × Bool) :=
  let r := l.foldl (fun (r : State × List (Byte × Bool)) p =>
    match p.1 with
    | .remote pkg => match r.1.answered pkg p.2.1 p.2.2 with
      | some x => (r.1, r.2 ++ (upFrom 0 p.2.2).map (fun i => (x.1.getD i 0, bit x.2 (i / 32))))
      | none => (r.1, r.2 ++ (upFrom 0 p.2.2).map (fun _ => ((0 : Byte), true)))
    | _ =>
    let s := ((r.1.recall p.1 p.2.1 p.2.2).mixEngine none none p.1 p.2.1 p.2.2 0).through mode
    let b := s.mixRead p.1 p.2.1 (s.readHome p.1 p.2.1 p.2.2)
    (b.1.afterRead p.1 p.2.1 p.2.2, r.2 ++ b.2.zip ((upFrom p.2.1 p.2.2).map (fun a => b.1.poisonAt p.1 a 1)))) (s, [])
  (r.1.through none, r.2)

/-- Write bytes with their poison to line parts. -/
def State.blockWrite (s : State) (mode : Option Nat) (l : List (Home × Nat × Nat)) (bs : List (Byte × Bool)) : State :=
  (l.foldl (fun (r : State × List (Byte × Bool)) p =>
    let mine := r.2.take p.2.2
    ((((r.1.mixEngine none none p.1 p.2.1 p.2.2 0).through mode).enginePut p.1 p.2.1 (mine.map (·.1)) (mine.map (·.2))).through none, r.2.drop p.2.2)) (s, bs)).1

/-- Area offset of a granule (R347): the sizes of the earlier regions, and its offset in its own. -/
def Launch.areaOffset (l : Launch) (g : Nat) : Nat :=
  ((l.regions.take (g / 2 ^ 16)).map (·.bytes)).foldl (· + ·) 0 + g % 2 ^ 16 * 2 ^ 16

/-- Where a granule stands: its usable bytes (R339, R347) in parts by home, and the protection mode of its page. -/
def State.granuleHome (s : State) (l : Launch) (g : Nat) : Option (List (Home × Nat × Nat) × Nat × Option Nat) :=
  match l.regions[g / 2 ^ 16]? with
  | none => none
  | some r =>
    let x := r.base + g % 2 ^ 16 * 2 ^ 16
    if r.chip then match s.chipEntry l.ctx x with
      | some m => if m.ready then some ([(.chip (m.die * 64 + m.slice), x % 2 ^ 24, 2 ^ 16)], 2 ^ 16, none) else none
      | none => none
    else match s.walk l.ctx x with
      | .ok f =>
        let n := min (2 ^ 16) (usable f.prot - x % 2 ^ 21)
        some ((lineParts x n).map (fun p => let h := s.place f p.1; (h.1, h.2, p.2)), n, some f.prot)
      | _ => none

/-- Virtual address of a granule in the snapshot area (R347). -/
def Launch.areaVa (l : Launch) (g : Nat) : Nat := (l.snapAt + l.areaOffset g) % 2 ^ 52

/-- The place of n bytes of a granule in the snapshot area, in parts by home, or the fault met there (R350). -/
def State.areaHome (s : State) (l : Launch) (g n : Nat) : Except Nat (List (Home × Nat × Nat)) :=
  (pageParts (l.areaVa g) (max n 1)).foldl (fun (r : Except Nat (List (Home × Nat × Nat))) p =>
    match r, s.engineLeaf l.ctx p.1 p.2 true with
    | .error e, _ => .error e
    | _, .error e => .error e
    | .ok ps, .ok f => .ok (ps ++ (lineParts p.1 p.2).map (fun q => let h := s.place f q.1; (h.1, h.2, q.2)))) (.ok [])

/-- The protection mode of a granule's place in the area. -/
def State.areaMode (s : State) (l : Launch) (g : Nat) : Option Nat := s.engineMode l.ctx (l.areaVa g)

/-- Virtual die of a team whose write waits for a granule (R330, R348). -/
def State.granuleWanted (s : State) (lid g : Nat) : Option Nat :=
  (s.ops.findSome? (fun p => (s.teams.look p.2.tid).bind (fun t =>
    if p.2.lanes.any (fun a => !a.performed && p.2.snapTracks a && (s.uncopied t.ctx (a.space == 4) a.addr p.2.bytes).contains (lid, g)) then some t.vdie
    else none))).orElse fun _ =>
  s.copies.findSome? (fun p => (s.teams.look p.2.tid).bind (fun t =>
    if p.2.state == 1 && (p.2.dstSpace == 0 || p.2.dstSpace == 4)
        && p.2.allRuns.any (fun r => (s.uncopied t.ctx (p.2.dstSpace == 4) r.2.dst.toNat r.2.len).contains (lid, g)) then some t.vdie
    else none))

/-- Wait for the translation of the snapshot area: a record with AGENT 4 and the virtual die of the write that waits (R330, R350). The
read of a restore belongs to no access; its record names virtual die 0 (log entry 139). -/
def State.snapWalk (s : State) (lid : Nat) (l : Launch) (g : Nat) (write : Bool) : State :=
  let r := s.startWalk { ctx := l.ctx, va := l.areaVa g, core := g % 4, agent := 4, access := b2n write, launch := l.ident,
                         vdie := (s.granuleWanted lid g).getD 0 }
  r.1.updLaunch lid (fun l => { l with snapWait := some (r.2, g) })

/-- The packets by which the snapshot engine of a granule reads a block and writes another (R347, R351 to R354, R421): `go` once they have
passed and what other packages hold has come. -/
def State.snapSent (s : State) (lid g : Nat) (src dst : List (Home × Nat × Nat)) : State × Sending :=
  let q := if s.ms.asks.any (fun x => x.who == (Requester.snap lid).key) then (s, .go)
    else s.request (.snap lid) (g % 4) ((src ++ dst).filterMap (fun p => s.routerOf p.1 p.2.1)).eraseDups (s.ms.clocks.get 0 (g % 4))
  match q.2 with
  | .go => match q.1.ask (.snap lid) (farParts src) with
    | (s, some _) => (s, .go)
    | (s, none) => (s, .wait)
  | r => (q.1, r)

/-- The network has lost a packet of the snapshot engine (R354), or delivered its payload poisoned (R352): a block that it reads is poisoned,
and a write that is dropped kills the launch. -/
def State.snapBytes (s : State) (lid : Nat) (sent : Sending) (bs : List (Byte × Bool)) : State × List (Byte × Bool) :=
  let bad := sent == .lost || s.tainted (.snap lid)
  ((if sent = .lost then s.lostRecord (((s.launches.look lid).map (·.ident)).getD 0) 0 else s).untaint (.snap lid), if bad then bs.map (fun b => (b.1, true)) else bs)

/-- SNAPSHOT_COPY (R348, R350): a granule that a write waits for is copied to the snapshot area and marked copied. -/
def State.snapshotCopy (s : State) (lid g : Nat) : State :=
  match s.launches.look lid with
  | none => s
  | some l =>
    if l.snapWait.isSome || l.copied.has g || l.lost.has g || (s.granuleWanted lid g).isNone then s
    else match s.granuleHome l g with
      | none => s
      | some (ps, n, mode) => match s.areaHome l g n with
        | .error 0x08 => s.snapWalk lid l g true
        | .error _ => s.loseGranule lid g
        | .ok qs =>
          let w := s.snapSent lid g ps qs
          if w.2 = .wait then w.1
          else if w.2 = .lost && !qs.all (fun p => (s.routerOf p.1 p.2.1).all (fun d => (s.packet (g % 4) d).2)) then
            (w.1.lostRecord l.ident 0).killLaunch lid 0x0A
          else
          let b := w.1.blockRead mode ps
          let c := b.1.snapBytes lid w.2 b.2
          let s := (c.1.blockWrite (s.areaMode l g) qs c.2).forget (.snap lid)
          let s := s.updLaunch lid (fun l => { l with copied := l.copied.ins g })
          s.updCtx l.ctx (fun c => { c with snapCopied := satNat (c.snapCopied + 1) (2 ^ 32 - 1) })

def execSnapshotCopy (s : State) : Host.Outcome State Fault Refusal := .next (s.snapshotCopy s.arg.a s.arg.b)

/-- The first copied granule whose place in the area cannot be reached. -/
def State.areaFault (s : State) (l : Launch) : Option (Nat × Nat) :=
  (l.copied.filterMap (fun g => match s.granuleHome l g with
    | some (_, n, _) => match s.areaHome l g n with
      | .error c => some (g, c)
      | .ok _ => none
    | none => none)).head?

/-- The packets of a restore (R349, R351 to R354, R421). -/
def State.restoreSent (s : State) (lid : Nat) (l : Launch) : State × Sending :=
  let blocks := l.copied.filterMap (fun g => match s.granuleHome l g with
    | some (ps, n, _) => match s.areaHome l g n with
      | .ok qs => some (qs, ps)
      | .error _ => none
    | none => none)
  s.snapSent lid (l.copied.headD 0) (blocks.flatMap (·.1)) (blocks.flatMap (·.2))

/-- SNAPSHOT_RESTORE (R349): every copied granule goes back; then the launch is dispatched again as if just accepted
(R383). -/
def State.snapshotRestore (s : State) (lid : Nat) : State :=
  match s.launches.look lid with
  | none => s
  | some l =>
    if !l.restoring || l.snapWait.isSome || l.killing.isSome then s
    else match s.areaFault l with
      | some (g, 0x08) => s.snapWalk lid l g false
      | some (g, _) => s.loseGranule lid g
      | none =>
        let w := s.restoreSent lid l
        if w.2 = .wait then w.1
        else
        let s := l.copied.foldl (fun s g => match s.granuleHome l g with
          | some (ps, n, mode) => match s.areaHome l g n with
            | .ok qs =>
              let b := s.blockRead (s.areaMode l g) qs
              let c := b.1.snapBytes lid w.2 b.2
              c.1.blockWrite mode ps c.2
            | .error _ => s
          | none => s) w.1
        let s := s.forget (.snap lid)
        let s := s.updCtx l.ctx (fun c => { c with snapRestored := satNat (c.snapRestored + 1) 0xFFFF })
        (s.updLaunch lid (fun l => { l with restoring := false })).markLaunch lid 1

def execSnapshotRestore (s : State) : Host.Outcome State Fault Refusal := .next (s.snapshotRestore s.arg.a)

end Sys2Proof.Machine
end

