-- ==== Sys2Proof/Machine/Kill.lean ====
section
/-! DEFINITION. Retirement of teams and launches (R97, R364, R381), and kill, abandon and replay (R278, R318, R382, R383). -/

namespace Sys2Proof.Machine

/-! ## Retirement -/

/-- Remove a team, and the gang that has no other (R381). -/
def State.dropTeam (s : State) (tid : Nat) : State :=
  match s.teams.look tid with
  | none => s
  | some t =>
    let s := { s with
      teams := s.teams.del tid
      forwards := s.forwards.filter (fun f => f.tid != tid)
      cores := s.cores.map (fun p => (p.1, { p.2 with ports := p.2.ports.filter (fun x => x.2.1 != tid) })) }
    let l := s.launchOf t
    if (1 < l.gang || t.clusterBytes != 0) && !s.teams.any (fun p => p.2.launch == t.launch && p.2.gang == t.gang) then
      { s with gangs := s.gangs.del t.gang }
    else s

/-- Nothing of a team is still under way: copy requests, kicks, accesses, drains (R381). -/
def State.teamSpent (s : State) (tid : Nat) : Bool :=
  s.copies.all (fun p => p.2.tid != tid) && s.ops.all (fun p => p.2.tid != tid)
    && s.cores.all (fun p => p.2.kicks.all (fun k => k.tid != tid)) && s.slots.all (fun p => !p.2.targets.contains (some tid))

/-- TEAM_RETIRE (R97, R302, R381): the lead thread has ended and every thread has exited; the team gives up its slot and its
register space, and its scratchpad once its copy requests have ended. -/
def State.teamRetire (s : State) (tid : Nat) : State :=
  match s.teams.look tid with
  | none => s
  | some t =>
    let s := if t.resident && t.finished && s.mayIssue t then
        let cores := s.coresHeld [tid]
        cores.foldl State.offer (((s.updTeam tid (fun t => { t with place := .retired, formed := [], expired := false })).updMs
          (fun m => { m with pins := m.pins.filter (fun p => p.tid != tid) })).unkeepTeam tid)
      else s
    match s.teams.look tid with
    | some t => if t.place == .retired && (s.launchOf t).killing.isNone && s.teamSpent tid then s.dropTeam tid else s
    | none => s

def execTeamRetire (s : State) : Host.Outcome State Fault Refusal := .next (s.teamRetire s.arg.a)

/-- Tracking and the launch itself end; DONE may pass it (R350, R360). -/
def State.endLaunch (s : State) (lid : Nat) (l : Launch) : State :=
  { s with launches := s.launches.del lid }.doneAhead l.ctx l.queue

/-- LAUNCH_RETIRE (R364, R381): every team has retired or been skipped and nothing of the launch is under way: STATE 4, and
the signal. -/
def State.launchRetire (s : State) (lid : Nat) : State :=
  match s.launches.look lid with
  | none => s
  | some l =>
    if l.state != 3 || l.killing.isSome || !l.allSent || s.teams.any (fun p => p.2.launch == lid) then s
    else
      let s := s.markLaunch lid 4
      let s := if l.sigEn then s.updCtx l.ctx (fun k => { k with evt := k.evt.set 0 l.sigIdx (k.evt.get 0 l.sigIdx + BitVec.ofNat 64 l.sigVal) })
        else s
      s.endLaunch lid l

def execLaunchRetire (s : State) : Host.Outcome State Fault Refusal := .next (s.launchRetire s.arg.a)

/-! ## Kill -/

/-- Teams of a launch. -/
def State.teamsOf (s : State) (lid : Nat) : List Nat := (s.teams.filter (fun p => p.2.launch == lid)).map (·.1)

/-- An operation that a kill withdraws whole: it has had no effect and is not an access on its way (R383). -/
def Op.withdrawn (o : Op) : Bool :=
  match o.kind with
  | .bwait | .waita | .fence | .kick | .spawn | .step | .cctl | .timrd | .timarm => true
  | .mma | .mmas | .mmax | .mzero | .mpin | .munpin => true
  | .svc | .irq => !o.started
  | _ => o.lanes.any (fun a => match a.phase with
      | .walk _ | .absent => true
      | _ => false) && o.lanes.all (fun a => !a.performed)

/-- A lane that a kill withdraws from an operation of which other lanes have been performed. -/
def Acc.withdraw (a : Acc) : Acc :=
  match a.phase with
  | .walk _ | .absent | .watching => { a with phase := .done, monitor := false }
  | _ => a

/-- Stop a launch (R278, R383): its teams issue no more, its matrix runs and kicks are discarded, its copy requests end, its
parked accesses are withdrawn, its save slots are freed. -/
def State.stopLaunch (s : State) (lid : Nat) : State :=
  let mine := fun (tid : Nat) => (s.teamsOf lid).contains tid
  let gone := ((s.ops.filter (fun p => mine p.2.tid && p.2.withdrawn)).map (·.1))
  let s := s.killCopies mine
  let s := { s with
    teams := s.teams.map (fun p => (p.1, if p.2.launch = lid then { p.2 with place := .retired, formed := [], slotBytes := [], kicks := [], expired := false } else p.2))
    cores := s.cores.map (fun p => (p.1, { p.2 with
      ports := p.2.ports.filter (fun x => !mine x.2.1)
      arrays := p.2.arrays.map (fun a => (a.1, a.2.filter (fun id => !gone.contains id))) })) }
  let s := gone.foldl State.endOp s
  { s with ops := s.ops.map (fun p => (p.1, if mine p.2.tid then { p.2 with lanes := p.2.lanes.map Acc.withdraw } else p.2)) }

/-- Walks and fault records that no access waits for any more are withdrawn (R278, R383). -/
def State.withdrawWalks (s : State) : State :=
  s.updMs (fun m => { m with walks := m.walks.filter (fun w =>
    w.2.agent == 5
      || s.ops.any (fun p => p.2.lanes.any (fun a => a.waitsFor w.1))
      || s.parties.any (fun p => match s.blockedBy p.1 p.2 with
          | some (.walk r _ _) => r == w.1
          | _ => false)
      || s.copies.any (fun p => (p.2.wait.map (·.1)) == some w.1)
      || s.launches.any (fun p => (p.2.snapWait.map (·.1)) == some w.1)) })

/-- Mark ABANDON on one entry of a sync table, at the object's home (R383). -/
def State.abandonAt (s : State) (l : Launch) (x : Bool × Nat) : State :=
  if x.1 then match s.chipEntry l.ctx x.2 with
    | some m => if m.ready then (s.barUpdate (.chip (m.die * 64 + m.slice)) (x.2 % 2 ^ 24 / 16 * 16) .abandon).1 else s
    | none => s
  else match s.engineXlat l.ctx (x.2 / 16 * 16) 16 true with
    | .ok (.remote pkg, a) => { s with sent := s.sent ++ [.remoteAbandon pkg a] }
    | .ok (h, a) => (s.barUpdate h a .abandon).1
    | .error _ => s

/-- The end of a kill (R383): deltas combined, teams and gangs gone, ABANDON marks, the log record, and a replay or STATE 5. -/
def State.finishKill (s : State) (lid : Nat) (l : Launch) (code : Nat) : State :=
  let s := s.recallAll
  let mine := s.teamsOf lid
  let s := mine.foldl State.unkeepTeam s
  let s := s.updMs (fun m => { m with pins := m.pins.filter (fun p => !mine.contains p.tid) })
  let s := mine.foldl State.dropTeam s
  let s := s.updLaunch lid (fun l => { l with snapWait := none })
  let s := s.withdrawWalks
  let s := l.sync.foldl (fun s x => s.abandonAt l x) s
  let s := (s.ctxLog l.ctx { type := 6, severity := 3, code := code, engine := 11, launch := l.ident }).1
  let s := s.updCtx l.ctx (fun k => { k with kills := satNat (k.kills + 1) 0xFFFF })
  if code = 0x0A && l.replay && l.replays < 2 && l.lost.isEmpty then
    (s.updLaunch lid (fun l => { l with
      killing := none, restoring := true, replays := l.replays + 1, state := 1, dies := 0, teams := 0, next := [], floor := 0
      counted := false, boundaries := 0 })).soon [.event .snapshotRestore { a := lid }]
  else (s.markLaunch lid 5).endLaunch lid l

/-- LAUNCH_KILL (R382, R383): the launch stops; once every access that is still on its way has completed, a further step ends the kill,
with its marks in their place among the updates of its clock (R23). -/
def State.launchKill (s : State) (lid : Nat) : State :=
  match s.launches.look lid with
  | none => s
  | some l => match l.killing with
    | none => s
    | some code =>
      let going := s.teams.any (fun p => p.2.launch == lid && p.2.place != .retired)
      let s := s.stopLaunch lid
      if going || s.ops.any (fun p => (s.teamsOf lid).contains p.2.tid) then s else s.finishKill lid l code

def execLaunchKill (s : State) : Host.Outcome State Fault Refusal := .next (s.launchKill s.arg.a)

/-- Kill the live launches of a context that satisfy a condition (R382, R391). -/
def State.killWhere (s : State) (c : Nat) (f : Launch → Bool) : State :=
  (s.launches.filter (fun p => p.2.ctx == c && f p.2)).foldl (fun s p => s.killLaunch p.1 0x14) s

/-- CTX_KILL (R382, R391): a value that names no live launch is ignored. -/
def execCtxKillLaunch (s : State) : Host.Outcome State Fault Refusal :=
  .next (s.killWhere s.arg.a (fun l => l.ident == s.arg.b % 2 ^ 32))
def execCtxKillAll (s : State) : Host.Outcome State Fault Refusal := .next (s.killWhere s.arg.a (fun _ => true))

end Sys2Proof.Machine
end

