-- ==== Sys2Proof/Machine/Memside.lean ====
section
/-! DEFINITION. The region table (R335 to R337), scrubbing (R343), upsets of stored data (R29, R32, R341) and chip scratchpad
granules (R344 to R346). -/

namespace Sys2Proof.Machine

/-! ## Region table -/

/-- MSIDE_REGIONn_A, and _B where `half` is 1 (R337). -/
def State.regionWrite (s : State) (i half v : Nat) : State :=
  s.updMs (fun m =>
    let r := m.regions.get {} i
    { m with regions := m.regions.put i (if half = 0 then { r with a := putBits (v % 2 ^ 64) 62 61 0 } else { r with b := v % 2 ^ 15 }) })

def execMsideRegionWrite (s : State) : Host.Outcome State Fault Refusal := .next (s.regionWrite (s.arg.a % 64) s.arg.b s.arg.c)

/-- Package-local addresses of a line of a stack: the inverse of R336 in every entry that decides there. -/
def State.linesAt (s : State) (stack line : Nat) : List Nat :=
  s.ms.regions.vals.filterMap (fun r =>
    let ks := setBits r.stacks 12
    let local_ := 128 * line
    let sbase := bits r.b 14 0 * 2 ^ 21
    let stride := 2 ^ r.stride
    match ks.findIdx? (· == stack) with
    | none => none
    | some i =>
      if local_ < sbase then none
      else
        let d := local_ - sbase
        let a := r.base * 2 ^ 21 + (d / stride * ks.length + i) * stride + d % stride
        if s.region a = some r then some a else none)

/-- The physical address whose place in DRAM is x, for a record; 0 where no entry gives it. -/
def State.physOf (s : State) (x : Nat) : Nat :=
  match s.linesAt (x / 2 ^ 36) (x % 2 ^ 36 / 128) with
  | a :: _ => s.pkg * 2 ^ 43 + a + x % 128
  | [] => 0

/-! ## Errors in stored data -/

/-- The record of an error met by the memory side (R341 to R343): corrected, or uncorrected. -/
def memRecord (fixed : Bool) (addr : Nat) : LogRec :=
  { type := if fixed then 3 else 4, severity := if fixed then 1 else 3, engine := 10, address := addr }

/-- A leaf's frame, of 2 MiB or of a 1 GiB leaf, holds a physical page. -/
def leafHolds (e : Nat) (big : Bool) (frame : Nat) : Bool :=
  leafOk e big && (if big then bits e 51 30 == frame / 2 ^ 30 else bits e 51 21 == frame / 2 ^ 21)

/-- The entries of a table of n entries. -/
def State.tableEntries (s : State) (table n : Nat) : List Nat :=
  (upFrom 0 n).filterMap (fun i => match s.readEntry table i with
    | .entry e => if bit e 0 then some e else none
    | _ => none)

/-- The modes that the leaves of a context give a physical page (R326, R338). -/
def State.mappedModes (s : State) (c frame : Nat) : List Nat :=
  let root := (s.ctx c).ptRoot
  if root % 2 = 0 then []
  else (s.tableEntries (bits root 51 14 * 2 ^ 14) 2048).flatMap (fun e1 =>
    if bit e1 1 || !pointerOk e1 14 then []
    else (s.tableEntries (bits e1 51 12 * 2 ^ 12) 2048).flatMap (fun e2 =>
      if bit e2 1 then (if leafHolds e2 true frame then [bits e2 7 6] else [])
      else if !pointerOk e2 12 then []
      else (s.tableEntries (bits e2 51 12 * 2 ^ 12) 512).filterMap (fun e3 =>
        if bit e3 1 && leafHolds e3 false frame then some (bits e3 7 6) else none)))

/-- The modes under which the bytes of a line were written. -/
def State.writtenModes (s : State) (line : Nat) : List Nat := ((upFrom (128 * line) 128).filterMap s.modes.look).eraseDups

/-- The protection mode of a line in DRAM: that which the leaves of its page give it, and under which its bytes were written (R338, R340);
none where these differ, or where nothing gives one (log entry 146). -/
def State.lineMode (s : State) (line : Nat) : Option Nat :=
  let frames := (s.linesAt (line / 2 ^ 29) (line % 2 ^ 29)).map (fun a => (s.pkg * 2 ^ 43 + a) / 2 ^ 21 * 2 ^ 21)
  match (s.writtenModes line ++ frames.flatMap (fun f => s.ctxs.keys.flatMap (fun c => s.mappedModes c f))).eraseDups with
  | [p] => some p
  | _ => none

/-- A protection mode corrects what is wrong (R338): nothing, one bit in each 64-bit word, one 16-bit symbol. In a line whose mode is not
known the outcome is free. -/
def State.corrects (s : State) (mode : Option Nat) (bits line : Nat) : Bool :=
  match mode with
  | some 0 => false
  | some 1 => decide (bits ≤ 1)
  | some _ => bits == 0 || bits == 2
  | none => s.freeBit line

/-- A line is held on its base die: in the L2, or in the adder buffer (R320, R343). -/
def MemSide.holdsLine (m : MemSide) (line : Nat) : Bool := (m.l2.look line).isSome || m.adder.has line

/-- A check of stored bytes corrects what is wrong: SEC-DED of a 32-byte sector, or, in DRAM, what the page's mode gives (R31, R338,
R341). -/
def State.fixes (s : State) (h : Home) (a bits : Nat) : Bool :=
  if h = .glob && !s.ms.holdsLine (a / 128) then s.corrects (s.lineMode (a / 128)) bits (a / 128) else bits == 0

/-- An uncorrectable error poisons the sectors it is in, or, in DRAM, the four of its line (R29, R341). -/
def State.spoil (s : State) (h : Home) (a n : Nat) : State :=
  if h = .glob && !s.ms.holdsLine (a / 128) then s.updSpace h (fun m => m.markPoison (a / 128 * 128) 128) else s.updSpace h (fun m => m.markPoison a n)

/-- The context whose error log takes a boundary's record for data of a home (R32), with the team that it names, if one does; none for
the memory side. -/
def State.ownerOf (s : State) : Home → Option (Nat × Option Team)
  | .priv tid _ => (s.teams.look tid).map (fun t => (t.ctx, some t))
  | .scratch tid => (s.teams.look tid).map (fun t => (t.ctx, some t))
  | .cluster g => (s.teams.find? (fun p => p.2.gang == g && p.2.clusterBytes != 0)).map (fun p => (p.2.ctx, some p.2))
  | .chip k => (s.ctxs.find? (fun p => p.2.chipMap.any (fun e => e.2.valid && e.2.die * 64 + e.2.slice == k))).map (fun p => (p.1, none))
  | _ => none

/-- A record in the log of the context that owns data, or in the package's (R32, R342). -/
def State.ownerLog (s : State) (owner : Option (Nat × Option Team)) (r : LogRec) : State :=
  match owner with
  | some (c, some t) => (s.ctxLog c { r with vdie := t.vdie, core := t.core % 20, team := t.number, launch := s.identOf t }).1
  | some (c, none) => (s.ctxLog c r).1
  | none => s.pkgLog r

/-- An upset of stored bytes found by a check (R29, R32, R341): corrected, or poison; a record goes to the owning context's log, or to
the package's. -/
def State.memUpset (s : State) (h : Home) (a n bits : Nat) : State :=
  let fixed := s.fixes h a bits
  let s := (if fixed then s else s.spoil h a n).drawn
  s.ownerLog (s.ownerOf h) (memRecord fixed (match h with
    | .glob => s.physOf a
    | _ => a))

/-- An upset in a sector of a core's L1 line, found at the register file's boundary (R31, R32): corrected, or the sector is poisoned. -/
def State.l1Upset (s : State) (core line sector bits ctx : Nat) : State :=
  match (s.core core).l1.look line with
  | none => s
  | some l =>
    let s := if bits = 0 then s else s.updCore core (fun k => { k with l1 := k.l1.put line { l with poison := l.poison.ins (sector % 4) } })
    (s.ctxLog ctx { memRecord (bits = 0) (s.physOf (128 * line + 32 * (sector % 4))) with core := core % 20 }).1

/-- An upset in a sector of a Saddle chunk buffer (R31, R32). -/
def State.chunkUpset (s : State) (p i n sector bits : Nat) : State :=
  match (s.port p).chunks.look i with
  | none => s
  | some x =>
    if x.nodes.length ≤ n then s
    else
      let s := if bits = 0 then s else s.updPort p (fun q => { q with
        chunks := q.chunks.put i { x with nodes := x.nodes.modify n (fun y => { y with poison := Nat.lor y.poison (2 ^ (sector % 32)) }) } })
      (s.ctxLog (Sys2Proof.bits (s.sad.colls.get {} x.coll).cfg 23 12) { memRecord (bits = 0) 0 with engine := 12 }).1

/-- MSIDE_SCRUB.LINEGAP of a base die; 4,096 at reset (R343). -/
def MemSide.gap (m : MemSide) (die : Nat) : Nat := m.linegap.get 4096 die

/-- SCRUB_READ (R343): the next line of a stack, with what the outside says is wrong in it: 0 nothing, else 1 more than the bits of an
upset. A line held in the L2 or in the adder buffer is skipped. -/
def State.scrubRead (s : State) (stack outcome : Nat) : State :=
  let die := stack / 3
  if s.ms.gap die = 0 then s
  else
    let line := s.ms.scrubPos.get 0 stack
    let at_ := stack * 2 ^ 29 + line
    let s := s.updMs (fun m => { m with scrubPos := m.scrubPos.set 0 stack ((line + 1) % 2 ^ 29) })
    if outcome = 0 || s.ms.holdsLine at_ then s
    else if s.fixes .glob (128 * at_) (outcome - 1) then
      (s.drawn.updMs (fun m => { m with corr := m.corr.set 0 die (satNat (m.corr.get 0 die + 1) 0xFFFF) })).pkgLog (memRecord true (s.physOf (128 * at_)))
    else
      let s := s.drawn.updMs (fun m => { m with uncorr := m.uncorr.set 0 die (satNat (m.uncorr.get 0 die + 1) 0xFFFF) })
      (s.spoil .glob (128 * at_) 128).pkgLog (memRecord false (s.physOf (128 * at_)))

def execScrubRead (s : State) : Host.Outcome State Fault Refusal := .next (s.scrubRead s.arg.a s.arg.b)

/-! ## Chip scratchpad -/

/-- An entry of CTX_CHIP_MAP. -/
def Ctx.chip (k : Ctx) (g : Nat) : ChipMap := k.chipMap.get {} g
def State.updChip (s : State) (c g : Nat) (f : ChipMap → ChipMap) : State :=
  s.updCtx c (fun k => { k with chipMap := k.chipMap.put g (f (k.chip g)) })

/-- The slice of an entry, as base die × 64 + slice. -/
def ChipMap.key (m : ChipMap) : Nat := m.die * 64 + m.slice

/-- An access in flight reaches a slice. -/
def State.sliceBusy (s : State) (k : Nat) : Bool :=
  s.ops.any (fun p => p.2.lanes.any (fun a => (a.home.map (·.1)) == some (.chip k) && a.phase != .done))

/-- Slices that no valid entry names return to the L2 once their accesses have completed (R345). -/
def State.returnSlices (s : State) : State :=
  { s with chips := s.chips.filter (fun p => s.sliceBusy p.1 || s.ctxs.any (fun c => c.2.chipMap.any (fun e => e.2.valid && e.2.key == p.1))) }

/-- Clearing VALID (R345): the entry serves no new access. -/
def State.uncarve (s : State) (c g : Nat) : State :=
  (s.updChip c g (fun m => { m with valid := false, ready := false })).returnSlices

/-- UNCARVE (R345): VALID is cleared, or was before: slices whose last access has completed return to the L2. -/
def execUncarve (s : State) : Host.Outcome State Fault Refusal := .next (s.uncarve s.arg.a s.arg.b)

/-- Lines of the L2 that a slice holds are written back and invalidated when it is carved (R345). -/
def State.emptySlice (s : State) (k : Nat) : State :=
  s.updMs (fun m => { m with l2 := m.l2.filter (fun l => s.homeSlice (128 * l.1) != some k) })

/-- CARVE (R345, R346): a write of CTX_CHIP_MAPg. Setting VALID carves the slice, or is refused with CONFLICT; a carved entry
that names another slice gives the first one back. -/
def State.carve (s : State) (c g v : Nat) : State :=
  let s := if bit v 10 then s.updChip c g (fun m => { m with conflict := false }) else s
  let new : ChipMap := { die := v % 4, slice := bits v 7 2, valid := true, conflict := ((s.ctx c).chip g).conflict }
  let old := (s.ctx c).chip g
  if !bit v 8 then
    let s := if old.valid then s.uncarve c g else s
    s.updChip c g (fun m => { m with die := new.die, slice := new.slice })
  else if old.valid && old.key == new.key then s
  else if s.carved new.key || decide (16 ≤ (s.chips.filter (fun p => p.1 / 64 == new.die)).length) then
    s.updChip c g (fun m => { m with conflict := true })
  else
    let s := if old.valid then s.uncarve c g else s
    ({ s.emptySlice new.key with chips := s.chips.put new.key {} } : State).updChip c g (fun _ => new)

def execCarve (s : State) : Host.Outcome State Fault Refusal := .next (s.carve s.arg.a s.arg.b s.arg.c)

/-- CARVE_COMPLETE (R345): holders recalled, pins ended, bytes zero and clean, READY; the accesses that waited go on
(R344). -/
def State.carveComplete (s : State) (c g : Nat) : State :=
  let m := (s.ctx c).chip g
  if !m.valid || m.ready then s
  else
    let s := s.recallAll.updMs (fun x => { x with pins := x.pins.filter (fun p => p.slice != m.key) })
    let s := { s with chips := s.chips.put m.key {} }.updChip c g (fun m => { m with ready := true })
    { s with ops := s.ops.map (fun p => (p.1,
        if ((s.teams.look p.2.tid).map (·.ctx)) = some c then
          { p.2 with lanes := p.2.lanes.map (fun a =>
              if a.space = 4 && a.home.isNone && a.addr / 2 ^ 24 = g then { a with home := some (.chip m.key, a.addr % 2 ^ 24) } else a) }
        else p.2)) }

def execCarveComplete (s : State) : Host.Outcome State Fault Refusal := .next (s.carveComplete s.arg.a s.arg.b)

end Sys2Proof.Machine
end

