-- ==== Sys2Proof/Machine/Remote.lean ====
section
/-! DEFINITION. Operations between packages (R421, R422): what this package's homes do for another package, and the answers
and losses of its own operations. -/

namespace Sys2Proof.Machine

/-- A remote operation as it arrives (R421): the address; what it does; SIZE, AOP, ATYPE and E; its operands. -/
structure RemoteReq where
  addr : Nat
  code : Nat
  size : Nat := 0
  aop : Nat := 0
  atype : Nat := 0
  e : Nat := 0
  data : Nat := 0
  data2 : Nat := 0
  bytes : List Byte := []
  /-- The operand bytes arrived poisoned, by 32-byte sectors (R29, R420). -/
  bad : Nat := 0
  deriving DecidableEq, Repr

/-- What a remote operation does to an old value of its bytes: the new value, if it writes (R224 to R227, R321). -/
def RemoteReq.new (q : RemoteReq) (old : Nat) : Option Nat :=
  let far := fun (k : OpKind) => some (Op.farNew {
    kind := k, tid := 0, fid := none, core := 0, hws := [], counter := none, clause := 0, index := 0, cls := 0, pclass := 0, size := q.size, atype := q.atype, e := q.e } old q.data)
  match q.code with
  | 2 => some (atomNew q.aop (q.atype == 1) (8 * 2 ^ q.size) old q.data)
  | 3 => if old = q.data then some q.data2 else none
  | 4 =>
    let d := if q.atype = 4 then let x := toX128 (f32.val q.data) (sext q.e 7); mkSlot x.1 x.2.1 x.2.2 else q.data
    some (DeltaKind.combine { aop := q.aop, atype := q.atype, size := q.size, e := q.e } old d)
  | 5 => far .racc
  | 6 => far .raccx
  | _ => none

/-- The barrier update that a remote operation asks for (R22, R232). -/
def RemoteReq.upd (q : RemoteReq) : BarUpd :=
  match q.aop with
  | 0 => .init (q.data % 4096) q.data2
  | 1 => .arrive
  | 2 => .expectArrive q.data
  | 3 => .expect q.data
  | 4 => .drop
  | 5 => .credit q.data (bit q.data2 0) (bit q.data2 1)
  | 6 => .error
  | _ => .abandon

/-- Bytes of a remote operation. -/
def RemoteReq.len (q : RemoteReq) : Nat :=
  if q.code = 1 then q.bytes.length else if 6 ≤ q.code && q.code ≤ 9 then 16 else 2 ^ q.size

/-- The bytes of a remote read with their poison, line by line (R335, R336). -/
def State.remoteRead (s : State) (q : RemoteReq) : State × List (Byte × Bool) :=
  (lineParts q.addr q.len).foldl (fun (r : State × List (Byte × Bool)) p =>
    let x := r.1.loc p.1
    let s := (r.1.recall .glob x p.2).mixEngine none none .glob x p.2 0
    let b := s.mixRead .glob x (s.readHome .glob x p.2)
    (b.1.afterRead .glob x p.2, r.2 ++ b.2.zip ((upFrom x p.2).map (fun y => b.1.poisonAt .glob y 1)))) (s, [])

/-- A remote write at its home, line by line, with its poison (R29, R420). -/
def State.remoteWrite (s : State) (q : RemoteReq) (bs : List Byte) : State :=
  (lineParts q.addr bs.length).foldl (fun (s : State) p =>
    let x := s.loc p.1
    (s.mixEngine none none .glob x p.2 0).enginePut .glob x ((bs.drop (p.1 - q.addr)).take p.2)
      ((upFrom (p.1 - q.addr) p.2).map (fun i => bit q.bad (i / 32)))) s

/-- A remote operation at its home slice (R421): the bytes that answer it, with their poison by sectors. Codes: 0 read, 1 write, 2
ATOM, 3 ACAS, 4 RED, 5 RACC, 6 RACCX, 7 RFOLD, 8 RCLR, 9 a barrier update. The register windows are no memory, and only the package's
own harts reach them (R449); nor does another package write the dump (R468). -/
def State.remoteAt (s : State) (q : RemoteReq) : State × List Byte × Nat :=
  let n := q.len
  let x := s.loc q.addr
  if inWindows q.addr || inWindows (q.addr + n - 1) || (!([0, 7].contains q.code) && s.host.inDump (s.pkg * 2 ^ 43 + q.addr) n) then (s.drawn, if q.code = 1 || q.code = 4 || q.code = 8 then [] else (upFrom 0 n).map s.freeByte, b2n ([0, 2, 3, 7, 9].contains q.code))
  else if q.code = 0 then
    let r := s.remoteRead q
    (r.1, r.2.map (·.1), poisonOf r.2)
  else if q.code = 1 then (s.remoteWrite q q.bytes, [], 0)
  else
    let s := (s.recall .glob x n).mixEngine none none .glob x n 0 (if 5 ≤ q.code && q.code ≤ 8 then 5 else 0)
    let s := if 5 ≤ q.code && q.code ≤ 8 then s.intoAdder x else s
    let poisoned := s.poisonAt .glob x n
    let old := natOf (s.readHome .glob x n)
    let s := s.afterRead .glob x n
    if q.bad != 0 && q.code ≤ 6 then
      if q.code ≤ 3 then (s, bytesOf n 0, 1) else (s.updSpace .glob (fun m => m.markPoison x n), [], b2n (q.code != 4))
    else match q.code with
    | 7 => (s, bytesOf 4 (foldX128 old (sext q.e 7) (if q.size = 2 then f32 else b16)), b2n poisoned)
    | 8 => (s.writeHome .glob x (bytesOf 16 0), [], 0)
    | 9 =>
      if q.bad != 0 then (s, bytesOf 4 0, 1)
      else
        let r := s.barUpdate .glob x q.upd
        (r.1, bytesOf 4 (b2n r.2.1), b2n r.2.2)
    | _ =>
      if poisoned then (s, bytesOf n 0, b2n (q.code < 4))
      else match q.new old with
        | some v => (s.writeHome .glob x (bytesOf n v), bytesOf n old, 0)
        | none => (s, bytesOf n old, 0)

/-- REMOTE_OPERATION (R421): operands are the package-local address (a), the code (b), SIZE + 16 AOP + 256 ATYPE + 4096 E (c),
the requester's package (d) and tag (opt), and the operand bytes with their poison: 16 of the first, 16 of the second, or those of a
write. -/
def State.remoteOperation (s : State) (x : Arg) : State :=
  let r := s.remoteAt {
    addr := x.a, code := x.b, size := x.c % 16, aop := x.c / 16 % 16, atype := x.c / 256 % 16, e := x.c / 4096,
    data := natOf (x.data.take 16), data2 := natOf ((x.data.drop 16).take 16), bytes := x.data, bad := x.poison }
  { r.1 with sent := r.1.sent ++ [.response x.d (x.opt.getD 0) r.2.1 r.2.2] }

def execRemoteOperation (s : State) : Host.Outcome State Fault Refusal := .next (s.remoteOperation s.arg)

/-- What an operation's lane gets from the bytes of an answer. -/
def Op.answer (o : Op) (a : Acc) (data : List Byte) : Nat :=
  match o.kind with
  | .btest =>
    let b := Bar.ofWords (natOf (data.take 4)) (natOf ((data.drop 4).take 4))
    (b.status a.data).1 + b2n (b.phase == (a.data % 2 == 1))
  | _ => natOf data

/-- An answer for a waiting lane (R233, R236, R237): it ends, or reads again after 256 clocks. -/
def State.remotePoll (s : State) (id lane : Nat) (o : Op) (a : Acc) (data : List Byte) : State :=
  let r := if o.kind = .waita then (natOf (data.take (2 ^ o.size)), o.condMet (natOf (data.take (2 ^ o.size))) a.data)
    else (Bar.ofWords (natOf (data.take 4)) (natOf ((data.drop 4).take 4))).status a.data
  let p := s.packet 4 (baseOf (dieOf o.core))
  if !p.2 then p.1.updAcc id lane (fun a => { a with retries := a.retries + 1, net := 0, poll := (s.core o.core).clock + 1024 })
  else
  let s := p.1
  if r.2 then s.endLane id lane o a r.1
  else if s.ms.invalBusy && s.usesOld o a then s.rewalk id o a
  else
    let s := if a.read && o.kind == .waita then s.updCore o.core (fun c => { c with reread := satNat (c.reread + 1) 0xFFFF }) else s
    let s := if a.read then s else s.updCore o.core (fun c => { c with polled := satNat (c.polled + 1) 0xFFFF })
    s.updAcc id lane (fun a => { a with phase := .watching, result := r.1, read := true, net := 0, poll := (s.core o.core).clock + 256 })

/-- An answer, or an acknowledgement, reaches the lane that sent an operation to another package; while its team is saved a
waiting lane reads again later (R373). -/
def State.remoteAnswer (s : State) (id lane : Nat) (data : List Byte) (poisoned : Bool) : State :=
  match s.ops.look id with
  | none => s
  | some o => match o.lanes.find? (fun a => a.lane == lane && a.phase == .away) with
    | none => s
    | some a =>
      if o.kind == .bwait || o.kind == .waita then
        if (s.liveOp id).isNone then s.updAcc id lane (fun a => { a with phase := .ready })
        else if poisoned then s.poisonOp id else s.remotePoll id lane o a data
      else
        let s := s.setAcc id lane .applied (o.answer a data) poisoned
        if o.kind.far && (s.liveOp id).isSome then s.farAnswered id else s

/-- READ_RESPONSE (R421): an answer for lane b of operation a, poisoned if c is 1; with opt, the 8 bytes of code at that
physical address for core a (R30); with d = 1, the acknowledgement of the piece of copy request a at offset b (R260); with d = 2, the answer
to the a-th read that an engine has sent, with its poisoned sectors in c; with d = 3, the answer to the credit of hart a, which failed if c
is 1 (R463); with d = 4, the answer to a store or an atomic of hart a (R448); with d = 5, the acknowledgement of a store of Awl a (R432). -/
def execReadResponse (s : State) : Host.Outcome State Fault Refusal :=
  .next (match s.arg.opt with
    | some x => s.codeCame s.arg.a x (s.arg.data.take 8) (s.arg.c == 1)
    | none => if s.arg.d = 1 then s.pieceLanded s.arg.a s.arg.b
      else if s.arg.d = 2 then s.askAnswered s.arg.a s.arg.data s.arg.c
      else if s.arg.d = 3 then s.creditAnswered s.arg.a (s.arg.c == 1)
      else if s.arg.d = 4 then s.hartAnswered s.arg.a s.arg.data
      else if s.arg.d = 5 then s.awlAnswered s.arg.a
      else s.remoteAnswer s.arg.a s.arg.b s.arg.data (s.arg.c == 1))

/-- Operations that only read. -/
def OpKind.reads : OpKind → Bool
  | .ld | .ldq | .prsq | .btest | .bwait | .waita | .rfold => true
  | _ => false

/-- A remote operation is lost (R422): a read returns poisoned bytes; a write or an atomic is dropped, and its launch is
killed with 0x0A (R354). -/
def State.loseRemote (s : State) (id lane : Nat) : State :=
  match s.ops.look id with
  | none => s
  | some o => match o.lanes.find? (fun a => a.lane == lane && a.phase == .away), s.teams.look o.tid with
    | some _, some t =>
      let s := s.pkgLog { type := 4, severity := 3, engine := 10, code := 0x0A, launch := s.identOf t, team := t.number }
      if o.kind.reads then s.remoteAnswer id lane [] true
      else (s.setAcc id lane .applied 0 false).killLaunch t.launch 0x0A
    | _, _ => s

/-- TRANSPORT_EXHAUSTED (R422): a is 0 for lane c of operation b; 1 for bytes or credits that a copy request of team b
sent; 2 for a collective packet; 3 for a put of send b; 4 for a fetch of code by team b; 5 for the b-th read that an engine has sent; 6 for the credit of hart b; 7 for a store or an atomic of
hart b; 8 for a store of Awl b. -/
def State.exhausted (s : State) (what x lane : Nat) : State :=
  let kill := fun (s : State) => match s.teams.look x with
    | some t => s.killLaunch t.launch 0x0A
    | none => s
  match what with
  | 0 => s.loseRemote x lane
  | 1 => kill s
  | 3 => s.ackPut x true
  | 4 => kill s
  | 5 => (s.lostRecord 0 0).askAnswered x [] (2 ^ 65536 - 1)
  | 6 => (s.lostRecord 0 0).creditAnswered x true
  | 7 => (s.lostRecord 0 0).hartAnswered x []
  | 8 => (s.lostRecord 0 0).awlAnswered x
  | _ => s

def execTransportExhausted (s : State) : Host.Outcome State Fault Refusal := .next (s.exhausted s.arg.a s.arg.b s.arg.c)

end Sys2Proof.Machine
end

