-- ==== Sys2Proof/Machine/WindowRead.lean ====
section
/-! DEFINITION. The register windows as they read (R449 to R452). Offsets count from 0x7F0_0000_0000. -/

namespace Sys2Proof.Machine

/-- SRD numbers of context-wide registers (R80, R81, R121, R241, R346, R350, R391). -/
def ctxSrd (n : Nat) : Bool :=
  (decide (0x100 ≤ n) && decide (n ≤ 0x108)) || n == 0x10A || n == 0x150 || n == 0x151 || n == 0x160 || n == 0x161
    || (decide (0x200 ≤ n) && decide (n ≤ 0x2FF))

/-- An entry of CTX_CHIP_MAP as it reads (R346). -/
def ChipMap.word (m : ChipMap) : Nat := m.die + 4 * m.slice + 256 * b2n m.valid + 512 * b2n m.ready + 1024 * b2n m.conflict

/-- A register of a queue by its offset (R391). -/
def QueueRegs.word (r : QueueRegs) (off : Nat) : Nat :=
  match off with
  | 0x00 => r.cfg
  | 0x08 => r.write
  | 0x10 => r.disp
  | 0x18 => r.done
  | 0x20 => r.eprio + 8 * r.bypass
  | _ => 0

def State.ctxWindow (s : State) (c o : Nat) : Nat :=
  let k := s.ctx c
  if o < 0x4000 then (if ctxSrd (o / 8) then k.reg (o / 8) else 0)
  else if o = 0x4000 then k.ptRoot
  else if o = 0x4008 then k.saveCfg
  else if 0x4100 ≤ o && o < 0x4140 then k.vdieMap.get 0 ((o - 0x4100) / 8)
  else if 0x4140 ≤ o && o < 0x4180 then k.vdieCores.get 0xFFFFF ((o - 0x4140) / 8)
  else if 0x4200 ≤ o && o < 0x4400 then (k.chipMap.get {} ((o - 0x4200) / 8)).word
  else if 0x5000 ≤ o && o < 0x6000 then (k.queues.get {} ((o - 0x5000) / 64)).word (o % 64)
  else if 0x6000 ≤ o && (o - 0x6000) / 8 < 2 + k.irqCount then k.msi.get 0 ((o - 0x6000) / 8)
  else 0

/-- The resident team of a slot of a core. -/
def State.teamAt (s : State) (core slot : Nat) : Option (Nat × Team) := s.teams.find? (fun p => p.2.resident && p.2.core == core && p.2.slot == slot)

/-- SRD number of a per-team register by its offset in a slot's window. -/
def slotSrd (o : Nat) : Nat := if o / 8 < 0x10 then o / 8 else 0x100 + o / 8

/-- The core that an offset of the core windows names; none for a core that does not exist for software (R14). -/
def State.coreAt (s : State) (o : Nat) : Option Nat :=
  let d := o / 0x200000
  let k := o % 0x200000 / 0x10000
  if d < 8 && k < 20 && s.hdie != some d then some (20 * d + k) else none

def State.coreWindow (s : State) (o : Nat) : Nat :=
  match s.coreAt o with
  | none => 0
  | some core =>
    let r := o % 0x10000
    if r < 0x8000 then (if coreRegs (r / 8) then s.coreReg core (r / 8) else 0)
    else match s.teamAt core ((r - 0x8000) / 0x800) with
      | none => 0
      | some (_, t) => if teamRegs (slotSrd (r % 0x800)) then t.leadReg (slotSrd (r % 0x800)) else 0

/-- MSIDE_NET_STAT of a base die (R356). -/
def MemSide.netStat (m : MemSide) (b : Nat) : Nat :=
  b2n (!m.down.has (4 * b + 1)) + 2 * b2n (!m.down.has (4 * b + 2)) + 4 * b2n (!m.down.has (4 * b + 3))
    + 2 ^ 16 * m.rerouted.get 0 b + 2 ^ 32 * m.retried.get 0 b

def State.memWindow (s : State) (o : Nat) : Nat :=
  let m := s.ms
  let b := o / 0x1000000
  if b < 4 then
    match o % 0x1000000 with
    | 0 => m.gap b + 2 ^ 32 * m.corr.get 0 b + 2 ^ 48 * m.uncorr.get 0 b
    | 8 => m.netStat b
    | _ => 0
  else if b = 4 then
    let r := o % 0x1000000
    match r with
    | 0x00 => m.xfqBase
    | 0x08 => m.xfqHead
    | 0x10 => m.xfqTail
    | 0x20 => m.invalVa * 2 ^ 21
    | 0x28 => m.invalCtx + 2 ^ 12 * m.invalPages + 2 ^ 29 * b2n m.invalBusy + 2 ^ 30 * b2n m.invalDone + 2 ^ 31 * b2n m.invalMsien
    | _ =>
      if 0x1000 ≤ r && r < 0x1400 then
        let e := m.regions.get {} ((r - 0x1000) / 16)
        if r % 16 = 0 then e.a else e.b
      else 0
  else 0

def KeySlot.word (k : KeySlot) : Nat := k.job + 2 ^ 16 * b2n k.valid

/-- A double word of a triggered send as it reads (R416): the image with CTL as it stands. -/
def Send.word (x : Send) (o : Nat) : Nat :=
  if o = 0 then putBits (x.field 0 8) 23 16 x.ctl else x.field o 8

def State.saddleWindow (s : State) (o : Nat) : Nat :=
  if 0x100000 ≤ o && o < 0x108000 then
    let c := s.coll ((o - 0x100000) / 32)
    match o % 32 with
    | 0x00 => c.cfg
    | 0x08 => c.win
    | 0x10 => c.tab
    | _ => c.late + 2 ^ 16 * c.errs
  else if 0x200000 ≤ o && o < 0x204000 then
    let k := (o - 0x200000) / 256
    let r := o % 256
    if r = 0 then (s.sad.keys.get {} k).word
    else if 0x40 ≤ r && r < 0x80 then s.sad.trust.get 0 (8 * k + (r - 0x40) / 8)
    else if 0x80 ≤ r && r < 0xC0 then s.sad.path.get 0 (8 * k + (r - 0x80) / 8)
    else 0
  else if 0x300000 ≤ o && o < 0x310000 then
    let c := s.ctr ((o - 0x300000) / 16)
    if o % 16 = 0 then c.val.toNat else c.job + 2 ^ 16 * c.owner + 2 ^ 21 * b2n c.en
  else if 0x400000 ≤ o && o < 0x480000 then (s.send ((o - 0x400000) / 64)).word (o % 64)
  else if 0x500000 ≤ o && o < 0x500000 + 64 * 22 then
    let p := s.port ((o - 0x500000) / 64)
    match o % 64 with
    | 0 => b2n p.run
    | 8 => p.unmatched + 2 ^ 16 * p.ucerr + 2 ^ 32 * p.dup
    | _ => 0
  else if 0x600000 ≤ o && o < 0x600000 + 0x100 * 22 then
    let n := (o - 0x600000) / 0x100
    (s.awl n).reg (s.awlParked n) (o % 0x100)
  else 0

def HostCredit.word (c : HostCredit) : Nat :=
  c.ctx + 2 ^ 12 * c.bytes + 2 ^ 28 * b2n c.err + 2 ^ 30 * b2n c.going.isSome + 2 ^ 31 * b2n c.failed

def State.hostWindow (s : State) (o : Nat) : Nat :=
  let h := s.host
  match o with
  | 0x000 => s.pkg + 2 ^ 9 * b2n s.hdie.isSome + 2 ^ 10 * s.hdie.getD 0
  | 0x008 => h.stage + 8 * b2n h.fail
  | 0x010 => h.bootDest
  | 0x018 => b2n h.lock
  | 0x020 => h.mgmtPages + h.mgmtBase
  | 0x028 => h.dumpBase
  | 0x030 => 2 * b2n h.stopped + 4 * b2n h.dumped + 256 * h.fatalCause
  | 0x038 => h.wdog
  | 0x040 => s.msiDropped
  | 0x100 => 0x7FF
  | 0x110 => h.ack0.toNat
  | 0x118 => h.ack1.toNat
  | 0x120 => 2 * h.featStatus
  | 0x200 => h.limit + 2 ^ 12 * h.floor
  | 0x208 => h.watts + 2 ^ 12 * b2n h.clamp + 2 ^ 16 * h.tmax
  | 0x500 => h.pcieBase + 2 ^ 52 * h.pcieLog2
  | 0x508 => h.ur + 2 ^ 16 * h.intx + 2 ^ 32 * b2n h.plock
  | 0x2008 => s.elogBase
  | 0x2010 => s.elogHead
  | 0x2018 => s.elogTail
  | 0x2020 => s.elogLost + s.elogThresh * 2 ^ 17 + b2n s.elogMsien * 2 ^ 19
  | _ =>
    if 0x300 ≤ o && o < 0x3A0 then
      let c := s.hostCredit ((o - 0x300) / 16)
      if o % 16 = 0 then c.va.toNat else c.word
    else if 0x400 ≤ o && o < 0x500 then
      let w := h.inwin.get {} ((o - 0x400) / 32)
      match o % 32 with
      | 0x00 => w.bus * 4096
      | 0x08 => w.pages * 4096 + 2 ^ 52 * b2n w.rd + 2 ^ 53 * b2n w.wr
      | 0x10 => w.phys * 4096
      | _ => 0
    else if 0x1000 ≤ o && o < 0x1020 then s.msiTab.get 0 ((o - 0x1000) / 8)
    else 0

/-- The register at an offset of the windows; an offset that names none reads 0 (R449). -/
def State.windowRead (s : State) (o : Nat) : Nat :=
  match o / 2 ^ 32 with
  | 0 => if o < 0x10000000 then s.ctxWindow (o / 0x10000) (o % 0x10000) else 0
  | 1 => s.coreWindow (o % 2 ^ 32)
  | 2 => s.memWindow (o % 2 ^ 32)
  | 3 => s.saddleWindow (o % 2 ^ 32)
  | 4 => s.hostWindow (o % 2 ^ 32)
  | _ => 0

end Sys2Proof.Machine
end

