-- ==== Sys2Proof/Machine/Dump.lean ====
section
/-! DEFINITION. What the package has measured of itself (R455), and the dump that management firmware writes after a fatal error (R467,
R468). -/

namespace Sys2Proof.Machine

/-! ## Measurements -/

/-- Bytes of the stores and match tables of every port (measurement 4). -/
def State.measure4 (s : State) : List Byte :=
  (upFrom 0 22).flatMap (fun p =>
    ((s.port p).store.flatMap (fun w => bytesOf 2 w.1 ++ bytesOf 4 w.2.toNat)) ++ ((s.port p).table.flatMap (fun w => bytesOf 2 w.1 ++ bytesOf 8 w.2.toNat)))

/-- Bytes of measurement 6 (R455). -/
def State.measure6 (s : State) : List Byte :=
  s.host.fuses.rsa.flatMap (fun k => bytesOf 48 k.toNat) ++ s.host.fuses.slh.flatMap (fun k => bytesOf 48 k.toNat)
    ++ s.host.fuses.secver.flatMap (bytesOf 8) ++ bytesOf 8 (s.hostWindow 0x000) ++ bytesOf 8 (s.hostWindow 0x018)

/-- The digests of measurements 1 to 6 (R455). -/
def State.measurements (s : State) : List (BitVec 384) :=
  [s.host.measured.getD 0 0, s.host.measured.getD 1 0, s.host.measured.getD 2 0, Config.sha384 s.measure4, Config.sha384 s.measure5,
   Config.sha384 s.measure6]

/-- The SHA-384 digest of measurements 1 to 6 (R456). -/
def State.measureDigest (s : State) : BitVec 384 := Config.sha384 (s.measurements.flatMap (fun d => bytesOf 48 d.toNat))

/-! ## The dump -/

/-- The registers of a window from o on, 8 bytes each. -/
def wordsFrom (read : Nat → Nat) (o n : Nat) : List Byte := (upFrom 0 n).flatMap (fun k => bytesOf 8 (read (o + 8 * k)))

/-- The registers of a hart: its pc and x1 to x31. -/
def Hart.bytes (h : Hart) : List Byte := bytesOf 8 h.pc.toNat ++ (upFrom 1 31).flatMap (fun r => bytesOf 8 (h.regs.get 0 r).toNat)

/-- Contexts that are live for the dump: those with a page table, and those with a launch (log entry 165). -/
def State.liveCtxs (s : State) : List Nat :=
  s.launches.foldl (fun (l : NatSet) p => l.ins p.2.ctx) ((s.ctxs.filter (fun c => c.2.ptRoot % 2 == 1)).map (·.1))

/-- The sections of the dump in the order of their KIND, 1 to 7 (R468; the layout inside a section is the model's, log entry 165). -/
def State.dumpSections (s : State) : List (List Byte) :=
  [ s.physBytes (s.elogBase % 2 ^ 52 / 2 ^ 18 * 2 ^ 18) (4096 * 64) ++ bytesOf 8 s.elogHead ++ bytesOf 8 s.elogTail,
    s.physBytes (bits s.ms.xfqBase 51 12 * 2 ^ 12) (s.ms.xfqSize * 32) ++ bytesOf 8 s.ms.xfqHead ++ bytesOf 8 s.ms.xfqTail,
    s.liveCtxs.flatMap (fun c => bytesOf 8 c ++ wordsFrom (s.ctxWindow c) 0 0xE00),
    (upFrom 0 22).flatMap (fun p => (upFrom 0 256).flatMap (fun k => bytesOf 8 ((s.port p).table.get 0 k).toNat) ++ wordsFrom s.saddleWindow (0x500000 + 64 * p) 2)
      ++ s.sad.tiles.flatMap (fun t => bytesOf 8 t.1 ++ (match t.2.place with
        | some (h, a) => s.readHome h a 128
        | none => [])),
    (upFrom 0 22).flatMap (fun n => wordsFrom s.saddleWindow (0x600000 + 0x100 * n) 32 ++ (s.awl n).localBytes 0 localSize),
    (upFrom 0 8).flatMap (fun d => (upFrom 0 20).flatMap (fun k => wordsFrom s.coreWindow (0x200000 * d + 0x10000 * k) 0x2000)),
    (s.hart 8).bytes ++ (s.hart 9).bytes ]

/-- Place sections one after the other from an offset on: KIND, TRUNC, offset and bytes of each. One that would pass the end of the range is
cut short, and those after it are omitted (R468). -/
def placeSections (room : Nat) : Nat → Nat → List (List Byte) → List (Nat × Bool × Nat × List Byte)
  | _, _, [] => []
  | kind, o, b :: rest =>
    if o + b.length ≤ room then (kind, false, o, b) :: placeSections room (kind + 1) (o + b.length) rest
    else [(kind, true, o, b.take (room - o))]

/-- The bytes of the dump (R468): the header, the section table, which the model gives seven entries, and the sections. -/
def State.dumpBytes (s : State) : List Byte :=
  let l := placeSections (2 ^ 28) 1 (0x100 + 32 * 7) s.dumpSections
  let entry := fun (x : Nat × Bool × Nat × List Byte) => bytesOf 4 x.1 ++ bytesOf 4 (b2n x.2.1) ++ bytesOf 8 x.2.2.1 ++ bytesOf 8 x.2.2.2.length ++ bytesOf 8 0
  let table := l.flatMap entry
  let rest := table ++ bytesOf (32 * 7 - table.length) 0 ++ l.flatMap (fun x => x.2.2.2)
  bytesOf 4 0x504D5544 ++ bytesOf 2 1 ++ bytesOf 2 256 ++ bytesOf 2 s.pkg ++ bytesOf 1 (b2n s.hdie.isSome) ++ bytesOf 1 s.host.fatalCause
    ++ bytesOf 4 l.length ++ bytesOf 8 s.host.fatalTime ++ bytesOf 8 (0x100 + rest.length) ++ bytesOf 48 (Config.sha384 rest).toNat
    ++ bytesOf 48 s.measureDigest.toNat ++ bytesOf 128 0 ++ rest

/-- Management firmware writes the dump at HOST_DUMP_BASE (R467, R468). -/
def State.writeDump (s : State) : State :=
  s.writePieces (s.physPieces s.host.dumpBase s.dumpBytes.length) (s.dumpBytes.map (fun b => (b, false)))

/-- HOST_FATAL_DUMPED (R452, R467): a hart writes HOST_FATAL; only management firmware sets DUMPED, after a fatal error once it has written
the dump, and a write of 0 is ignored. -/
def State.fatalDumped (s : State) (v hart : Nat) : State :=
  if mgmtHart hart && bit v 2 then (if s.host.stopped && !s.host.dumped then s.writeDump else s).updHost (fun h => { h with dumped := true }) else s

def execHostFatalDumped (s : State) : Host.Outcome State Fault Refusal := .next (s.fatalDumped s.arg.a s.arg.b)

end Sys2Proof.Machine
end

