-- ==== Sys2Proof/Machine/Window.lean ====
section
/-! DEFINITION. The register windows (R449 to R452): what an aligned 8-byte load or store of a host hart does at each register,
REGISTER_WRITE, and physical loads and stores of the harts (R448, R465). Offsets count from 0x7F0_0000_0000. -/

namespace Sys2Proof.Machine

/-! ## Windows of contexts -/

/-- A write in the window of a context (R391, R450). A write of CTX_Qq_CFG starts the effective priority at its PRIO (R371). -/
def State.ctxWindowWrite (s : State) (mgmt : Bool) (c o v : Nat) : State :=
  if o < 0x4000 then (if ctxSrd (o / 8) then s.systemWrite c (o / 8) v else s)
  else if o = 0x4000 then s.updCtx c (fun k => { k with ptRoot := v % 2 ^ 52 / 2 ^ 14 * 2 ^ 14 + v % 2 })
  else if o = 0x4008 then s.updCtx c (fun k => { k with saveCfg := v % 2 ^ 52 / 2 ^ 23 * 2 ^ 23 + v % 2 ^ 11 })
  else if o = 0x4010 then
    let s := s.killWhere c (fun l => l.ident == v % 2 ^ 32)
    if bit v 32 then s.killWhere c (fun _ => true) else s
  else if 0x4100 ≤ o && o < 0x4140 then (if mgmt then s.vdieMapWrite c ((o - 0x4100) / 8) v else s)
  else if 0x4140 ≤ o && o < 0x4180 then s.updCtx c (fun k => { k with vdieCores := k.vdieCores.set 0xFFFFF ((o - 0x4140) / 8) (v % 2 ^ 20) })
  else if 0x4200 ≤ o && o < 0x4400 then s.carve c ((o - 0x4200) / 8) v
  else if 0x5000 ≤ o && o < 0x6000 then
    let q := (o - 0x5000) / 64
    if o % 64 = 0 then s.updQueue c q (fun r => { r with cfg := v % 2 ^ 52 / 2 ^ 8 * 2 ^ 8 + v % 2 ^ 5, eprio := bits v 4 2, bypass := 0 })
    else if o % 64 = 8 then s.queueWrite c q v
    else s
  else if 0x6000 ≤ o && (o - 0x6000) / 8 < 2 + (s.ctx c).irqCount then
    s.updCtx c (fun k => { k with msi := k.msi.set 0 ((o - 0x6000) / 8) (v % 2 ^ 17) })
  else s

/-! ## Windows of cores -/

def State.coreWindowWrite (s : State) (o v : Nat) : State :=
  match s.coreAt o with
  | none => s
  | some core =>
    let r := o % 0x10000
    if r < 0x8000 then
      match r / 8 with
      | 0x10B => if bit v 32 then s.lsStatClr core else s
      | 0x140 => s.updCore core (fun k => { k with next := bits v 26 16 })
      | 0x141 => if bit v 48 then s.mtxStallClr core else s
      | _ => s
    else match s.teamAt core ((r - 0x8000) / 0x800) with
      | none => s
      | some (tid, t) => if teamRegs (slotSrd (r % 0x800)) then s.swr t tid core (slotSrd (r % 0x800)) v else s

/-! ## Windows of the memory side -/

/-- MSIDE_NET_STAT_CLR (R356). -/
def State.netStatClr (s : State) (b : Nat) : State :=
  s.updMs (fun m => { m with rerouted := m.rerouted.set 0 b 0, retried := m.retried.set 0 b 0 })

def execMsideNetStatClr (s : State) : Host.Outcome State Fault Refusal := .next (s.netStatClr s.arg.a)

def State.memWindowWrite (s : State) (mgmt : Bool) (o v : Nat) : State :=
  let b := o / 0x1000000
  if b < 4 then
    match o % 0x1000000 with
    | 0 => s.updMs (fun m => { m with linegap := m.linegap.set 4096 b (v % 2 ^ 24) })
    | 8 => if bit v 48 then s.netStatClr b else s
    | _ => s
  else if b = 4 then
    let r := o % 0x1000000
    match r with
    | 0x00 => s.updMs (fun m => { m with xfqBase := v % 2 ^ 52 / 2 ^ 12 * 2 ^ 12 + v % 2 ^ 5 })
    | 0x10 => s.xfqTailWrite v
    | 0x18 => if bit v 32 then s.failReply (v % 2 ^ 32) else s.retryReply (v % 2 ^ 32)
    | 0x20 => s.updMs (fun m => { m with invalVa := bits v 51 21 })
    | 0x28 => s.invalStart v
    | _ =>
      if 0x1000 ≤ r && r < 0x1400 && mgmt then s.regionWrite ((r - 0x1000) / 16) (r % 16 / 8) v else s
  else s

/-! ## The Saddle's window -/

/-- A triggered send is written only by the Awl of its port (R416). -/
def State.saddleWindowWrite (s : State) (mgmt : Bool) (o v : Nat) : State :=
  if 0x100000 ≤ o && o < 0x108000 then
    let n := (o - 0x100000) / 32
    match o % 32 with
    | 0x00 => s.collCfgWrite n v
    | 0x08 => s.updColl n (fun c => { c with win := v % 2 ^ 52 / 2 ^ 21 * 2 ^ 21 })
    | 0x10 => s.updColl n (fun c => { c with tab := v % 2 ^ 52 / 2 ^ 7 * 2 ^ 7 })
    | _ => if bit v 32 then s.collStatClr n else s
  else if 0x200000 ≤ o && o < 0x204000 then
    let k := (o - 0x200000) / 256
    let r := o % 256
    if 0x40 ≤ r && r < 0x80 then s.updSad (fun d => { d with trust := d.trust.set 0 (8 * k + (r - 0x40) / 8) (v % 2 ^ 64) })
    else if 0x80 ≤ r && r < 0xC0 then s.updSad (fun d => { d with path := d.path.set 0 (8 * k + (r - 0x80) / 8) (v % 2 ^ 64) })
    else s
  else if 0x300000 ≤ o && o < 0x310000 then
    let c := (o - 0x300000) / 16
    if o % 16 = 0 then s.setCtr c v
    else s.updCtr c (fun k => { k with job := v % 2 ^ 16, owner := bits v 20 16, en := bit v 21 })
  else if 0x500000 ≤ o && o < 0x500000 + 64 * 22 then
    let p := (o - 0x500000) / 64
    match o % 64 with
    | 0 => if mgmt then s.updPort p (fun k => { k with run := bit v 0 }) else s
    | 8 => if bit v 48 then s.portStatClr p else s
    | _ => s
  else if 0x600000 ≤ o && o < 0x600000 + 0x100 * 22 then s.awlRegWrite mgmt ((o - 0x600000) / 0x100) (o % 0x100) v
  else s

/-! ## The host's window -/

/-- Writes of the package error log registers (R468), with the fields of R80; management firmware sets BASE. -/
def State.pkgLogWrite (s : State) (mgmt : Bool) (o v : Nat) : State :=
  match o with
  | 0x2008 => if mgmt then { s with elogBase := v % 2 ^ 64 / 2 ^ 18 * 2 ^ 18 + v % 2 } else s
  | 0x2018 => if 4096 < (s.elogHead + 2 ^ 32 - v % 2 ^ 32) % 2 ^ 32 then s else { s with elogTail := v % 2 ^ 32 }
  | 0x2020 => { s with elogLost := if bit v 16 then 0 else s.elogLost, elogThresh := bits v 18 17, elogMsien := bit v 19 }
  | _ => s

/-- A write of HOST_FATAL: REQ by any host hart, DUMPED by management firmware (R452). -/
def State.fatalWrite (s : State) (v hart : Nat) : State := (s.fatalReq v).fatalDumped v hart

def State.hostWindowWrite (s : State) (hart o v : Nat) : State :=
  let mgmt := mgmtHart hart
  let free := mgmt && !s.host.lock
  match o with
  | 0x000 => if free then { s with pkg := v % 512 } else s
  | 0x010 => if free then s.updHost (fun h => { h with bootDest := v % 2 ^ 52 / 2 ^ 21 * 2 ^ 21 }) else s
  | 0x018 => s.lockWrite v hart
  | 0x020 => if free then s.updHost (fun h => { h with mgmtPages := v % 2 ^ 16, mgmtBase := v % 2 ^ 52 / 2 ^ 21 * 2 ^ 21 }) else s
  | 0x028 => if free then s.updHost (fun h => { h with dumpBase := v % 2 ^ 52 / 2 ^ 28 * 2 ^ 28 }) else s
  | 0x030 => s.fatalWrite v hart
  | 0x038 => s.serviceWatchdog v hart
  | 0x040 => if bit v 16 then s.msiStatClr else s
  | 0x110 => s.featAck 0 v
  | 0x118 => s.featAck 1 v
  | 0x120 => if bit v 0 then s.featCommit else s
  | 0x200 => if mgmt then s.updHost (fun h => { h with limit := v % 2 ^ 12, floor := bits v 22 12 }) else s
  | 0x208 => if bit v 12 then s.updHost (fun h => { h with clamp := false }) else s
  | 0x500 => s.updHost (fun h => { h with pcieBase := v % 2 ^ 52 / 2 ^ 28 * 2 ^ 28, pcieLog2 := bits v 63 52 })
  | 0x508 => if mgmt then s.updHost (fun h => { h with plock := bit v 32 }) else s
  | _ =>
    if 0x300 ≤ o && o < 0x3A0 then
      let h := (o - 0x300) / 16
      if h != hart then s
      else if o % 16 = 0 then s.updCredit h (fun c => { c with va := BitVec.ofNat 64 v })
      else s.creditGo h v
    else if 0x400 ≤ o && o < 0x500 && !s.host.plock then
      let i := (o - 0x400) / 32
      let put := fun (f : InWin → InWin) => s.updHost (fun h => { h with inwin := h.inwin.put i (f (h.inwin.get {} i)) })
      match o % 32 with
      | 0x00 => put (fun w => { w with bus := bits v 63 12 })
      | 0x08 => put (fun w => { w with pages := bits v 51 12, rd := bit v 52, wr := bit v 53 })
      | 0x10 => put (fun w => { w with phys := bits v 51 12 })
      | _ => s
    else if 0x1000 ≤ o && o < 0x1020 then { s with msiTab := s.msiTab.set 0 ((o - 0x1000) / 8) (v % 2 ^ 17) }
    else s.pkgLogWrite mgmt o v

/-! ## A window access -/

/-- A write by a hart of the register at an offset of the windows; an offset that names none ignores it (R449, R450). -/
def State.windowWrite (s : State) (hart o v : Nat) : State :=
  match o / 2 ^ 32 with
  | 0 => if o < 0x10000000 then s.ctxWindowWrite (mgmtHart hart) (o / 0x10000) (o % 0x10000) v else s
  | 1 => s.coreWindowWrite (o % 2 ^ 32) v
  | 2 => s.memWindowWrite (mgmtHart hart) (o % 2 ^ 32) v
  | 3 => s.saddleWindowWrite (mgmtHart hart) (o % 2 ^ 32) v
  | 4 => s.hostWindowWrite hart (o % 2 ^ 32) v
  | _ => s

/-- REGISTER_WRITE (R449, R450): hart c, which runs, writes value b to the register at package-local address a, an aligned one of the
windows. -/
def State.registerWrite (s : State) (a v hart : Nat) : State :=
  if inWindows a && a % 8 = 0 && s.hartRuns hart then s.windowWrite hart (a % 2 ^ 43 - 0x7F000000000) v else s

def execRegisterWrite (s : State) : Host.Outcome State Fault Refusal := .next (s.registerWrite s.arg.a s.arg.b s.arg.c)

end Sys2Proof.Machine
end

