-- ==== Sys2Proof/Machine/HartAccess.lean ====
section
/-! DEFINITION. What a host hart does beside its own computation: loads, stores and atomics (R448, R449, R465, R468, R469), accesses to its
CSRs, traps and returns (R447, R460). -/

namespace Sys2Proof.Machine

/-- Bytes of the management harts' private memory (R448). -/
def sramSize : Nat := 2 ^ 20

/-- An access of the management harts in their private memory; an uncorrectable error there is fatal (R467). A word written whole is without
error again. -/
def State.sramAccess (s : State) (x : Arg) (n : Nat) (new : List Byte → Option (List Byte)) : State :=
  let old := (upFrom x.a n).map (fun k => s.host.sram.get 0 k)
  let whole := fun (w : Nat) => x.d == 0 && !x.data.isEmpty && x.a ≤ 8 * w && 8 * w + 8 ≤ x.a + n
  if s.host.sramEcc.any (fun w => decide (x.a / 8 ≤ w) && decide (8 * w < x.a + n) && !whole w) then s.fatal 2
  else
    let s := match new old with
      | some bs => s.updHost (fun h => { h with sram := writeCells h.sram x.a bs, sramEcc := h.sramEcc.filter (fun w => !whole w) })
      | none => s
    if x.d = 0 && !x.data.isEmpty then s else s.hartGive x.c old

/-- The range lies in HOST_MGMT_WIN (R452, R465). -/
def HostCx.inMgmtWin (h : HostCx) (a n : Nat) : Bool := decide (h.mgmtBase ≤ a) && decide (a + n ≤ h.mgmtBase + h.mgmtPages * 2 ^ 21)

/-- What an access makes of the bytes that it finds: nothing for a load; the data for a store; for an atomic (d = 1) the result of AOP
opt mod 16 on the data, signed where opt has bit 4. -/
def hartNew (x : Arg) (old : List Byte) : Option (List Byte) :=
  if x.d = 1 then
    let n := x.data.length
    some (bytesOf n (atomNew (x.opt.getD 0 % 16) (bit (x.opt.getD 0) 4) (8 * n) (natOf old) (natOf x.data)))
  else if x.data.isEmpty then none else some x.data

/-- Bytes that a hart's load gets: those that arrive poisoned are free (log entry 164). -/
def State.hartBytes (s : State) (l : List (Byte × Bool)) : List Byte := l.zipIdx.map (fun x => if x.1.2 then s.freeByte x.2 else x.1.1)

/-- A load, a load-reserved, a store, a store-conditional or an atomic reaches its pieces. -/
def State.hartPerform (s : State) (x : Arg) (l : List Piece) : State :=
  let hart := hartOf x.c
  if x.d = 0 && !x.data.isEmpty then s.writePieces l (x.data.map (fun b => (b, false)))
  else
    let r := s.readPieces l
    let old := r.1.hartBytes r.2
    match x.d with
    | 2 => (r.1.updHart hart (fun h => { h with reserved := some (x.a, old) })).hartGive x.c old
    | 3 =>
      let s := r.1.updHart hart (fun h => { h with reserved := none })
      if (r.1.hart hart).reserved = some (x.a, old) && !r.1.freeBit hart then
        ((s.writePieces l (x.data.map (fun b => (b, false)))).drawn).hartGive x.c (bytesOf 8 0)
      else s.drawn.hartGive x.c (bytesOf 8 1)
    | _ => (match hartNew x old with
        | some bs => r.1.writePieces l (bs.map (fun b => (b, false)))
        | none => r.1).drawn.hartGive x.c old

/-- A store or an atomic of a hart goes to another package (R421, R448). -/
def State.hartRemote (s : State) (x : Arg) : State :=
  let hart := hartOf x.c
  let op := if x.d = 1 then Nat.log2 x.data.length + 16 * (x.opt.getD 0 % 16) + 256 * (x.opt.getD 0 / 16 % 2) else 0
  { s.updHart hart (fun h => { h with unacked := h.unacked + 1 }) with
    sent := s.sent ++ [.hartOp x.c (x.a / 2 ^ 43) (x.a % 2 ^ 43) (if x.d = 1 then 2 else 1) op x.data] }

/-- A hart may not make an access (R448, R449, R465, R468, R469): of a management hart, a read of another package; of any, one that meets
the register windows, that crosses packages, or that goes to one that is not reachable, or for which the feature is not acknowledged; of an
application hart, a write of the dump. -/
def State.hartBars (s : State) (hart a n : Nat) (store : Bool) : Bool :=
  let here := a / 2 ^ 43 % 512 == s.pkg
  (mgmtHart hart && !here && !store) || inWindows a || inWindows (a + n - 1) || a / 2 ^ 43 != (a + n - 1) / 2 ^ 43
    || (!here && (!s.reachable (a / 2 ^ 43 % 512) || !s.feature 7)) || (!mgmtHart hart && store && s.host.inDump a n)

/-- A load (d = 0 without data), a store (d = 0), an atomic (1), a load-reserved (2) or a store-conditional (3) of a hart. -/
def State.hartMemory (s : State) (x : Arg) : State :=
  let hart := hartOf x.c
  let store := !x.data.isEmpty
  let n := if store then x.data.length else x.b
  let a := x.a
  let mgmt := mgmtHart hart
  let here := a / 2 ^ 43 % 512 == s.pkg
  let own := here && (inWindows a || inWindows (a + n - 1))
  if 2 ^ 52 < a + n then s.hartFault hart store a
  else if x.d != 0 && (n != 4 && n != 8 || a % n != 0) then s.updHart hart (fun h => h.exception (if store then 6 else 4) a)
  else if !mgmt && !(s.hart hart).pmpAllows a n store then s.hartFault hart store a
  else if mgmt && a + n ≤ sramSize && x.d < 2 then s.sramAccess x n (hartNew x)
  else if mgmt && a < sramSize then s.hartFault hart store a
  else if own then
    if x.d != 0 || n != 8 || a % 8 != 0 then s.hartFault hart store a
    else if store then s.windowWrite hart (a % 2 ^ 43 - 0x7F000000000) (natOf x.data)
    else s.hartGive x.c (bytesOf 8 (s.windowRead (a % 2 ^ 43 - 0x7F000000000)))
  else if mgmt && store && !s.host.inMgmtWin a n then
    (s.pkgLog { type := 5, severity := 2, engine := 13, address := a }).hartFault hart true a
  else if s.hartBars hart a n store then s.hartFault hart store a
  else if s.host.outbounds a || s.host.outbounds (a + n - 1) then
    if x.d != 0 || !s.host.outbounds a || !s.host.outbounds (a + n - 1) then s.hartFault hart store a
    else s.pcieOut { x with b := n }
  else if (if here then !s.inRegion (a % 2 ^ 43) n else x.d == 2 || x.d == 3) then s.hartFault hart store a
  else
    let r := s.piecesSent (.hart hart) 4 (s.ms.clocks.get 0 0) store (s.physPieces a n)
    match r.2.1 with
    | .wait => r.1.updHost (fun h => { h with waits := x :: h.waits })
    | .lost => if store then r.1.lostRecord 0 0 else ((r.1.lostRecord 0 0).hartGive x.c ((upFrom 0 n).map r.1.freeByte)).drawn
    | .go => if !here && store then r.1.hartRemote x else r.1.hartPerform x r.2.2

/-- The oldest access of a hart that waits goes on. -/
def State.hartAgain (s : State) (n : Nat) : State :=
  match s.host.waits.find? (fun x => hartOf x.c == n) with
  | none => s
  | some x => (s.updHost (fun h => { h with waits := h.waits.erase x })).hartMemory x

/-- An access to CSR a: b is 0 to read it, 1 to write the data, 2 to set their bits, 3 to clear them. -/
def State.csrAccess (s : State) (x : Arg) : State :=
  let n := hartOf x.c
  match csrBars n (s.hart n).mode x.a (x.b != 0) with
  | some cause => s.updHart n (fun h => h.exception cause 0)
  | none =>
    let c := csrHome (s.hart n).mode x.a
    let old := s.csrRead n c
    let v := natOf (x.data.take 8)
    let s := match x.b with
      | 0 => s
      | 1 => s.csrWrite n c v
      | 2 => s.csrWrite n c (Nat.lor old v)
      | _ => s.csrWrite n c (old - Nat.land old v)
    s.hartGive x.c (bytesOf 8 old)

/-- The cause of an environment call from a mode. -/
def ecallCause (p : Priv) : Nat := if p = .m then 11 else if p = .hs then 9 else if p = .vs then 10 else 8

/-- HOST_HART_ACCESS (R447 to R450, R460, R465, R467 to R469): a step of hart c mod 16, with register c / 16 for its value. By operand d: 0 a
load of b bytes at physical address a, or a store of the data, where opt = n has a management hart read the local memory of Awl n after a
fatal error (R428, R468); 1 an atomic, 2 a load-reserved, 3 a store-conditional; 4 an access to CSR a; 5 an environment call; 6 a return
from a trap, MRET if a = 3, else SRET; 7 an interrupt is taken; 8 register c / 16 becomes a, or the pc does where that is 0; 9 management
firmware sets wired source a: the hart opt and the identity b, on if the data are not empty. Beside the harts: 10 the wire of source a rises;
15 the oldest access of the hart that waits goes on. -/
def State.hartAccess (s : State) (x : Arg) : State :=
  let n := hartOf x.c
  match x.d with
  | 10 => s.wireRaised x.a
  | 15 => s.hartAgain n
  | d =>
    if !s.hartRuns n then s
    else if d ≤ 3 then
      match x.opt, d with
      | some k, 0 =>
        if mgmtHart n && s.host.stopped && x.data.isEmpty && x.a + x.b ≤ localSize then s.hartGive x.c ((s.awl k).localBytes x.a x.b)
        else s.hartFault n (!x.data.isEmpty) x.a
      | _, _ =>
        if s.host.waits.any (fun y => hartOf y.c == n) then s.updHost (fun h => { h with waits := h.waits ++ [x] }) else s.hartMemory x
    else match d with
      | 4 => s.csrAccess x
      | 5 => s.updHart n (fun h => h.exception (ecallCause h.mode) 0)
      | 6 =>
        let h := s.hart n
        if (if x.a = 3 then h.mode != .m else h.mode.level == 0) then s.updHart n (fun h => h.exception (if h.mode.virtual then 22 else 2) 0)
        else s.updHart n (fun h => if x.a = 3 then h.mret else h.sret)
      | 7 => s.takeInterrupt n
      | 8 => s.updHart n (fun h => if x.c / 16 % 32 = 0 then { h with pc := BitVec.ofNat 64 x.a } else h.setReg (x.c / 16 % 32) x.a)
      | 9 => if mgmtHart n then s.updHost (fun h => { h with wired := h.wired.put x.a { hart := x.opt.getD 8, eiid := x.b % 2048, on := !x.data.isEmpty } }) else s
      | _ => s

def execHostHartAccess (s : State) : Host.Outcome State Fault Refusal := .next (s.hartAccess s.arg)

end Sys2Proof.Machine
end

