-- ==== Sys2Proof/Machine/Boot.lean ====
section
/-! DEFINITION. Package reset and bring-up (R453, R454), and the SPDM responder (R455 to R457). -/

namespace Sys2Proof.Machine

/-! ## Bring-up -/

/-- Host images (R453): MAGIC, and the largest CODESIZE of each kind: 1 management firmware, 2 application firmware. -/
def hostMagic : Nat := 0x54534F48
def hostCodeMax (kind : Nat) : Nat := if kind = 1 then 960 * 1024 else 256 * 2 ^ 20

/-- A host image verifies (R453), for its kind, its load region's bytes, and what is fused. -/
def HostCx.imageGood (h : HostCx) (kind region : Nat) (x : Image) : Bool :=
  x.headOk hostMagic kind && decide (x.codeSize ≤ hostCodeMax kind) && decide (x.loadAddr + x.codeSize + x.zeroSize ≤ region)
    && x.verifies (h.fuses.rsa.getD (kind - 1) 0) (h.fuses.slh.getD (kind - 1) 0) && decide (h.fuses.secver.getD (kind - 1) 0 ≤ x.secVer)

/-- The bytes that loading an image writes at its load address: the payload, then ZEROSIZE zeros (R442). -/
def Image.loaded (x : Image) : List Byte := x.payload ++ (upFrom 0 x.zeroSize).map (fun _ => 0)

/-- The package after power-on or package reset (R454): the reset state with what is fused, the device memory as it was (log
entry 35), and the model's own bookkeeping. -/
def State.packageReset (s : State) : State :=
  let r := State.reset
  { r with
    agenda := s.agenda, free := s.free, nextId := s.nextId, sent := s.sent, hdie := s.hdie, glob := { cells := s.glob.cells }
    host := { r.host with fuses := s.host.fuses } }

/-- A step of bring-up stops it (R454). -/
def State.bootFail (s : State) : State := s.updHost (fun h => { h with fail := true })

/-- Step 1: the boot ROM verifies management firmware and loads it into its memory (R453). -/
def State.bootFirmware (s : State) (data : List Byte) : State :=
  let x := imageOf data
  if s.host.imageGood 1 sramSize x then
    (s.updHost (fun h => { h with
      sram := writeCells h.sram x.loadAddr x.loaded, started := true
      measured := [Config.romDigest, Config.sha384 (x.head ++ x.payload)] }))
  else s.bootFail

/-- Step 2: the network and the DRAM are trained; a harvested die is fused out of service (R2, R3). -/
def State.bootTrain (s : State) (hdie : Option Nat) : State :=
  match hdie with
  | some d =>
    if s.hdie.isSome then s
    else { s with hdie := some (d % 8), ctxs := s.ctxs.map (fun c => (c.1, { c.2 with vdieMap := c.2.vdieMap.filter (fun v => v.2 % 8 != d % 8) })) }
  | none => s

/-- Step 3: register writes of management firmware, 16 bytes each, an offset of the windows and a value; then the lock. -/
def State.bootWrites (s : State) : List Byte → Nat → State
  | _, 0 => s
  | data, n + 1 =>
    if data.length < 16 then s
    else (s.windowWrite 8 (natOf (data.take 8)) (natOf ((data.drop 8).take 8))).bootWrites (data.drop 16) n

/-- Bytes of a port's microcode store and match table. -/
def portImage : Nat := 4096 * 4 + 256 * 8

/-- Words of n bytes as a table without zeros. -/
def wordsTab (n w : Nat) (data : List Byte) (count : Nat) : Tab (BitVec w) :=
  (upFrom 0 count).foldl (fun (t : Tab (BitVec w)) i => t.set 0 i (BitVec.ofNat w (natOf ((data.drop (n * i)).take n)))) []

/-- Load the microcode store and match table of a port (R454). -/
def State.loadPort (s : State) (p : Nat) (data : List Byte) : State :=
  s.updPort p (fun k => { k with store := wordsTab 4 32 data 4096, table := wordsTab 8 64 (data.drop 16384) 256 })

/-- The routing table as management firmware writes it (R393, R469): entries of 4 bytes, a package and an external port. -/
def routesOf (data : List Byte) : Nat → Tab (List Nat)
  | 0 => []
  | n + 1 =>
    if data.length < 4 then []
    else
      let t := routesOf (data.drop 4) n
      let pkg := natOf (data.take 2) % 512
      t.put pkg (natOf ((data.drop 2).take 2) % 18 :: t.get [] pkg)

/-- Step 4: the stores and match tables of ports 0 to 21, whose change clears every key slot (R457), then the application image, which is
verified (R454). -/
def State.bootLoad (s : State) (data : List Byte) : State :=
  let loaded := (upFrom 0 22).foldl (fun (s : State) p => s.loadPort p (data.drop (portImage * p))) s
  let s := if loaded.measure4 = s.measure4 then loaded else loaded.clearKeys
  let img := data.drop (portImage * 22)
  let x := imageOf img
  if s.host.imageGood 2 (2 ^ 52 - s.host.bootDest) x then
    (s.updHost (fun h => { h with app := img, measured := h.measured.take 2 ++ [Config.sha384 (x.head ++ x.payload)] }))
  else s.bootFail

/-- An application hart starts (R454): in M-mode at the application image's ENTRY, with a0 = mhartid and a1 = the address of the device
description. -/
def State.startHart (s : State) (n : Nat) : State :=
  (s.updHart n (fun _ => ({ pc := BitVec.ofNat 64 (s.host.bootDest + (imageOf s.host.app).entry) } : Hart).setReg 10 n |>.setReg 11 s.host.devDesc)).updHost
    (fun h => { h with released := h.released.ins n })

/-- Step 5: the application image is copied to HOST_BOOT_DEST, and hart 0 is released (R454). -/
def State.bootRelease (s : State) (devDesc : Nat) : State :=
  let x := imageOf s.host.app
  ((s.writePieces (s.physPieces (s.host.bootDest + x.loadAddr) x.loaded.length) (x.loaded.map (fun b => (b, false)))).updHost (fun h =>
    { h with released := [], stage := 6, devDesc := devDesc })).startHart 0

/-- PACKAGE_RESET (R454): operand a is 0 for power-on or package reset, or the step of bring-up that ends, 1 to 5, failed if b is
1. Data: the boot image of step 1; the register writes of step 3; the stores, tables and application image of step 4; and for
a = 6 the routing table, which management firmware writes at any time. Operand opt is the harvested die of step 2, and c the address of the
device description in step 5. With a = 7 hart 0 starts hart b, of 1 to 7, through the hart state management extension. -/
def State.bringUp (s : State) (x : Arg) : State :=
  if x.a = 0 then s.packageReset
  else if x.a = 6 then (if s.host.started then { s with routes := routesOf x.data x.data.length } else s)
  else if x.a = 7 then (if s.host.released.has 0 && decide (1 ≤ x.b) && decide (x.b < 8) && !s.host.released.has x.b then s.startHart x.b else s)
  else if s.host.fail || s.host.stage + 1 != x.a || 5 < x.a then s
  else
    let s := s.updHost (fun h => { h with stage := x.a })
    if x.b = 1 then s.bootFail
    else match x.a with
      | 1 => s.bootFirmware x.data
      | 2 => s.bootTrain x.opt
      | 3 => (s.bootWrites x.data x.data.length).lockWrite 1 8
      | 4 => s.bootLoad x.data
      | _ => s.bootRelease x.c

def execPackageReset (s : State) : Host.Outcome State Fault Refusal := .next (s.bringUp s.arg)

/-! ## The SPDM responder -/

/-- Response codes of SPDM 1.3 by request code; 0x7F is ERROR. -/
def spdmError : Nat := 0x7F

def State.conn (s : State) (i : Nat) : Spdm := s.host.spdm.get {} i
def State.setConn (s : State) (i : Nat) (c : Spdm) : State := s.updHost (fun h => { h with spdm := h.spdm.put i c })

/-- The request that executes came in a secured message of its session: operand opt is its sequence number (R455). -/
def State.inSecured (s : State) (i : Nat) : Bool := s.arg.opt == some (s.conn i).seqIn && (s.conn i).exchanged

/-- A secured message that does not verify in its session is dropped without an answer (R455; log entry 166). -/
def State.badSecured (s : State) (i : Nat) : Bool := s.arg.opt.isSome && !s.inSecured i

/-- The responder's answer: a code, and bytes; to a secured message, in the next one of the session. -/
def State.reply (s : State) (code : Nat) (data : List Byte) : State :=
  let i := s.arg.a
  let c := s.conn i
  if s.inSecured i then
    { s.setConn i { c with seqIn := c.seqIn + 1, seqOut := c.seqOut + 1 } with sent := s.sent ++ [.spdmSecured i c.seqOut code data] }
  else { s with sent := s.sent ++ [.spdm code data] }

/-- Answer a request once management firmware runs (R455): in the right stage of the connection with `code`, and what `change`
makes of the connection; else with ERROR. What the manual leaves to SPDM in the answer is free. -/
def State.respond (s : State) (i request code : Nat) (ready : Spdm → Bool) (change : Spdm → Spdm) (data : List Byte) (body : List Byte) : State :=
  if !s.host.started || s.badSecured i then s
  else if ready (s.conn i) then
    let r := s.reply code (body ++ Config.spdmBody request s.free data)
    (r.setConn i (change (r.conn i))).drawn
  else s.reply spdmError []

/-- The connection has agreed version, capabilities and algorithms. -/
def Spdm.agreed (c : Spdm) : Bool := c.stage == 3

/-- What CAPABILITIES says that R455 fixes, as SPDM lays out its flags: certificates, challenges, signed measurements, encryption, message
authentication, key exchange (log entry 166). -/
def spdmFlags : List Byte := bytesOf 4 0x2D6

/-- What ALGORITHMS says that R455 fixes: the numbers that SPDM gives SHA-384, P-384 and AES-256-GCM (log entry 166). -/
def spdmAlgorithms : List Byte := bytesOf 4 2 ++ bytesOf 2 16 ++ bytesOf 2 2

/-- Operand a is the interface, the data is the request, and opt the sequence number of a secured message. GET_VERSION starts a connection
anew. -/
def execGetVersion (s : State) : Host.Outcome State Fault Refusal :=
  .next (s.respond s.arg.a 0x84 0x04 (fun _ => true) (fun _ => { stage := 1 }) s.arg.data (bytesOf 1 0x13))
def execGetCapabilities (s : State) : Host.Outcome State Fault Refusal :=
  .next (s.respond s.arg.a 0xE1 0x61 (fun c => c.stage == 1) (fun c => { c with stage := 2 }) s.arg.data spdmFlags)
def execNegotiateAlgorithms (s : State) : Host.Outcome State Fault Refusal :=
  .next (s.respond s.arg.a 0xE3 0x63 (fun c => c.stage == 2) (fun c => { c with stage := 3 }) s.arg.data spdmAlgorithms)
def execGetDigests (s : State) : Host.Outcome State Fault Refusal := .next (s.respond s.arg.a 0x81 0x01 Spdm.agreed id s.arg.data [])
def execGetCertificate (s : State) : Host.Outcome State Fault Refusal := .next (s.respond s.arg.a 0x82 0x02 Spdm.agreed id s.arg.data [])

/-- Both signatures, RSA-3072 and SLH-DSA, over one transcript (R455). -/
def bothSign (t : List Byte) : List Byte := Config.sign 0 t ++ Config.sign 1 t

def execChallenge (s : State) : Host.Outcome State Fault Refusal :=
  .next (s.respond s.arg.a 0x83 0x03 Spdm.agreed id s.arg.data (bytesOf 48 s.measureDigest.toNat ++ bothSign (s.arg.data ++ bytesOf 48 s.measureDigest.toNat)))

/-- GET_MEASUREMENTS (R455): operand b is the index, 1 to 6, or 0xFF for all; the report carries both signatures. -/
def execGetMeasurements (s : State) : Host.Outcome State Fault Refusal :=
  .next (
    let l := if s.arg.b = 0xFF then s.measurements else (s.measurements.drop (s.arg.b - 1)).take 1
    let report := l.flatMap (fun d => bytesOf 48 d.toNat)
    s.respond s.arg.a 0xE0 0x60 (fun c => c.agreed && (s.arg.b == 0xFF || (decide (1 ≤ s.arg.b) && decide (s.arg.b ≤ 6)))) id s.arg.data
      (report ++ bothSign (s.arg.data ++ report)))

def execKeyExchange (s : State) : Host.Outcome State Fault Refusal :=
  .next (s.respond s.arg.a 0xE4 0x64 Spdm.agreed (fun c => { c with exchanged := true, secured := false, seqIn := 0, seqOut := 0 }) s.arg.data (bothSign s.arg.data))
def execFinish (s : State) : Host.Outcome State Fault Refusal :=
  .next (s.respond s.arg.a 0xE5 0x65 (fun c => c.exchanged && !c.secured && s.inSecured s.arg.a) (fun c => { c with secured := true }) s.arg.data [])
def execEndSession (s : State) : Host.Outcome State Fault Refusal :=
  .next (s.respond s.arg.a 0xEC 0x6C (fun c => c.secured && s.inSecured s.arg.a) (fun c => { c with exchanged := false, secured := false }) s.arg.data [])

/-- Write a job key (R456): the status of the answer, and the state after it. -/
def State.provision (s : State) (slot job : Nat) (key : List Byte) (digest : Nat) : State × Nat :=
  let k := s.sad.keys.get {} slot
  if digest != s.measureDigest.toNat then (s, 1)
  else if k.valid && k.job != job then (s, 2)
  else (s.updSad (fun d => { d with keys := d.keys.put slot { job := job, valid := true, key := key } }), 0)

/-- VENDOR_DEFINED_REQUEST (R456): operand b is KEYSLOT, of 0 to 63, c is JOB, d the vendor, of which 0 stands for Leryx, and the data is the
32-byte key and the 48-byte digest; in a secured message. -/
def execVendorDefinedRequest (s : State) : Host.Outcome State Fault Refusal :=
  .next (
    let x := s.arg
    if !s.host.started || s.badSecured x.a then s
    else if !(s.conn x.a).secured || !s.inSecured x.a || x.d != 0 || 64 ≤ x.b || x.data.length != 80 then s.reply spdmError []
    else
      let r := s.provision x.b (x.c % 2 ^ 16) (x.data.take 32) (natOf (x.data.drop 32))
      r.1.reply 0x7E (bytesOf 1 r.2))

/-- ERASE (R457): in a secured message of a session, the slot b clears. -/
def execErase (s : State) : Host.Outcome State Fault Refusal :=
  .next (
    if !s.host.started || s.badSecured s.arg.a then s
    else if !(s.conn s.arg.a).secured || !s.inSecured s.arg.a || 64 ≤ s.arg.b then s.reply spdmError []
    else (s.clearKey s.arg.b).reply 0x7E (bytesOf 1 0))

end Sys2Proof.Machine
end

