-- ==== Sys2Proof/Machine/Net.lean ====
section
/-! DEFINITION. The package network (R351 to R356): failed links, escape routes, retry answers. -/

namespace Sys2Proof.Machine

/-- A link is declared failed (R352): its bit clears at both ends. -/
def State.failLink (s : State) (k : Nat) : State :=
  let s := s.updMs (fun m => { m with down := (linkEnds k).foldl NatSet.ins m.down, fails := m.fails.set 0 k 0 })
  if s.ms.cutOff then s.fatal 4 else s

/-- The record of a payload that fails its check at the edge of the package network (R32), in the log of the context that owns the data. -/
def State.payloadRecord (s : State) (tid : Nat) : State :=
  match s.teams.look tid with
  | some t => (s.ctxLog t.ctx { type := 4, severity := 3, engine := 10, vdie := t.vdie, core := t.core % 20, team := t.number, launch := s.identOf t }).1
  | none => s.pkgLog { type := 4, severity := 3, engine := 10 }

/-- An access's packet reaches its receiver with its payload poisoned (R352, R323): the answer of a performed access, or the payload of
a request. -/
def State.poisonPacket (s : State) (id lane : Nat) : State :=
  match s.ops.look id with
  | none => s
  | some o => (s.payloadRecord o.tid).updAcc id lane (fun a =>
      if a.phase == .applied then { a with net := 2, poisoned := a.poisoned || !o.kind.acked || o.kind == .binit }
      else if a.phase == .ready then { a with net := 1, poisoned := a.poisoned || !o.kind.reads }
      else a)

/-- An access's packet is lost with its header (R352): the requester gets a retry answer. An access that its home has applied keeps its
effect, and only a read is made again (log entry 138). -/
def State.retryPacket (s : State) (b id lane : Nat) : State :=
  match s.ops.look id with
  | none => s
  | some o =>
    let s := s.updMs (fun m => { m with retried := m.retried.set 0 b (satNat (m.retried.get 0 b + 1) 0xFFFF) })
    (s.updAcc id lane (fun a =>
      if a.phase != .applied then a
      else if o.kind.reads then { a with phase := .ready, net := 0 }
      else { a with retries := a.retries + 1, poll := (s.core o.core).clock + 1024 })).retryLane id lane

/-- The routers between which an access's packets go. -/
def State.laneEnds (s : State) (id lane : Nat) : Option (Nat × Nat) :=
  match s.ops.look id with
  | none => none
  | some o => match o.lanes.find? (fun a => a.lane == lane) with
    | some a => match a.home with
      | some (h, x) => (s.routerOf h x).map (fun d => (baseOf (dieOf o.core), d))
      | none => none
    | none => none

/-- The requester that LINK_RETRANSMIT names, where it is no access of a core. -/
def requesterOf (kind n : Nat) : Option Requester :=
  match kind with
  | 1 => some (.copy n)
  | 2 => some (.tile n)
  | 3 => some (.walk n)
  | 4 => some (.saddle n)
  | 5 => some (.fetch n)
  | 6 => some (.credit n)
  | 7 => some (.hart n)
  | 8 => some .root
  | 9 => some (.snap n)
  | 10 => some (.hostCredit n)
  | 11 => some (.sched n)
  | _ => none

/-- The routers between which the packets of a requester go now (R351). -/
def State.requesterEnds (s : State) (q : Requester) : List (Nat × Nat) :=
  match q with
  | .copy n => match s.copies.look n with
    | some c => match s.teams.look c.tid with
      | some t =>
        let r := c.runAt c.progress
        let p := s.sides t c r (s.clip t c r 128)
        (s.routersOf p.1 ++ s.routersOf p.2).map (fun d => (baseOf (dieOf c.core), d))
      | none => []
    | none => []
  | .tile n => match s.ops.look n with
    | some o => o.mtx.grans.filterMap (fun g => (s.routerOf g.2.home g.2.addr).map (fun d => (baseOf (dieOf o.core), d)))
    | none => []
  | .walk n => match s.ms.walks.look n with
    | some w => ((s.walkPath w.ctx w.va).map s.physPlace).filterMap (fun p => (s.routerOf p.1 p.2).map (fun d => (w.router, d)))
    | none => []
  | .fetch core => (upFrom 0 5).map (fun d => (baseOf (dieOf core), d))
  | .credit n => match s.copies.look n with
    | some c => (upFrom 0 5).map (fun d => (baseOf (dieOf c.core), d))
    | none => []
  | .snap _ => (upFrom 0 4).flatMap (fun b => (upFrom 0 5).map (fun d => (b, d)))
  | _ => (upFrom 0 4).map (fun d => (4, d))

/-- The team that a requester acts for. -/
def State.requesterTeam (s : State) (q : Requester) : Nat :=
  match q with
  | .copy n => ((s.copies.look n).map (·.tid)).getD (2 ^ 64)
  | .tile n => ((s.ops.look n).map (·.tid)).getD (2 ^ 64)
  | .credit n => ((s.copies.look n).map (·.tid)).getD (2 ^ 64)
  | _ => 2 ^ 64

/-- The packet of another requester meets the failure of its link (R352): its payload is poisoned, or it is answered with retry. -/
def State.failPacket (s : State) (b : Nat) (q : Requester) (headerOk : Bool) (clock : Nat) : State :=
  if headerOk then (s.payloadRecord (s.requesterTeam q)).updMs (fun m => { m with tainted := m.tainted.ins q.key })
  else s.updMs (fun m => { m with
    retried := m.retried.set 0 b (satNat (m.retried.get 0 b + 1) 0xFFFF)
    retry := m.retry.put q.key (((m.retry.look q.key).map (·.1)).getD 0 + 1, clock + 1024) })

/-- A retransmission of a frame on an external port (R420): after 16 that fail, its link is declared down. -/
def State.extRetransmit (s : State) (p failed : Nat) : State :=
  if 18 ≤ p || s.sad.extDown.has p then s
  else if failed = 0 then s.updSad (fun d => { d with extFails := d.extFails.set 0 p 0 })
  else if s.sad.extFails.get 0 p + 1 < 16 then s.updSad (fun d => { d with extFails := d.extFails.set 0 p (d.extFails.get 0 p + 1) })
  else s.updSad (fun d => { d with extFails := d.extFails.set 0 p 0, extDown := d.extDown.ins p })

/-- LINK_RETRANSMIT (R352, R353, R420): operand a is the link, 4 × base die + link, or 16 + p for the link of external port p; b is 1 where a retransmission of the flit failed, and
0 where it arrived whole; c is 1 if the header check passed, plus 2 for a packet bound to the diagonal, plus 4 times the kind of its
requester: 0 an access of a core, with its operation in d and its lane in opt; 1 a copy request, 2 a tile fetch, 3 a walk, 4 a port of
the Saddle, 5 a fetch of code, 6 a credit of a copy request, 7 a host hart, 8 the root port, 9 a snapshot engine, 10 a host credit, 11 the
scheduler, with its number in d and its clock in opt. A packet takes the links between its requester and its home (R351). -/
def State.linkRetransmit (s : State) (k failed how id : Nat) (opt : Option Nat) : State :=
  if 16 ≤ k then s.extRetransmit (k - 16) failed
  else
  let b := k / 4
  let ends : List (Nat × Nat) := ((match requesterOf (how / 4) id with
    | some q => s.requesterEnds q
    | none => if opt.isSome then (s.laneEnds id (opt.getD 0)).toList else (upFrom 0 4).flatMap (fun x => (upFrom 0 5).map (fun y => (x, y)))).filter
      (fun (e : Nat × Nat) => (linksBetween e.1 e.2).any (fun l => (linkEnds l).contains k)))
  let diag := if ends.all (fun e => diagonal e.1 e.2) then true else bit how 1 && ends.any (fun e => diagonal e.1 e.2)
  let onPath := !ends.isEmpty
  if k % 4 = 0 || s.ms.down.has k || !onPath then s
  else if failed = 0 then s.updMs (fun m => { m with fails := m.fails.set 0 k 0 })
  else if s.ms.fails.get 0 k + 1 < 16 then s.updMs (fun m => { m with fails := m.fails.set 0 k (m.fails.get 0 k + 1) })
  else
    let s := s.failLink k
    if s.ms.escape k diag then s.updMs (fun m => { m with rerouted := m.rerouted.set 0 b (satNat (m.rerouted.get 0 b + 1) 0xFFFF) })
    else match requesterOf (how / 4) id with
      | some q => s.failPacket b q (bit how 0) (opt.getD 0)
      | none => match opt with
        | none => s
        | some l => if bit how 0 then s.poisonPacket id l else s.retryPacket b id l

def execLinkRetransmit (s : State) : Host.Outcome State Fault Refusal :=
  .next (s.linkRetransmit s.arg.a s.arg.b s.arg.c s.arg.d s.arg.opt)

/-- RETRY_RESEND (R354): 1,024 clocks after a retry answer the request is sent again; with the 64th in a row it fails. -/
def State.retryResend (s : State) (id lane : Nat) : State :=
  match s.ops.look id with
  | none => s
  | some o => match o.lanes.find? (fun a => a.lane == lane && a.phase == .away && a.retries != 0) with
    | none => s
    | some a =>
      if 64 ≤ a.retries then s.loseRemote id lane
      else if (s.core o.core).clock < a.poll then s
      else s.updAcc id lane (fun a => { a with phase := .ready, poll := 0, net := 0 })

def execRetryResend (s : State) : Host.Outcome State Fault Refusal := .next (s.retryResend s.arg.a s.arg.b)

end Sys2Proof.Machine
end

