-- ==== Sys2Proof/Machine/Ports.lean ====
section
/-! DEFINITION. The issue ports of a core: readiness (R60), stamps (R61), arbitration (R62), placements (R64 to R66, R150),
and the word that issues. -/

namespace Sys2Proof.Machine

/-- A clause, or a request to the lead engine, that competes for a port. -/
structure Cand where
  tid : Nat
  fid : Option Nat
  stamp : Nat
  hint : Nat
  lane : Nat
  hw : Nat
  slot : Nat
  /-- The request (R117). -/
  req : Option Nat := none
  deriving DecidableEq, Repr

/-- WA or WB of a header is satisfied (R27, R45). -/
def Team.waitOk (t : Team) (hws : List Nat) (lead : Bool) (c most : Nat) : Bool := most == 63 || t.countLe hws lead c most

/-- The counters that a header waits on (R27, R45). -/
def Team.countersOk (t : Team) (h : Header) (hws : List Nat) (lead : Bool) : Bool :=
  t.waitOk hws lead h.waClass h.waMax && t.waitOk hws lead h.wbClass h.wbMax

/-- The waits of a header (R45, R60): the counters and DRAIN in every clock, the queues before the clause begins. -/
def State.waitsOk (s : State) (tid : Nat) (t : Team) (h : Header) (ths : List Nat) (lead : Bool) (idx : Nat) : Bool :=
  let hws := t.hwsOf ths
  t.countersOk h hws lead && (!h.drain || !s.writesPending tid hws lead)
    && (idx != 0 || ((!h.wdq || s.entriesFor t 0 ths) && (!h.waq || s.entriesFor t (1 + h.aqsel) ths)))

/-- A clause of a team may begin or go on: the team runs, and after its quantum has expired no new clause begins (R373). -/
def State.teamOpen (s : State) (t : Team) (idx : Nat) : Bool := s.mayIssue t && (!t.expired || idx != 0)

/-- A formed warp, in a run state, is ready (R60). -/
def State.warpOpen (s : State) (tid : Nat) (t : Team) (w : Warp) : Bool :=
  s.teamOpen t w.idx && s.waitsOk tid t (getHeader w.header) w.threads false w.idx && s.unheld tid t false w.threads

/-- A formed warp whose clause waits to be chosen is ready. -/
def State.warpReady (s : State) (tid : Nat) (t : Team) (w : Warp) : Bool := w.run == .waiting && s.warpOpen tid t w

/-- The lead thread, in a run state, is ready. -/
def State.leadOpen (s : State) (tid : Nat) (t : Team) : Bool :=
  s.teamOpen t t.lead.idx && s.waitsOk tid t (getHeader t.lead.header) [] true t.lead.idx && s.unheld tid t true []

/-- The lead thread's clause waits to be chosen and is ready. -/
def State.leadReady (s : State) (tid : Nat) (t : Team) : Bool := t.lead.run == .running .waiting && s.leadOpen tid t

/-- A party that holds a port is ready (R60, R62). -/
def State.holderReady (s : State) (tid : Nat) (fid : Option Nat) : Bool :=
  match s.teams.look tid with
  | none => false
  | some t => match fid with
    | none => t.lead.run == .running .issuing && s.leadOpen tid t
    | some f => match t.formed.look f with
      | some w => w.run == .issuing && s.warpOpen tid t w
      | none => false

/-- Home lanes of a formed warp: the lowest, and its lowest home warp. -/
def Team.lowLane (t : Team) (w : Warp) : Nat := w.threads.foldl (fun m th => min m (t.laneOf th)) 64
def Team.lowHw (t : Team) (w : Warp) : Nat := w.threads.foldl (fun m th => min m (t.hwOf th)) 128

/-- The formed warps of a team that compete for a quarter port. -/
def State.warpCands (s : State) (core p tid : Nat) (t : Team) : List Cand :=
  t.formed.filterMap (fun x =>
    if t.coreOf x.2.quarter == core && x.2.quarter % 4 == p && s.warpReady tid t x.2 then
      some { tid := tid, fid := some x.1, stamp := x.2.stamp.getD (s.core core).clock, hint := (getHeader x.2.header).hint,
             lane := t.lowLane x.2, hw := t.lowHw x.2, slot := t.slot }
    else none)

/-- The lead thread of a team as a candidate. -/
def State.leadCands (s : State) (core tid : Nat) (t : Team) : List Cand :=
  if t.core == core && s.leadReady tid t then
    [{ tid := tid, fid := none, stamp := t.lead.stamp.getD (s.core core).clock, hint := (getHeader t.lead.header).hint,
       lane := 0, hw := 0, slot := t.slot }]
  else []

/-- The requests of lane-stream SYS instructions to the lead engine of a core (R117). -/
def State.reqCands (s : State) (core : Nat) : List Cand :=
  s.ops.filterMap (fun p => match s.teams.look p.2.tid with
    | none => none
    | some t =>
      if p.2.isRequest && s.mayIssue t && t.core == core then
        let w := t.formed.get noWarp (p.2.fid.getD 0)
        some { tid := p.2.tid, fid := p.2.fid, stamp := p.2.clock, hint := (getHeader w.header).hint, lane := t.lowLane w,
               hw := t.lowHw w, slot := t.slot, req := some p.1 }
      else none)

/-- The candidates of a port: 0 to 3 the quarters, 4 the lead port. -/
def State.cands (s : State) (core p : Nat) : List Cand :=
  if p = 4 then s.teams.flatMap (fun x => s.leadCands core x.1 x.2) ++ s.reqCands core
  else s.teams.flatMap (fun x => s.warpCands core p x.1 x.2)

/-- The order of R62. -/
def Cand.before (a b : Cand) : Bool :=
  if a.stamp != b.stamp then decide (a.stamp < b.stamp)
  else if a.hint != b.hint then decide (b.hint < a.hint)
  else if a.lane != b.lane then decide (a.lane < b.lane)
  else if a.hw != b.hw then decide (a.hw < b.hw)
  else decide (a.slot < b.slot)

/-- The first of a list in the order of R62. -/
def best : List Cand → Option Cand
  | [] => none
  | c :: rest => match best rest with
    | none => some c
    | some d => if d.before c then some d else some c

/-- The next word of a party's clause, with its class and whether it is of the lead stream. -/
def State.nextWord (s : State) (tid : Nat) (fid : Option Nat) : Option (Cls × Bool × DWord) :=
  match s.teams.look tid with
  | none => none
  | some t => match fid with
    | none => (Cls.ofCode (getHeader t.lead.header).cls).bind (fun c => (t.lead.words[t.lead.idx]?).map (fun w => (c, true, w)))
    | some f => match t.formed.look f with
      | none => none
      | some w => (Cls.ofCode (getHeader w.header).cls).bind (fun c => (w.words[w.idx]?).map (fun x => (c, false, x)))

/-- The engine refuses a placement for one clock (R62): a full queue of the quarter's matrix array (R283). -/
def State.refuses (s : State) (core p : Nat) (c : Cand) : Bool :=
  c.req.isNone && (match s.nextWord c.tid c.fid with
    | some (.mtx, false, w) => decide (bits w.toNat 9 0 ≤ 3) && s.arrayFull core p
    | _ => false)

/-- The candidate that issues on a port now: the clause that holds the port, or the first in the order of R62; none while
the port is occupied or the engine refuses (R62, R64). -/
def State.portPick (s : State) (core p : Nat) : Option Cand :=
  let k := s.core core
  if k.portBusy.get 0 p != 0 then none
  else match k.ports.look p with
    | some (tid, f) =>
      let fid := if p = 4 then none else some f
      let c : Cand := { tid := tid, fid := fid, stamp := 0, hint := 0, lane := 0, hw := 0, slot := 0 }
      if s.refuses core p c || !s.holderReady tid fid then none else some c
    | none => best ((s.cands core p).filter (fun c => !s.refuses core p c))

/-! ## Turns of one clock -/

/-- The next instruction of a port's pick is QSTAT, which samples after the events of its clock (R113). -/
def State.samples (s : State) (core p : Nat) : Bool :=
  match s.portPick core p with
  | some c => c.req.isNone && (match s.nextWord c.tid c.fid with
    | some (cls, lead, w) => (match decodeWord cls lead w with
      | .ok (.qstat _) => true
      | _ => false)
    | none => false)
  | none => false

/-- The ports of a core, and of its partner where a team runs on both, that have a pick and have not had their turn in this clock. -/
def State.pending (s : State) (core : Nat) : List (Nat × Nat) :=
  let cores := if s.teams.any (fun p => p.2.place == .resident && p.2.paired && (p.2.core == core || p.2.core == partnerOf core)) then [core, partnerOf core] else [core]
  cores.flatMap (fun c => ((upFrom 0 5).filter (fun p => !(s.core c).acted.has p && (s.portPick c p).isSome)).map (fun p => (c, p)))

/-- Ports whose turns come before this one in its clock: pops and retirements come before pushes (R111), and a sample of the queues comes
last (R113). -/
def State.portsBefore (s : State) (core p : Nat) : List (Nat × Nat) :=
  if s.samples core p then (s.pending core).filter (fun x => !s.samples x.1 x.2)
  else if p = 4 then (s.pending core).filter (fun x => x.2 != 4 && !s.samples x.1 x.2)
  else []

/-! ## Placements -/

/-- A quarter-rate LANE instruction (R150). -/
def quarterRate : Instr → Bool
  | .fdiv _ | .frcp _ | .frsq _ | .fsqrt _ | .fexp2 _ | .flog2 _ | .fsin _ | .fcos _ | .ftanh _ | .rng _ => true
  | .imul f | .imulh f | .imad f => f.w64
  | _ => false

/-- Clocks of a placement (R64 to R66): width 0 stands for the lead stream. -/
def placementClocks (width pclass : Nat) (quarter : Bool) : Nat :=
  (if width = 16 then 1 else if width = 32 then (if pclass = 2 then 2 else 1) else pclass % 3 + 1) * (if quarter then 4 else 1)

/-- A party takes the port: it holds the port mid-clause, keeps its stamp, and occupies it for its placement. What it sees of
registers that are about to be written is chosen anew (R40). -/
def State.takePort (s : State) (core p : Nat) (c : Cand) (clocks : Nat) : State :=
  let s := (s.stir c.tid).updCore core (fun k => { k with ports := k.ports.put p (c.tid, c.fid.getD 0), portBusy := k.portBusy.set 0 p clocks })
  match c.fid with
  | none => s.updLead c.tid (fun l => { l with run := .running .issuing, stamp := some (l.stamp.getD c.stamp), issued := l.issued + 1 })
  | some f => s.updWarp c.tid f (fun w => { w with run := .issuing, stamp := some (w.stamp.getD c.stamp) })

/-- Width of a party's placement: that of its team, or 0 for the lead stream. -/
def State.widthOf (s : State) (c : Cand) : Nat := if c.fid.isNone then 0 else ((s.teams.look c.tid).map (·.width)).getD 0

/-- Who a candidate is. -/
def Cand.party (c : Cand) : Party := match c.fid with
  | none => .lead c.tid
  | some f => .warp c.tid f

/-- What a port does in its clock. -/
inductive PortDo where
  | idle
  /-- The lead engine executes a request (R117). -/
  | serve (s : State)
  /-- An instruction issues: the state in which its party is the one that acts. -/
  | issue (s : State) (i : Instr)
  /-- The word at the index is illegal encoding: the fault has been taken. -/
  | bad (s : State)

/-- Illegal encoding at the issue of a word (R71, R72). -/
def State.illegalWord (s : State) (c : Cls) (w : DWord) : State :=
  match s.env 0 0 with
  | none => s
  | some e => s.raise { e with pclass := bits w.toNat 11 10 } c.code e.idx
      { code := 0x01, lanes := if e.lead then 0 else e.t.laneMask e.all }

/-- One clock of a port (R62). -/
def State.portTurn (s : State) (core p : Nat) : PortDo :=
  match s.portPick core p with
  | none => .idle
  | some c => match c.req with
    | some id => .serve ((s.updCore core (fun k => { k with portBusy := k.portBusy.set 0 p 1 })).serve id)
    | none => match s.nextWord c.tid c.fid with
      | none => .idle
      | some (cls, lead, w) =>
        let pclass := bits w.toNat 11 10
        match decodeWord cls lead w with
        | .error _ => .bad ({ s.takePort core p c 1 with who := c.party }.illegalWord cls w)
        | .ok i => .issue { s.takePort core p c (placementClocks (s.widthOf c) pclass (quarterRate i)) with who := c.party } i

end Sys2Proof.Machine
end

