-- ==== Sys2Proof/Machine/Rvc.lean ====
section
/-! DEFINITION. The compressed instructions of RV64C as the 32-bit instructions they stand for (R425; the RISC-V unprivileged
specification). There is no floating point, so its compressed loads and stores are illegal. -/

namespace Sys2Proof.Machine

/-! ## The 32-bit formats -/

def rvI (op f3 rd rs1 imm : Nat) : Nat := op + 2 ^ 7 * rd + 2 ^ 12 * f3 + 2 ^ 15 * rs1 + 2 ^ 20 * (imm % 2 ^ 12)
def rvR (op f3 f7 rd rs1 rs2 : Nat) : Nat := op + 2 ^ 7 * rd + 2 ^ 12 * f3 + 2 ^ 15 * rs1 + 2 ^ 20 * rs2 + 2 ^ 25 * f7
def rvS (f3 rs1 rs2 imm : Nat) : Nat :=
  0x23 + 2 ^ 7 * bits imm 4 0 + 2 ^ 12 * f3 + 2 ^ 15 * rs1 + 2 ^ 20 * rs2 + 2 ^ 25 * bits imm 11 5
def rvB (f3 rs1 rs2 imm : Nat) : Nat :=
  0x63 + 2 ^ 7 * (bits imm 11 11 + 2 * bits imm 4 1) + 2 ^ 12 * f3 + 2 ^ 15 * rs1 + 2 ^ 20 * rs2
    + 2 ^ 25 * (bits imm 10 5 + 2 ^ 6 * bits imm 12 12)
def rvJ (rd imm : Nat) : Nat :=
  0x6F + 2 ^ 7 * rd + 2 ^ 12 * (bits imm 19 12 + 2 ^ 8 * bits imm 11 11 + 2 ^ 9 * bits imm 10 1 + 2 ^ 19 * bits imm 20 20)

/-- An immediate of n bits, sign-extended to k bits. -/
def immx (x n k : Nat) : Nat := wrap (sext x n) k

/-! ## The quadrants -/

/-- Quadrant 0: addi4spn, and the loads and stores of words and double words at a register. -/
def rvcQ0 (h : Nat) : Option Nat :=
  let rd := 8 + bits h 4 2
  let rs1 := 8 + bits h 9 7
  let word := bits h 12 10 * 8 + bits h 6 6 * 4 + bits h 5 5 * 64
  let dword := bits h 12 10 * 8 + bits h 6 5 * 64
  match bits h 15 13 with
  | 0 =>
    let imm := bits h 12 11 * 16 + bits h 10 7 * 64 + bits h 6 6 * 4 + bits h 5 5 * 8
    if imm = 0 then none else some (rvI 0x13 0 rd 2 imm)
  | 2 => some (rvI 0x03 2 rd rs1 word)
  | 3 => some (rvI 0x03 3 rd rs1 dword)
  | 6 => some (rvS 2 rs1 rd word)
  | 7 => some (rvS 3 rs1 rd dword)
  | _ => none

/-- The register arithmetic of quadrant 1. -/
def rvcArith (h : Nat) : Option Nat :=
  let rd := 8 + bits h 9 7
  let rs2 := 8 + bits h 4 2
  let sh := bits h 12 12 * 32 + bits h 6 2
  match bits h 11 10, bits h 12 12, bits h 6 5 with
  | 0, _, _ => some (rvI 0x13 5 rd rd sh)
  | 1, _, _ => some (rvI 0x13 5 rd rd (sh + 0x400))
  | 2, _, _ => some (rvI 0x13 7 rd rd (immx sh 6 12))
  | _, 0, 0 => some (rvR 0x33 0 0x20 rd rd rs2)
  | _, 0, 1 => some (rvR 0x33 4 0 rd rd rs2)
  | _, 0, 2 => some (rvR 0x33 6 0 rd rd rs2)
  | _, 0, _ => some (rvR 0x33 7 0 rd rd rs2)
  | _, _, 0 => some (rvR 0x3B 0 0x20 rd rd rs2)
  | _, _, 1 => some (rvR 0x3B 0 0 rd rd rs2)
  | _, _, _ => none

/-- Quadrant 1: immediates, register arithmetic, jumps and branches. -/
def rvcQ1 (h : Nat) : Option Nat :=
  let rd := bits h 11 7
  let imm := bits h 12 12 * 32 + bits h 6 2
  let off := bits h 12 12 * 256 + bits h 11 10 * 8 + bits h 6 5 * 64 + bits h 4 3 * 2 + bits h 2 2 * 32
  match bits h 15 13 with
  | 0 => some (rvI 0x13 0 rd rd (immx imm 6 12))
  | 1 => if rd = 0 then none else some (rvI 0x1B 0 rd rd (immx imm 6 12))
  | 2 => some (rvI 0x13 0 rd 0 (immx imm 6 12))
  | 3 =>
    if imm = 0 then none
    else if rd = 2 then
      some (rvI 0x13 0 2 2 (immx (bits h 12 12 * 512 + bits h 6 6 * 16 + bits h 5 5 * 64 + bits h 4 3 * 128 + bits h 2 2 * 32) 10 12))
    else some (0x37 + 2 ^ 7 * rd + 2 ^ 12 * immx imm 6 20)
  | 4 => rvcArith h
  | 5 =>
    some (rvJ 0 (immx (bits h 12 12 * 2 ^ 11 + bits h 11 11 * 16 + bits h 10 9 * 256 + bits h 8 8 * 1024 + bits h 7 7 * 64
      + bits h 6 6 * 128 + bits h 5 3 * 2 + bits h 2 2 * 32) 12 21))
  | 6 => some (rvB 0 (8 + bits h 9 7) 0 (immx off 9 13))
  | _ => some (rvB 1 (8 + bits h 9 7) 0 (immx off 9 13))

/-- Quadrant 2: shifts, loads and stores at the stack pointer, register jumps and moves. -/
def rvcQ2 (h : Nat) : Option Nat :=
  let rd := bits h 11 7
  let rs2 := bits h 6 2
  match bits h 15 13 with
  | 0 => some (rvI 0x13 1 rd rd (bits h 12 12 * 32 + bits h 6 2))
  | 2 => if rd = 0 then none else some (rvI 0x03 2 rd 2 (bits h 12 12 * 32 + bits h 6 4 * 4 + bits h 3 2 * 64))
  | 3 => if rd = 0 then none else some (rvI 0x03 3 rd 2 (bits h 12 12 * 32 + bits h 6 5 * 8 + bits h 4 2 * 64))
  | 4 =>
    if bits h 12 12 = 0 then
      if rs2 = 0 then (if rd = 0 then none else some (rvI 0x67 0 0 rd 0)) else some (rvR 0x33 0 0 rd 0 rs2)
    else if rs2 = 0 then (if rd = 0 then some 0x00100073 else some (rvI 0x67 0 1 rd 0))
    else some (rvR 0x33 0 0 rd rd rs2)
  | 6 => some (rvS 2 2 rs2 (bits h 12 9 * 4 + bits h 8 7 * 64))
  | 7 => some (rvS 3 2 rs2 (bits h 12 10 * 8 + bits h 9 7 * 64))
  | _ => none

/-- The 32-bit instruction that a compressed one stands for. -/
def rvcExpand (h : Nat) : Option Nat :=
  match h % 4 with
  | 0 => rvcQ0 h
  | 1 => rvcQ1 h
  | 2 => rvcQ2 h
  | _ => none

end Sys2Proof.Machine
end

