-- ==== Sys2Proof/Machine/Rv.lean ====
section
/-! DEFINITION. The base of an Awl's standard instruction set (R425 to R428; the RISC-V unprivileged and privileged
specifications): RV64I, M, A, Zicsr, Zifencei, in machine mode only. -/

namespace Sys2Proof.Machine

/-- What a standard instruction does: go on at the next instruction, jump, or raise an exception. -/
inductive RvRes where
  | next (a : Awl)
  | jump (a : Awl) (pc : Nat)
  | trap (a : Awl) (cause tval : Nat)

/-! ## Data accesses -/

/-- First address of the Awl's own registers (R426). -/
def ownRegs : Nat := 0x10000000

/-- Load n bytes (R426, R428): the value, or the hart and the cause of the exception. Misaligned accesses trap (log entry 33). -/
def Awl.loadAt (a : Awl) (addr n : Nat) (memOnly : Bool) : Except (Awl × Nat) Nat :=
  if addr % n != 0 then .error (a, 4)
  else if !memOnly && n = 8 && ownRegs ≤ addr && addr < ownRegs + 0x100 then .ok (a.reg false (addr - ownRegs))
  else if localSize < addr + n then .error (a, 5)
  else if a.bad addr n then .error ({ a with poison := true }, 5)
  else .ok (natOf (a.localBytes addr n))

/-- Store n bytes (R426, R428). Of its own registers the Awl writes only TIMER (R429). A store of part of a word with an
uncorrectable error fails. -/
def Awl.storeAt (a : Awl) (addr n v : Nat) (memOnly : Bool) : Except (Awl × Nat) Awl :=
  if addr % n != 0 then .error (a, 6)
  else if !memOnly && n = 8 && ownRegs ≤ addr && addr < ownRegs + 0x100 then
    .ok (if addr = ownRegs + 0x38 then { a with timer := v % 2 ^ 32 } else a)
  else if localSize < addr + n then .error (a, 7)
  else if a.bad addr n && n < 8 then .error ({ a with poison := true }, 7)
  else .ok (a.localWrite addr (bytesOf n v))

/-! ## Arithmetic -/

/-- The 64 low bits of an integer read from the n low bits of x as a signed number. -/
def sx64 (x n : Nat) : Nat := wrap (sext x n) 64

/-- The integer operations of OP and OP-IMM. -/
def rvAlu (f3 : Nat) (alt : Bool) (x y : Nat) : Nat :=
  match f3 with
  | 0 => if alt then (x + 2 ^ 64 - y) % 2 ^ 64 else (x + y) % 2 ^ 64
  | 1 => x * 2 ^ (y % 64) % 2 ^ 64
  | 2 => b2n (decide (sext x 64 < sext y 64))
  | 3 => b2n (decide (x < y))
  | 4 => Nat.xor x y
  | 5 => if alt then wrap (sext x 64 / ((2 ^ (y % 64) : Nat) : Int)) 64 else x / 2 ^ (y % 64)
  | 6 => Nat.lor x y
  | _ => Nat.land x y

/-- The operations on words of OP-32 and OP-IMM-32: add, subtract, shift. -/
def rvAluW (f3 : Nat) (alt : Bool) (x y : Nat) : Nat :=
  match f3 with
  | 0 => sx64 (if alt then x + 2 ^ 64 - y else x + y) 32
  | 1 => sx64 (x * 2 ^ (y % 32)) 32
  | _ => if alt then wrap (sext x 32 / ((2 ^ (y % 32) : Nat) : Int)) 64 else sx64 (x % 2 ^ 32 / 2 ^ (y % 32)) 32

/-- The M extension on n-bit operands, sign-extended to 64 bits; division by zero and overflow as it defines them. -/
def rvMul (f3 n x y : Nat) : Nat :=
  let sx := sext x n
  let sy := sext y n
  let ux : Int := ((x % 2 ^ n : Nat) : Int)
  let uy : Int := ((y % 2 ^ n : Nat) : Int)
  let hi := fun (p : Int) => p / ((2 ^ n : Nat) : Int)
  let r : Int := match f3 with
    | 0 => sx * sy
    | 1 => hi (sx * sy)
    | 2 => hi (sx * uy)
    | 3 => hi (ux * uy)
    | 4 => if sy = 0 then -1 else sx.tdiv sy
    | 5 => if uy = 0 then -1 else ux / uy
    | 6 => if sy = 0 then sx else sx.tmod sy
    | _ => if uy = 0 then sx else ux % uy
  sx64 (wrap r n) n

/-- A branch condition. -/
def rvTaken (f3 x y : Nat) : Option Bool :=
  match f3 with
  | 0 => some (x == y)
  | 1 => some (x != y)
  | 4 => some (decide (sext x 64 < sext y 64))
  | 5 => some (decide (sext y 64 ≤ sext x 64))
  | 6 => some (decide (x < y))
  | 7 => some (decide (y ≤ x))
  | _ => none

/-- The value that an atomic memory operation stores, by funct5. -/
def rvAmo (f5 n old y : Nat) : Option Nat :=
  let signed := fun (lt : Bool) => if lt then old else y % 2 ^ n
  match f5 with
  | 0x01 => some (y % 2 ^ n)
  | 0x00 => some ((old + y) % 2 ^ n)
  | 0x04 => some (Nat.xor old (y % 2 ^ n))
  | 0x0C => some (Nat.land old (y % 2 ^ n))
  | 0x08 => some (Nat.lor old (y % 2 ^ n))
  | 0x10 => some (signed (decide (sext old n < sext y n)))
  | 0x14 => some (signed (decide (sext y n < sext old n)))
  | 0x18 => some (signed (decide (old < y % 2 ^ n)))
  | 0x1C => some (signed (decide (y % 2 ^ n < old)))
  | _ => none

/-! ## CSRs -/

/-- mstatus: MIE, MPIE, VS, MPP = M, SD. -/
def Awl.mstatus (a : Awl) : Nat :=
  8 * b2n a.mie + 128 * b2n a.mpie + 2 ^ 9 * (a.vs % 4) + 3 * 2 ^ 11 + 2 ^ 63 * b2n (a.vs % 4 == 3)

/-- misa: RV64 with A, C, I, M, V. -/
def rvMisa : Nat := 2 ^ 63 + 1 + 2 ^ 2 + 2 ^ 8 + 2 ^ 12 + 2 ^ 21

/-- The vector CSRs. -/
def vectorCsr (c : Nat) : Bool := c == 0x008 || c == 0x009 || c == 0x00A || c == 0x00F || c == 0xC20 || c == 0xC21 || c == 0xC22

/-- A CSR of the table of R426, or none for an absent one; the vector CSRs are absent while VS is Off. -/
def Awl.csr (a : Awl) (n c : Nat) : Option Nat :=
  if vectorCsr c && a.vs = 0 then none
  else match c with
    | 0x300 => some a.mstatus
    | 0x301 => some rvMisa
    | 0x304 => some 0
    | 0x344 => some 0
    | 0x305 => some a.mtvec.toNat
    | 0x340 => some a.mscratch.toNat
    | 0x341 => some a.mepc.toNat
    | 0x342 => some a.mcause.toNat
    | 0x343 => some a.mtval.toNat
    | 0xF14 => some n
    | 0xB00 => some a.mcycle.toNat
    | 0xB02 => some a.minstret.toNat
    | 0x008 => some a.vec.vstart
    | 0x009 => some (b2n a.vec.vxsat)
    | 0x00A => some a.vec.vxrm
    | 0x00F => some (b2n a.vec.vxsat + 2 * a.vec.vxrm)
    | 0xC20 => some a.vec.vl
    | 0xC21 => some a.vec.vtype.toNat
    | 0xC22 => some 64
    | _ => none

/-- Write a CSR that is not read-only. A value written to minstret is what the next instruction reads. -/
def Awl.setCsr (a : Awl) (c v : Nat) : Awl :=
  let w := BitVec.ofNat 64 v
  let vec := a.vec
  match c with
  | 0x300 => { a with mie := bit v 3, mpie := bit v 7, vs := bits v 10 9 }
  | 0x305 => { a with mtvec := BitVec.ofNat 64 (v / 4 * 4 + v % 2) }
  | 0x340 => { a with mscratch := w }
  | 0x341 => { a with mepc := BitVec.ofNat 64 (v / 2 * 2) }
  | 0x342 => { a with mcause := w }
  | 0x343 => { a with mtval := w }
  | 0xB00 => { a with mcycle := w }
  | 0xB02 => { a with minstret := w - 1 }
  | 0x008 => { a with vs := 3, vec := { vec with vstart := v % 512 } }
  | 0x009 => { a with vs := 3, vec := { vec with vxsat := bit v 0 } }
  | 0x00A => { a with vs := 3, vec := { vec with vxrm := v % 4 } }
  | 0x00F => { a with vs := 3, vec := { vec with vxsat := bit v 0, vxrm := bits v 2 1 } }
  | _ => a

/-- The instructions of Zicsr. -/
def Awl.zicsr (a : Awl) (n f3 c rd rs1 : Nat) : Option RvRes :=
  let src := if 4 < f3 then rs1 else a.xr rs1
  let writes := f3 % 4 = 1 || rs1 != 0
  match a.csr n c with
  | none => none
  | some old =>
    if writes && c / 1024 = 3 then none
    else
      let v := match f3 % 4 with
        | 1 => src
        | 2 => Nat.lor old src
        | _ => Nat.land old (2 ^ 64 - 1 - src)
      some (.next ((if writes then a.setCsr c v else a).setX rd old))

/-! ## Instructions -/

/-- The immediates of the S, B and J formats. -/
def immS (w : Nat) : Nat := sx64 (bits w 31 25 * 32 + bits w 11 7) 12
def immB (w : Nat) : Nat := sx64 (bits w 31 31 * 2 ^ 12 + bits w 7 7 * 2 ^ 11 + bits w 30 25 * 32 + bits w 11 8 * 2) 13
def immJ (w : Nat) : Nat := sx64 (bits w 31 31 * 2 ^ 20 + bits w 19 12 * 2 ^ 12 + bits w 20 20 * 2 ^ 11 + bits w 30 21 * 2) 21

/-- LR, SC and the atomic memory operations, on local memory. -/
def Awl.atomic (a : Awl) (w : Nat) : Option RvRes :=
  let n := if bits w 14 12 = 2 then 4 else 8
  let rd := bits w 11 7
  let addr := a.xr (bits w 19 15)
  let y := a.xr (bits w 24 20)
  let f5 := bits w 31 27
  if bits w 14 12 != 2 && bits w 14 12 != 3 then none
  else if f5 = 2 then
    if bits w 24 20 != 0 then none
    else some (match a.loadAt addr n true with
      | .error e => .trap e.1 e.2 addr
      | .ok v => .next (({ a with reserved := some (addr / 8) } : Awl).setX rd (sx64 v (8 * n))))
  else if f5 = 3 then
    some (if addr % n != 0 then .trap a 6 addr
      else if localSize < addr + n then .trap a 7 addr
      else if a.reserved != some (addr / 8) then .next (({ a with reserved := none } : Awl).setX rd 1)
      else match a.storeAt addr n y true with
        | .error e => .trap e.1 e.2 addr
        | .ok b => .next (({ b with reserved := none } : Awl).setX rd 0))
  else match rvAmo f5 (8 * n) 0 0 with
    | none => none
    | some _ => some (match a.loadAt addr n true with
      | .error e => .trap e.1 (e.2 + 2) addr
      | .ok old => match a.storeAt addr n ((rvAmo f5 (8 * n) old y).getD 0) true with
        | .error e => .trap e.1 e.2 addr
        | .ok b => .next (b.setX rd (sx64 old (8 * n))))

/-- ECALL, EBREAK, WFI (a NOP, R427), MRET, and Zicsr. -/
def Awl.system (a : Awl) (n w : Nat) : Option RvRes :=
  let f3 := bits w 14 12
  if f3 = 0 then
    if w = 0x00000073 then some (.trap a 11 0)
    else if w = 0x00100073 then some (.trap a 3 a.pc.toNat)
    else if w = 0x10500073 then some (.next a)
    else if w = 0x30200073 then some (.jump a.mret a.mepc.toNat)
    else none
  else if f3 = 4 then none
  else a.zicsr n f3 (bits w 31 20) (bits w 11 7) (bits w 19 15)

/-- The base instructions: none where the encoding is illegal. -/
def Awl.base (a : Awl) (n w len : Nat) : Option RvRes :=
  let f3 := bits w 14 12
  let f7 := bits w 31 25
  let rd := bits w 11 7
  let x := a.xr (bits w 19 15)
  let y := a.xr (bits w 24 20)
  let imm := sx64 (bits w 31 20) 12
  let pc := a.pc.toNat
  let put := fun (v : Nat) => some (RvRes.next (a.setX rd v))
  let jump := fun (rd t : Nat) => some (RvRes.jump (a.setX rd (pc + len)) (t % 2 ^ 64))
  match w % 128 with
  | 0x37 => put (sx64 (bits w 31 12 * 2 ^ 12) 32)
  | 0x17 => put (pc + sx64 (bits w 31 12 * 2 ^ 12) 32)
  | 0x6F => jump rd (pc + immJ w)
  | 0x67 => if f3 = 0 then jump rd ((x + imm) % 2 ^ 64 / 2 * 2) else none
  | 0x63 => match rvTaken f3 x y with
    | some true => some (.jump a ((pc + immB w) % 2 ^ 64))
    | some false => some (.next a)
    | none => none
  | 0x03 =>
    if f3 = 7 then none
    else some (match a.loadAt ((x + imm) % 2 ^ 64) (2 ^ (f3 % 4)) false with
      | .error e => .trap e.1 e.2 ((x + imm) % 2 ^ 64)
      | .ok v => .next (a.setX rd (if f3 < 4 then sx64 v (8 * 2 ^ f3) else v)))
  | 0x23 =>
    if 3 < f3 then none
    else some (match a.storeAt ((x + immS w) % 2 ^ 64) (2 ^ f3) (y % 2 ^ (8 * 2 ^ f3)) false with
      | .error e => .trap e.1 e.2 ((x + immS w) % 2 ^ 64)
      | .ok b => .next b)
  | 0x13 =>
    if (f3 = 1 && f7 / 2 != 0) || (f3 = 5 && f7 / 2 != 0 && f7 / 2 != 0x10) then none
    else put (rvAlu f3 (f3 = 5 && f7 / 2 = 0x10) x (if f3 = 1 || f3 = 5 then bits w 25 20 else imm))
  | 0x1B =>
    if f3 = 0 then put (rvAluW 0 false x imm)
    else if (f3 = 1 && f7 = 0) || (f3 = 5 && (f7 = 0 || f7 = 0x20)) then put (rvAluW f3 (f7 = 0x20) x (bits w 24 20))
    else none
  | 0x33 =>
    if f7 = 1 then put (rvMul f3 64 x y)
    else if f7 = 0 || (f7 = 0x20 && (f3 = 0 || f3 = 5)) then put (rvAlu f3 (f7 = 0x20) x y)
    else none
  | 0x3B =>
    if f7 = 1 && (f3 = 0 || 4 ≤ f3) then put (rvMul f3 32 x y)
    else if (f7 = 0 && (f3 = 0 || f3 = 1 || f3 = 5)) || (f7 = 0x20 && (f3 = 0 || f3 = 5)) then put (rvAluW f3 (f7 = 0x20) x y)
    else none
  | 0x0F =>
    if f3 = 0 then some (.next a)
    else if f3 = 1 then some (.next { a with stale := [] })
    else none
  | 0x2F => a.atomic w
  | 0x73 => a.system n w
  | _ => none

end Sys2Proof.Machine
end

