-- ==== Sys2Proof/Machine/RvVec.lean ====
section
/-! DEFINITION. The vector state of an Awl and the arithmetic of the vector extension (R425; the RISC-V unprivileged
specification): VLEN 512, ELEN 64, integer and fixed-point. Without F and D in R425 and without their CSRs in R426, vector
floating point is illegal (log entry 34). -/

namespace Sys2Proof.Machine

/-! ## vtype -/

/-- SEW in bits. -/
def VState.sew (v : VState) : Nat := 8 * 2 ^ bits v.vtype.toNat 5 3

/-- LMUL in eighths, from its encoding; 0 for the reserved one. -/
def lmul8Of (m : Nat) : Nat :=
  match m with
  | 0 => 8 | 1 => 16 | 2 => 32 | 3 => 64 | 5 => 1 | 6 => 2 | 7 => 4
  | _ => 0

def VState.lmul8 (v : VState) : Nat := lmul8Of (bits v.vtype.toNat 2 0)
def VState.vill (v : VState) : Bool := bit v.vtype.toNat 63
def VState.ta (v : VState) : Bool := bit v.vtype.toNat 6
def VState.ma (v : VState) : Bool := bit v.vtype.toNat 7

/-- VLMAX for LMUL in eighths and SEW. -/
def vlmaxOf (lmul8 sew : Nat) : Nat := 64 * lmul8 / sew
def VState.vlmax (v : VState) : Nat := vlmaxOf v.lmul8 v.sew

/-- A value of vtype that the hart supports: SEW at most 64 and at most LMUL × ELEN. -/
def vtypeOk (t : Nat) : Bool :=
  decide (t < 256) && decide (bits t 5 3 ≤ 3) && lmul8Of (bits t 2 0) != 0 && decide (8 * 2 ^ bits t 5 3 ≤ 8 * lmul8Of (bits t 2 0))

/-- vl for an application vector length (AVL) and VLMAX: between VLMAX and twice VLMAX the spec leaves a range open, and the
length is a free value of both (log entry 9). -/
def vlFor (avl vlmax : Nat) : Nat :=
  if avl ≤ vlmax then avl
  else if 2 * vlmax ≤ avl then vlmax
  else
    let low := (avl + 1) / 2
    low + (Config.freeWord (2 ^ 200 + avl * 2 ^ 16 + vlmax)).toNat % (vlmax + 1 - low)

/-- Set vtype and vl (vsetvl and its immediate forms): an unsupported vtype sets vill. -/
def VState.configure (v : VState) (t : Nat) (avl : Nat → Nat) : VState :=
  if vtypeOk t then
    { v with vtype := BitVec.ofNat 64 t, vl := avl (vlmaxOf (lmul8Of (bits t 2 0)) (8 * 2 ^ bits t 5 3)), vstart := 0 }
  else { v with vtype := BitVec.ofNat 64 (2 ^ 63), vl := 0, vstart := 0 }

/-! ## Registers and groups -/

def VState.vreg (v : VState) (r : Nat) : Nat := (v.regs.get 0 (r % 32)).toNat

/-- Element i of w bits of the group at r. -/
def VState.elem (v : VState) (r w i : Nat) : Nat :=
  bits (v.vreg (r + i * w / 512)) (i * w % 512 + w - 1) (i * w % 512)

def VState.setElem (v : VState) (r w i x : Nat) : VState :=
  let k := (r + i * w / 512) % 32
  { v with regs := v.regs.set 0 k (BitVec.ofNat 512 (putBits (v.vreg k) (i * w % 512 + w - 1) (i * w % 512) x)) }

/-- Bit i of the mask in register r. -/
def VState.mbit (v : VState) (r i : Nat) : Bool := bit (v.vreg r) i

/-- Element i takes part: unmasked, or its bit of v0 is set. -/
def VState.on (v : VState) (vm : Bool) (i : Nat) : Bool := vm || v.mbit 0 i

/-- A group of EMUL (in eighths) at r is legal: EMUL from 1/8 to 8, r a multiple of EMUL. -/
def groupOk (r emul8 : Nat) : Bool := decide (1 ≤ emul8) && decide (emul8 ≤ 64) && r % max 1 (emul8 / 8) == 0

/-- Registers of a group. -/
def groupLen (emul8 : Nat) : Nat := max 1 (emul8 / 8)

/-- Two groups share a register. -/
def groupsMeet (a na b nb : Nat) : Bool := decide (a < b + nb) && decide (b < a + na)

/-- A destination group (register, EMUL in eighths, element width) may stand where a source group stands: not at all, with
equal widths, narrower in its lowest part, or wider with the source in its highest part. -/
def overlapOk (d de dw s se sw : Nat) : Bool :=
  !groupsMeet d (groupLen de) s (groupLen se) || dw == sw || (decide (dw < sw) && d == s)
    || (decide (sw < dw) && decide (8 ≤ se) && s + groupLen se == d + groupLen de)

/-- A masked instruction does not write a group over v0. -/
def maskOk (vm : Bool) (d : Nat) : Bool := vm || d != 0

/-! ## Writing a destination -/

/-- An agnostic element or mask bit: each bit old, or 1, by a free value of the place (log entry 9). -/
def agnostic (key i old w : Nat) : Nat :=
  if bit (Config.freeWord (2 ^ 64 * (key + 1) + i)).toNat 0 then 2 ^ w - 1 else old

/-- Write a destination of elements of w bits over `total` places (R425): prestart elements stay, active body elements take
f i, masked-off and tail elements follow the mask and tail policies. -/
def VState.writeBody (v : VState) (key d w total vl : Nat) (ta ma : Bool) (active : Nat → Bool) (f : Nat → Nat) : VState :=
  if vl ≤ v.vstart then v
  else (upFrom 0 total).foldl (fun (acc : VState) i =>
    let old := v.elem d w i
    if i < v.vstart then acc
    else if vl ≤ i then (if ta then acc.setElem d w i (agnostic key i old w) else acc)
    else if active i then acc.setElem d w i (f i)
    else if ma then acc.setElem d w i (agnostic key i old w)
    else acc) v

/-- Places of a group: to the end of its last register. -/
def placesOf (emul8 w : Nat) : Nat := groupLen emul8 * 512 / w

/-- The usual destination: the group of LMUL × w / SEW under the policies of vtype. -/
def VState.writeGroup (v : VState) (key d w : Nat) (vm : Bool) (f : Nat → Nat) : VState :=
  v.writeBody key d w (placesOf (v.lmul8 * w / v.sew) w) v.vl v.ta v.ma (v.on vm) f

/-- A mask destination: tail bits are always agnostic. -/
def VState.writeMask (v : VState) (key d : Nat) (vm : Bool) (f : Nat → Bool) : VState :=
  v.writeBody key d 1 512 v.vl true v.ma (v.on vm) (fun i => b2n (f i))

/-! ## Element arithmetic -/

/-- Rounding of v / 2^d by vxrm. -/
def roundoff (rm : Nat) (v : Int) (d : Nat) : Int :=
  let m : Int := ((2 ^ d : Nat) : Int)
  let q := v / m
  let r := v % m
  let up := match rm with
    | 0 => decide (m ≤ 2 * r)
    | 1 => decide (m < 2 * r) || (decide (m = 2 * r) && q % 2 == 1)
    | 2 => false
    | _ => decide (r ≠ 0) && q % 2 == 0
  if d = 0 then v else if up then q + 1 else q

/-- Saturate to w bits: the value, and whether it saturated. -/
def satTo (signed : Bool) (w : Nat) (x : Int) : Nat × Bool :=
  let lo : Int := if signed then -((2 ^ (w - 1) : Nat) : Int) else 0
  let hi : Int := if signed then ((2 ^ (w - 1) : Nat) : Int) - 1 else ((2 ^ w : Nat) : Int) - 1
  (wrap (satInt x lo hi) w, decide (x < lo) || decide (hi < x))

/-- Single-width operations of OPI (vs2 = x, other = y), by funct6: the value, and vxsat. -/
def opiElem (f6 w rm x y : Nat) : Option (Nat × Bool) :=
  let sx := sext x w
  let sy := sext y w
  let n := fun (v : Nat) => some (v % 2 ^ w, false)
  let i := fun (v : Int) => some (wrap v w, false)
  let sh := y % w
  match f6 with
  | 0x00 => n (x + y)
  | 0x02 => i ((x : Int) - y)
  | 0x03 => i ((y : Int) - x)
  | 0x04 => n (min x y)
  | 0x05 => i (min sx sy)
  | 0x06 => n (max x y)
  | 0x07 => i (max sx sy)
  | 0x09 => n (Nat.land x y)
  | 0x0A => n (Nat.lor x y)
  | 0x0B => n (Nat.xor x y)
  | 0x20 => some (satTo false w ((x : Int) + y))
  | 0x21 => some (satTo true w (sx + sy))
  | 0x22 => some (satTo false w ((x : Int) - y))
  | 0x23 => some (satTo true w (sx - sy))
  | 0x25 => n (x * 2 ^ sh)
  | 0x27 => some (satTo true w (roundoff rm (sx * sy) (w - 1)))
  | 0x28 => n (x / 2 ^ sh)
  | 0x29 => i (sx / ((2 ^ sh : Nat) : Int))
  | 0x2A => i (roundoff rm x sh)
  | 0x2B => i (roundoff rm sx sh)
  | _ => none

/-- Single-width operations of OPM, with the old destination for the multiply-adds. -/
def opmElem (f6 w rm x y old : Nat) : Option Nat :=
  let sx := sext x w
  let sy := sext y w
  let i := fun (v : Int) => some (wrap v w)
  let hi := fun (p : Int) => some (wrap (p / ((2 ^ w : Nat) : Int)) w)
  match f6 with
  | 0x08 => i (roundoff rm ((x : Int) + y) 1)
  | 0x09 => i (roundoff rm (sx + sy) 1)
  | 0x0A => i (roundoff rm ((x : Int) - y) 1)
  | 0x0B => i (roundoff rm (sx - sy) 1)
  | 0x20 => if y = 0 then i (-1) else i ((x / y : Nat) : Int)
  | 0x21 => if y = 0 then i (-1) else i (sx.tdiv sy)
  | 0x22 => if y = 0 then i x else i ((x % y : Nat) : Int)
  | 0x23 => if y = 0 then i sx else i (sx.tmod sy)
  | 0x24 => hi ((x : Int) * y)
  | 0x25 => i (sx * sy)
  | 0x26 => hi (sx * (y : Int))
  | 0x27 => hi (sx * sy)
  | 0x29 => i ((y * old + x : Nat) : Int)
  | 0x2B => i ((x : Int) - (y * old : Nat))
  | 0x2D => i ((y * x + old : Nat) : Int)
  | 0x2F => i ((old : Int) - (y * x : Nat))
  | _ => none

/-- The comparisons of OPI, by funct6. -/
def cmpElem (f6 w x y : Nat) : Bool :=
  let sx := sext x w
  let sy := sext y w
  match f6 with
  | 0x18 => x == y
  | 0x19 => x != y
  | 0x1A => decide (x < y)
  | 0x1B => decide (sx < sy)
  | 0x1C => decide (x ≤ y)
  | 0x1D => decide (sx ≤ sy)
  | 0x1E => decide (y < x)
  | _ => decide (sy < sx)

/-- Widening operations of OPM, by funct6; x is of 2w bits for the .w forms. -/
def wideElem (f6 w x y old : Nat) : Option Nat :=
  let sx := sext x w
  let sy := sext y w
  let i := fun (v : Int) => some (wrap v (2 * w))
  match f6 with
  | 0x30 => i ((x : Int) + y)
  | 0x31 => i (sx + sy)
  | 0x32 => i ((x : Int) - y)
  | 0x33 => i (sx - sy)
  | 0x34 => i ((x : Int) + y)
  | 0x35 => i (sext x (2 * w) + sy)
  | 0x36 => i ((x : Int) - y)
  | 0x37 => i (sext x (2 * w) - sy)
  | 0x38 => i ((x : Int) * y)
  | 0x3A => i (sx * (y : Int))
  | 0x3B => i (sx * sy)
  | 0x3C => i ((x : Int) * y + old)
  | 0x3D => i (sx * sy + old)
  | 0x3E => i (sx * (y : Int) + old)
  | 0x3F => i ((x : Int) * sy + old)
  | _ => none

/-- Reduction steps, by funct6. -/
def redElem (f6 w acc x : Nat) : Nat :=
  match f6 with
  | 0x00 => (acc + x) % 2 ^ w
  | 0x01 => Nat.land acc x
  | 0x02 => Nat.lor acc x
  | 0x03 => Nat.xor acc x
  | 0x04 => min acc x
  | 0x05 => wrap (min (sext acc w) (sext x w)) w
  | 0x06 => max acc x
  | _ => wrap (max (sext acc w) (sext x w)) w

/-- Mask logic of OPM (vs2 = x, vs1 = y). -/
def maskElem (f6 : Nat) (x y : Bool) : Bool :=
  match f6 with
  | 0x18 => x && !y
  | 0x19 => x && y
  | 0x1A => x || y
  | 0x1B => x != y
  | 0x1C => x || !y
  | 0x1D => !(x && y)
  | 0x1E => !(x || y)
  | _ => x == y

end Sys2Proof.Machine
end

