-- ==== Sys2Proof/Machine/RvV.lean ====
section
/-! DEFINITION. The vector instructions of an Awl (R425; the RISC-V unprivileged specification), and the step
AWL_STANDARD_INSTRUCTION. A reserved encoding or operand raises illegal instruction (log entry 34). -/

namespace Sys2Proof.Machine

/-- The fields of an instruction of major opcode OP-V. -/
structure VOp where
  f3 : Nat
  f6 : Nat
  vm : Bool
  vs2 : Nat
  vs1 : Nat
  vd : Nat

def vopOf (w : Nat) : VOp :=
  { f3 := bits w 14 12, f6 := bits w 31 26, vm := bit w 25, vs2 := bits w 24 20, vs1 := bits w 19 15, vd := bits w 11 7 }

/-- What a vector instruction leaves: the vector state, and a scalar result for x[rd]. -/
abbrev VRes := Option (VState × Option Nat)

/-- The instruction takes its last operand from a vector register. -/
def VOp.isV (o : VOp) : Bool := o.f3 == 0 || o.f3 == 2

/-- The operand that is not vs2, for element i of w bits: vs1, an immediate (signed, or unsigned), or x[rs1]. -/
def Awl.vsrc (a : Awl) (o : VOp) (w : Nat) (unsigned : Bool) (i : Nat) : Nat :=
  if o.isV then a.vec.elem o.vs1 w i
  else if o.f3 = 3 then (if unsigned then o.vs1 else wrap (sext o.vs1 5) w)
  else a.xr o.vs1 % 2 ^ w

/-- The groups of LMUL of a single-width instruction are legal. -/
def VState.groupsOk (v : VState) (o : VOp) : Bool :=
  groupOk o.vd v.lmul8 && groupOk o.vs2 v.lmul8 && (!o.isV || groupOk o.vs1 v.lmul8)

/-- Body elements that take part. -/
def VState.bodyOn (v : VState) (vm : Bool) : List Nat := ((upFrom 0 v.vl).filter (fun i => decide (v.vstart ≤ i))).filter (v.on vm)

/-- vxsat is set where an element saturated. -/
def VState.saturate (v : VState) (l : List Bool) : VState := { v with vxsat := v.vxsat || l.any id }

/-! ## Integer and fixed-point, single width -/

/-- The forms that the operations of OPI have. -/
def opiForm (f6 f3 : Nat) : Bool :=
  match f6 with
  | 0x02 | 0x04 | 0x05 | 0x06 | 0x07 | 0x22 | 0x23 | 0x27 => f3 != 3
  | 0x03 => f3 != 0
  | _ => true

/-- Shifts take an unsigned immediate. -/
def unsignedImm (f6 : Nat) : Bool := decide (0x25 ≤ f6)

def Awl.vOpi (a : Awl) (key : Nat) (o : VOp) : VRes :=
  let v := a.vec
  let w := v.sew
  let op := fun (i : Nat) => opiElem o.f6 w v.vxrm (v.elem o.vs2 w i) (a.vsrc o w (unsignedImm o.f6) i)
  if (opiElem o.f6 w 0 0 0).isNone || !opiForm o.f6 o.f3 || !v.groupsOk o || !maskOk o.vm o.vd then none
  else some ((v.writeGroup key o.vd w o.vm (fun i => ((op i).getD (0, false)).1)).saturate ((v.bodyOn o.vm).map (fun i => ((op i).getD (0, false)).2)), none)

def Awl.vOpm (a : Awl) (key : Nat) (o : VOp) : VRes :=
  let v := a.vec
  let w := v.sew
  if (opmElem o.f6 w 0 0 0 0).isNone || !v.groupsOk o || !maskOk o.vm o.vd then none
  else some (v.writeGroup key o.vd w o.vm (fun i =>
    (opmElem o.f6 w v.vxrm (v.elem o.vs2 w i) (a.vsrc o w false i) (v.elem o.vd w i)).getD 0), none)

/-- Sources of LMUL under a mask destination. -/
def VState.maskDestOk (v : VState) (o : VOp) : Bool :=
  groupOk o.vs2 v.lmul8 && (!o.isV || groupOk o.vs1 v.lmul8) && overlapOk o.vd 8 1 o.vs2 v.lmul8 v.sew
    && (!o.isV || overlapOk o.vd 8 1 o.vs1 v.lmul8 v.sew)

/-- vmseq … vmsgt. -/
def Awl.vCompare (a : Awl) (key : Nat) (o : VOp) : VRes :=
  let v := a.vec
  let w := v.sew
  let form := match o.f6 with
    | 0x1A | 0x1B => o.f3 != 3
    | 0x1E | 0x1F => o.f3 != 0
    | _ => true
  if !form || !v.maskDestOk o then none
  else some (v.writeMask key o.vd o.vm (fun i => cmpElem o.f6 w (v.elem o.vs2 w i) (a.vsrc o w false i)), none)

/-- vadc, vsbc: every body element, with the carry or borrow of v0. -/
def Awl.vCarry (a : Awl) (key : Nat) (o : VOp) : VRes :=
  let v := a.vec
  let w := v.sew
  if o.vm || o.vd = 0 || !v.groupsOk o || (o.f6 = 0x12 && o.f3 = 3) then none
  else some (v.writeGroup key o.vd w true (fun i =>
    let x := v.elem o.vs2 w i
    let y := a.vsrc o w false i
    let c := b2n (v.mbit 0 i)
    if o.f6 = 0x10 then (x + y + c) % 2 ^ w else wrap ((x : Int) - y - c) w), none)

/-- vmadc, vmsbc: the carry or borrow out of every body element. -/
def Awl.vCarryOut (a : Awl) (key : Nat) (o : VOp) : VRes :=
  let v := a.vec
  let w := v.sew
  if !v.maskDestOk o || (o.f6 = 0x13 && o.f3 = 3) then none
  else some (v.writeMask key o.vd true (fun i =>
    let x := v.elem o.vs2 w i
    let y := a.vsrc o w false i
    let c := if o.vm then 0 else b2n (v.mbit 0 i)
    if o.f6 = 0x11 then decide (2 ^ w ≤ x + y + c) else decide (x < y + c)), none)

/-- vmerge, vmv.v. -/
def Awl.vMerge (a : Awl) (key : Nat) (o : VOp) : VRes :=
  let v := a.vec
  let w := v.sew
  if (o.vm && o.vs2 != 0) || (!o.vm && o.vd = 0) || !groupOk o.vd v.lmul8 || (!o.vm && !groupOk o.vs2 v.lmul8)
      || (o.isV && !groupOk o.vs1 v.lmul8) then none
  else some (v.writeGroup key o.vd w true (fun i => if v.on o.vm i then a.vsrc o w false i else v.elem o.vs2 w i), none)

/-! ## Narrowing and widening -/

/-- vnsrl, vnsra, vnclipu, vnclip. -/
def Awl.vNarrow (a : Awl) (key : Nat) (o : VOp) : VRes :=
  let v := a.vec
  let w := v.sew
  let op := fun (i : Nat) =>
    let x := v.elem o.vs2 (2 * w) i
    let sh := a.vsrc o w true i % (2 * w)
    match o.f6 with
    | 0x2C => (x / 2 ^ sh % 2 ^ w, false)
    | 0x2D => (wrap (sext x (2 * w) / ((2 ^ sh : Nat) : Int)) w, false)
    | 0x2E => satTo false w (roundoff v.vxrm x sh)
    | _ => satTo true w (roundoff v.vxrm (sext x (2 * w)) sh)
  if 32 < w || !groupOk o.vd v.lmul8 || !groupOk o.vs2 (2 * v.lmul8) || (o.isV && !groupOk o.vs1 v.lmul8)
      || !overlapOk o.vd v.lmul8 w o.vs2 (2 * v.lmul8) (2 * w) || !maskOk o.vm o.vd then none
  else some ((v.writeGroup key o.vd w o.vm (fun i => (op i).1)).saturate ((v.bodyOn o.vm).map (fun i => (op i).2)), none)

/-- The widening instructions. -/
def Awl.vWiden (a : Awl) (key : Nat) (o : VOp) : VRes :=
  let v := a.vec
  let w := v.sew
  let wideX := decide (0x34 ≤ o.f6) && decide (o.f6 ≤ 0x37)
  let xw := if wideX then 2 * w else w
  if (wideElem o.f6 w 0 0 0).isNone || (o.f6 = 0x3E && o.isV) || 32 < w
      || !groupOk o.vd (2 * v.lmul8) || !groupOk o.vs2 (xw * v.lmul8 / w) || (o.isV && !groupOk o.vs1 v.lmul8)
      || !overlapOk o.vd (2 * v.lmul8) (2 * w) o.vs2 (xw * v.lmul8 / w) xw
      || (o.isV && !overlapOk o.vd (2 * v.lmul8) (2 * w) o.vs1 v.lmul8 w) || !maskOk o.vm o.vd then none
  else some (v.writeGroup key o.vd (2 * w) o.vm (fun i =>
    (wideElem o.f6 w (v.elem o.vs2 xw i) (a.vsrc o w false i) (v.elem o.vd (2 * w) i)).getD 0), none)

/-- vzext, vsext: the field of vs1 gives the fraction and the extension. -/
def Awl.vExtend (a : Awl) (key : Nat) (o : VOp) : VRes :=
  let v := a.vec
  let w := v.sew
  let f := match o.vs1 / 2 with
    | 1 => 8
    | 2 => 4
    | 3 => 2
    | _ => 0
  if f = 0 || 7 < o.vs1 || w / f < 8 || v.lmul8 % f != 0 || !groupOk o.vd v.lmul8 || !groupOk o.vs2 (v.lmul8 / f)
      || !overlapOk o.vd v.lmul8 w o.vs2 (v.lmul8 / f) (w / f) || !maskOk o.vm o.vd then none
  else some (v.writeGroup key o.vd w o.vm (fun i =>
    let x := v.elem o.vs2 (w / f) i
    if o.vs1 % 2 = 1 then wrap (sext x (w / f)) w else x), none)

/-! ## Reductions -/

/-- A reduction into element 0 of a destination of dw bits. -/
def VState.reduce (v : VState) (key : Nat) (o : VOp) (dw : Nat) (step : Nat → Nat → Nat) (get : Nat → Nat) : VRes :=
  if v.vstart != 0 || !groupOk o.vs2 v.lmul8 then none
  else if v.vl = 0 then some (v, none)
  else some (v.writeBody key o.vd dw (512 / dw) 1 v.ta false (fun _ => true) (fun _ =>
    (v.bodyOn o.vm).foldl (fun acc i => step acc (get i)) (v.elem o.vs1 dw 0)), none)

def Awl.vReduce (a : Awl) (key : Nat) (o : VOp) : VRes :=
  let v := a.vec
  v.reduce key o v.sew (redElem o.f6 v.sew) (fun i => v.elem o.vs2 v.sew i)

/-- vwredsumu, vwredsum. -/
def Awl.vReduceWide (a : Awl) (key : Nat) (o : VOp) : VRes :=
  let v := a.vec
  let w := v.sew
  if 32 < w then none
  else v.reduce key o (2 * w) (redElem 0 (2 * w)) (fun i => if o.f6 = 0x31 then wrap (sext (v.elem o.vs2 w i) w) (2 * w) else v.elem o.vs2 w i)

/-! ## Permutations -/

/-- A slide: up by an offset leaves the elements below it; down reads 0 past VLMAX. -/
def Awl.vSlide (a : Awl) (key : Nat) (o : VOp) : VRes :=
  let v := a.vec
  let w := v.sew
  let off := if o.f3 = 3 then o.vs1 else a.xr o.vs1
  if !groupOk o.vd v.lmul8 || !groupOk o.vs2 v.lmul8 || !maskOk o.vm o.vd then none
  else if o.f6 = 0x0E then
    if groupsMeet o.vd (groupLen v.lmul8) o.vs2 (groupLen v.lmul8) then none
    else
      let u := { v with vstart := max v.vstart (min off v.vl) }
      let r := u.writeGroup key o.vd w o.vm (fun i => v.elem o.vs2 w (i - off))
      let tail := if v.vl ≤ u.vstart && v.vstart < v.vl then v.writeBody key o.vd w (placesOf v.lmul8 w) v.vl v.ta false (fun _ => false) (fun _ => 0) else r
      some (tail, none)
  else some (v.writeGroup key o.vd w o.vm (fun i => if i + off < v.vlmax then v.elem o.vs2 w (i + off) else 0), none)

/-- vslide1up, vslide1down. -/
def Awl.vSlide1 (a : Awl) (key : Nat) (o : VOp) : VRes :=
  let v := a.vec
  let w := v.sew
  let x := a.xr o.vs1 % 2 ^ w
  if !groupOk o.vd v.lmul8 || !groupOk o.vs2 v.lmul8 || !maskOk o.vm o.vd then none
  else if o.f6 = 0x0E then
    if groupsMeet o.vd (groupLen v.lmul8) o.vs2 (groupLen v.lmul8) then none
    else some (v.writeGroup key o.vd w o.vm (fun i => if i = 0 then x else v.elem o.vs2 w (i - 1)), none)
  else some (v.writeGroup key o.vd w o.vm (fun i => if i + 1 = v.vl then x else v.elem o.vs2 w (i + 1)), none)

/-- vrgather; with 16-bit indices, vrgatherei16. -/
def Awl.vGather (a : Awl) (key : Nat) (o : VOp) (iw : Nat) : VRes :=
  let v := a.vec
  let w := v.sew
  let ie := iw * v.lmul8 / w
  let n := groupLen v.lmul8
  let index := fun (i : Nat) => if o.isV then v.elem o.vs1 iw i else if o.f3 = 3 then o.vs1 else a.xr o.vs1
  if !groupOk o.vd v.lmul8 || !groupOk o.vs2 v.lmul8 || !maskOk o.vm o.vd || groupsMeet o.vd n o.vs2 n
      || (o.isV && (!groupOk o.vs1 ie || groupsMeet o.vd n o.vs1 (groupLen ie))) then none
  else some (v.writeGroup key o.vd w o.vm (fun i => if index i < v.vlmax then v.elem o.vs2 w (index i) else 0), none)

/-- vcompress: the elements whose bit of vs1 is set, packed; what follows is tail. -/
def Awl.vCompress (a : Awl) (key : Nat) (o : VOp) : VRes :=
  let v := a.vec
  let w := v.sew
  let n := groupLen v.lmul8
  let picked := (upFrom 0 v.vl).filter (v.mbit o.vs1)
  if !o.vm || v.vstart != 0 || !groupOk o.vd v.lmul8 || !groupOk o.vs2 v.lmul8 || groupsMeet o.vd n o.vs2 n || groupsMeet o.vd n o.vs1 1 then none
  else if v.vl = 0 then some (v, none)
  else if picked.isEmpty then
    some (v.writeBody key o.vd w (placesOf v.lmul8 w) v.vl v.ta v.ta (fun _ => false) (fun _ => 0), none)
  else some (v.writeBody key o.vd w (placesOf v.lmul8 w) picked.length v.ta false (fun _ => true) (fun i => v.elem o.vs2 w (picked.getD i 0)), none)

/-- vmv1r to vmv8r. -/
def Awl.vMoveWhole (a : Awl) (o : VOp) : VRes :=
  let v := a.vec
  let n := o.vs1 + 1
  if !o.vm || !(n == 1 || n == 2 || n == 4 || n == 8) || o.vd % n != 0 || o.vs2 % n != 0 then none
  else some ((upFrom 0 (n * 512 / v.sew)).foldl (fun (acc : VState) i =>
    if i < v.vstart then acc else acc.setElem o.vd v.sew i (v.elem o.vs2 v.sew i)) v, none)

/-! ## Masks and scalars -/

/-- The mask logical instructions. -/
def Awl.vMaskLogic (a : Awl) (key : Nat) (o : VOp) : VRes :=
  let v := a.vec
  if !o.vm then none else some (v.writeMask key o.vd true (fun i => maskElem o.f6 (v.mbit o.vs2 i) (v.mbit o.vs1 i)), none)

/-- vmsbf, vmsof, vmsif, viota, vid. -/
def Awl.vMaskUnary (a : Awl) (key : Nat) (o : VOp) : VRes :=
  let v := a.vec
  let w := v.sew
  let set := fun (i : Nat) => v.on o.vm i && v.mbit o.vs2 i
  let before := fun (i : Nat) => (upFrom 0 i).any set
  let first := fun (f : Nat → Bool) =>
    if v.vstart != 0 || o.vd = o.vs2 || !maskOk o.vm o.vd then none else some (v.writeMask key o.vd o.vm f, none)
  match o.vs1 with
  | 1 => first (fun i => !before i && !set i)
  | 2 => first (fun i => !before i && set i)
  | 3 => first (fun i => !before i)
  | 0x10 =>
    if v.vstart != 0 || !groupOk o.vd v.lmul8 || !maskOk o.vm o.vd || groupsMeet o.vd (groupLen v.lmul8) o.vs2 1 then none
    else some (v.writeGroup key o.vd w o.vm (fun i => ((upFrom 0 i).filter set).length % 2 ^ w), none)
  | 0x11 =>
    if o.vs2 != 0 || !groupOk o.vd v.lmul8 || !maskOk o.vm o.vd then none
    else some (v.writeGroup key o.vd w o.vm (fun i => i % 2 ^ w), none)
  | _ => none

/-- vmv.x.s, vcpop, vfirst; vmv.s.x. -/
def Awl.vScalar (a : Awl) (key : Nat) (o : VOp) : VRes :=
  let v := a.vec
  let w := v.sew
  let set := (upFrom 0 v.vl).filter (fun i => v.on o.vm i && v.mbit o.vs2 i)
  if o.f3 = 6 then
    if !o.vm || o.vs2 != 0 then none
    else if v.vl ≤ v.vstart then some (v, none)
    else some (v.writeBody key o.vd w (512 / w) 1 v.ta false (fun _ => true) (fun _ => a.xr o.vs1 % 2 ^ w), none)
  else match o.vs1 with
    | 0 => if o.vm then some (v, some (sx64 (v.elem o.vs2 w 0) w)) else none
    | 0x10 => if v.vstart != 0 then none else some (v, some set.length)
    | 0x11 => if v.vstart != 0 then none else some (v, some (set.headD (2 ^ 64 - 1)))
    | _ => none

/-! ## The major opcode OP-V -/

/-- The arithmetic instructions by category and funct6. -/
def Awl.vArith (a : Awl) (key : Nat) (o : VOp) : VRes :=
  if a.vec.vill then none
  else if o.f3 = 0 || o.f3 = 3 || o.f3 = 4 then
    match o.f6 with
    | 0x0C => a.vGather key o a.vec.sew
    | 0x0E => if o.f3 = 0 then a.vGather key o 16 else a.vSlide key o
    | 0x0F => if o.f3 = 0 then none else a.vSlide key o
    | 0x10 | 0x12 => a.vCarry key o
    | 0x11 | 0x13 => a.vCarryOut key o
    | 0x17 => a.vMerge key o
    | 0x27 => if o.f3 = 3 then a.vMoveWhole o else a.vOpi key o
    | 0x2C | 0x2D | 0x2E | 0x2F => a.vNarrow key o
    | 0x30 | 0x31 => if o.f3 = 0 then a.vReduceWide key o else none
    | f6 => if 0x18 ≤ f6 && f6 ≤ 0x1F then a.vCompare key o else a.vOpi key o
  else if o.f3 = 2 || o.f3 = 6 then
    match o.f6 with
    | 0x0E | 0x0F => if o.f3 = 6 then a.vSlide1 key o else none
    | 0x10 => a.vScalar key o
    | 0x12 => if o.f3 = 2 then a.vExtend key o else none
    | 0x14 => if o.f3 = 2 then a.vMaskUnary key o else none
    | 0x17 => if o.f3 = 2 then a.vCompress key o else none
    | f6 =>
      if f6 < 8 then (if o.f3 = 2 then a.vReduce key o else none)
      else if 0x18 ≤ f6 && f6 ≤ 0x1F then (if o.f3 = 2 then a.vMaskLogic key o else none)
      else if 0x30 ≤ f6 then a.vWiden key o
      else a.vOpm key o
  else none

/-- vsetvli, vsetivli, vsetvl. -/
def Awl.vSet (a : Awl) (w : Nat) : VRes :=
  let v := a.vec
  let rd := bits w 11 7
  let rs1 := bits w 19 15
  let byReg := fun (t : Nat) =>
    if rs1 != 0 then v.configure t (vlFor (a.xr rs1))
    else if rd != 0 then v.configure t (fun m => m)
    else if !v.vill && vtypeOk t && vlmaxOf (lmul8Of (bits t 2 0)) (8 * 2 ^ bits t 5 3) = v.vlmax then v.configure t (fun _ => v.vl)
    else v.configure (2 ^ 63) (fun _ => 0)
  let done := fun (u : VState) => some (u, some u.vl)
  if bits w 31 31 = 0 then done (byReg (bits w 30 20))
  else if bits w 31 30 = 3 then done (v.configure (bits w 29 20) (vlFor rs1))
  else if bits w 30 25 = 0 then done (byReg (a.xr (bits w 24 20)))
  else none

/-- Set the vector state after an instruction: vstart 0, VS Dirty, and x[rd]. -/
def Awl.vDone (a : Awl) (rd : Nat) (r : VState × Option Nat) : Awl :=
  let v := r.1
  let b := { a with vec := { v with vstart := 0 }, vs := 3 }
  match r.2 with
  | some x => b.setX rd x
  | none => b

/-! ## Loads and stores -/

/-- The element accesses of a vector load or store, in order: element number, field, and address. -/
structure VAccess where
  elem : Nat
  field : Nat
  addr : Nat

/-- Perform the accesses of a load: each reads w bits into its field's group of `span` registers. A fault stops at its element;
with `first`, a fault past element 0 shortens vl instead. -/
def Awl.vLoadAll (a : Awl) (w d span : Nat) (first : Bool) : List VAccess → RvRes
  | [] => .next a
  | x :: rest =>
    match a.loadAt x.addr (w / 8) true with
    | .ok v => ({ a with vec := a.vec.setElem (d + x.field * span) w x.elem v } : Awl).vLoadAll w d span first rest
    | .error e =>
      let v := a.vec
      if first && 0 < x.elem then .next { a with vec := { v with vl := x.elem } }
      else
        let b := e.1
        .trap { b with vs := 3, vec := { v with vstart := x.elem } } e.2 x.addr

/-- Perform the accesses of a store. -/
def Awl.vStoreAll (a : Awl) (w d span : Nat) : List VAccess → RvRes
  | [] => .next a
  | x :: rest =>
    match a.storeAt x.addr (w / 8) (a.vec.elem (d + x.field * span) w x.elem) true with
    | .ok b => b.vStoreAll w d span rest
    | .error e =>
      let b := e.1
      let v := b.vec
      .trap { b with vs := 3, vec := { v with vstart := x.elem } } e.2 x.addr

/-- The end of a load: masked-off and tail elements of every field by their policies. -/
def VState.vLoadRest (v u : VState) (key d w emul8 fields : Nat) (vm ta : Bool) : VState :=
  (upFrom 0 fields).foldl (fun (acc : VState) f =>
    let at' := d + f * groupLen emul8
    let x := { acc with vstart := u.vstart }
    let y := x.writeBody (key + f) at' w (placesOf emul8 w) acc.vl ta u.ma (u.on vm) (fun i => acc.elem at' w i)
    { y with vstart := acc.vstart }) v

/-- A load or store of the vector extension. -/
def Awl.vMemory (a : Awl) (key w : Nat) (store : Bool) : Option RvRes :=
  let v := a.vec
  let d := bits w 11 7
  let base := a.xr (bits w 19 15)
  let rs2 := bits w 24 20
  let vm := bit w 25
  let mop := bits w 27 26
  let nf := bits w 31 29 + 1
  let eew := match bits w 14 12 with
    | 0 => 8
    | 5 => 16
    | 6 => 32
    | 7 => 64
    | _ => 0
  if eew = 0 || bit w 28 then none
  else
    let finish := fun (r : RvRes) (rest : VState → VState) =>
      match r with
      | .next b =>
        let u := rest b.vec
        some (RvRes.next { b with vs := 3, vec := { u with vstart := 0 } })
      | r => some r
    let run := fun (dw span : Nat) (first : Bool) (l : List VAccess) (rest : VState → VState) =>
      if store then finish (a.vStoreAll dw d span l) id else finish (a.vLoadAll dw d span first l) rest
    if mop = 0 && rs2 = 8 then
      let n := nf * 512 / eew
      if !vm || !(nf == 1 || nf == 2 || nf == 4 || nf == 8) || d % nf != 0 || (store && eew != 8) then none
      else run eew 1 false (((upFrom 0 n).filter (fun i => decide (v.vstart ≤ i))).map (fun i => ⟨i, 0, (base + i * (eew / 8)) % 2 ^ 64⟩)) id
    else if v.vill then none
    else if mop = 0 && rs2 = 0xB then
      let n := (v.vl + 7) / 8
      if !vm || nf != 1 || eew != 8 then none
      else run 8 1 false (((upFrom 0 n).filter (fun i => decide (v.vstart ≤ i))).map (fun i => ⟨i, 0, (base + i) % 2 ^ 64⟩))
        (fun u => let x := { u with vstart := v.vstart, vl := n }
                  let y := x.vLoadRest x key d 8 8 1 true true
                  { y with vl := u.vl })
    else
      let indexed := mop % 2 == 1
      let dw := if indexed then v.sew else eew
      let de := dw * v.lmul8 / v.sew
      let span := groupLen de
      let ie := eew * v.lmul8 / v.sew
      let first := mop = 0 && rs2 = 0x10 && !store
      let legal := groupOk d de && decide (nf * span ≤ 8) && decide (d + nf * span ≤ 32) && (store || maskOk vm d)
        && (mop != 0 || rs2 == 0 || first)
        && (!indexed || (groupOk rs2 ie
          && (store || (if nf = 1 then overlapOk d de dw rs2 ie eew else !groupsMeet d (nf * span) rs2 (groupLen ie)))))
      if !legal then none
      else
        let addrOf := fun (i f : Nat) =>
          (match mop with
            | 0 => base + (i * nf + f) * (dw / 8)
            | 2 => base + i * a.xr rs2 + f * (dw / 8)
            | _ => base + v.elem rs2 eew i + f * (dw / 8)) % 2 ^ 64
        let l := (v.bodyOn vm).flatMap (fun i => (upFrom 0 nf).map (fun f => ⟨i, f, addrOf i f⟩))
        run dw span first l (fun u => u.vLoadRest v key d dw de nf vm u.ta)

/-- A vector instruction; all are illegal while VS is Off. -/
def Awl.vector (a : Awl) (key w : Nat) : Option RvRes :=
  if a.vs = 0 then none
  else match w % 128 with
    | 0x07 => a.vMemory key w false
    | 0x27 => a.vMemory key w true
    | _ =>
      if bits w 14 12 = 7 then (a.vSet w).map (fun r => .next (a.vDone (bits w 11 7) r))
      else (a.vArith key (vopOf w)).map (fun r => .next (a.vDone (bits w 11 7) r))

/-! ## The step -/

/-- One standard instruction: none where it is illegal. The free values of a vector instruction are drawn under `key`. -/
def Awl.standard (a : Awl) (key n w : Nat) : Option RvRes :=
  if w % 4 != 3 then (rvcExpand w).bind (fun x => a.base n x 2)
  else if w % 128 = 0x57 || w % 128 = 0x07 || w % 128 = 0x27 then a.vector key w
  else a.base n w 4

/-- Execute the word as the next instruction of an Awl (R425 to R428). -/
def State.standard (s : State) (n w : Nat) : State :=
  let len := if w % 4 = 3 then 4 else 2
  let key := 2 ^ 70 + s.free * 16
  let s := s.drawn
  match (s.awl n).standard key n w with
  | none => s.awlTrap n 2 w
  | some (.next a) => s.updAwl n (fun _ => a.retire len)
  | some (.jump a pc) => s.updAwl n (fun _ => { a.retire len with pc := BitVec.ofNat 64 pc })
  | some (.trap a cause tval) => (s.updAwl n (fun _ => a)).awlTrap n cause tval

/-- AWL_STANDARD_INSTRUCTION (R425): operand a is the instruction word. -/
def execAwlStandardInstruction (s : State) : Host.Outcome State Fault Refusal :=
  .next (s.asAwl (fun s n _ => s.standard n s.arg.a))

/-! ## Fetch -/

/-- What an Awl does in its turn. -/
inductive AwlDo where
  | idle
  | issue (s : State) (i : Instr) (x : Arg)
  | bad (s : State)

/-- A byte as the fetch sees it: the Awl's own stores since the last FENCE.I may or may not be seen (R428). -/
def Awl.fetchByte (a : Awl) (key addr : Nat) : Byte :=
  match a.stale.look addr with
  | some old => if bit (Config.freeWord (2 ^ 64 * (key + 1) + addr)).toNat 0 then old else a.mem.get 0 addr
  | none => a.mem.get 0 addr

/-- A halfword at the pc, or its access fault (R426, R428). -/
def Awl.fetchHalf (a : Awl) (key addr : Nat) : Except Awl Nat :=
  if localSize < addr + 2 then .error a
  else if a.bad addr 2 then .error { a with poison := true }
  else .ok (natOf [a.fetchByte key addr, a.fetchByte key (addr + 1)])

/-- The turn of an Awl (R425, R429, R431): fetch and decode. An access that waits for its walk is tried again; a hart whose
RUN is 0 finishes the context access in progress. -/
def State.awlTurn (s : State) (n : Nat) : AwlDo :=
  let a := s.awl n
  let asleep := a.fault || a.waiting != .no || (!a.run && a.access == .none) || a.access == .sent
    || (match a.wait with
      | some (req, false) => (s.ms.walks.look req).isSome
      | _ => false)
  if asleep then .idle
  else
    let pc := a.pc.toNat
    let key := s.free
    let s := if a.stale.isEmpty then s else s.drawn
    match a.fetchHalf key pc with
    | .error b => .bad ((s.updAwl n (fun _ => b)).awlTrap n 1 pc)
    | .ok lo =>
      let std := fun (w : Nat) => AwlDo.issue { s with who := .awl n } .awlStandardInstruction { a := w }
      if lo % 4 != 3 then std lo
      else match a.fetchHalf key (pc + 2) with
        | .error b => .bad ((s.updAwl n (fun _ => b)).awlTrap n 1 (pc + 2))
        | .ok hi =>
          let w := lo + 2 ^ 16 * hi
          if w % 128 = 0x0B || w % 128 = 0x2B then
            match decodeAwl (BitVec.ofNat 32 w) with
            | some i => .issue { s with who := .awl n } i {}
            | none => .bad (s.awlTrap n 2 w)
          else std w

end Sys2Proof.Machine
end

