-- ==== Sys2Proof/Machine/Clock.lean ====
section
/-! DEFINITION. One clock of a core (R8, R61, R64, R110, R126, R183, R308, R372), of a base die (R343) and of a Saddle port
(R425, R429, R440); the order of steps that meet in one clock (R23, R24, R36, R128, R223, R385, R423); and the model's own round
of steps when its agenda is empty (log entry 7). -/

namespace Sys2Proof.Machine

/-! ## A clock of a core -/

/-- A team counts its clocks on this core: it is resident and its lead thread is there; or its partner is (R5). -/
def Team.homeOn (t : Team) (core : Nat) : Bool := t.resident && t.core == core
def Team.touchesCore (t : Team) (core : Nat) : Bool := t.resident && (t.core == core || (t.paired && t.core + 1 == core))

/-- A timer counts one clock (R126). -/
def Timer.tick (m : Timer) : Timer := if m.armed then { m with remain := m.remain - 1 } else m

/-- One clock of a team's counts on a core: timers, HOLDCNT, a lead push that waits, the quantum (R110, R126, R183, R372). -/
def Team.tick (t : Team) (core : Nat) : Team :=
  let here := t.core == core
  let on := fun (hw : Nat) => t.coreOf (t.warps.get {} hw).quarter == core
  let stalled := match t.lead.run with
    | .running (.blocked (.queueFull _ _ _)) => true
    | _ => false
  { t with
    warps := t.warps.map (fun h => (h.1, if on h.1 then { h.2 with timer := h.2.timer.tick } else h.2))
    threads := t.threads.map (fun p => (p.1,
      if p.2.run = .held && on (t.hwOf p.1) then { p.2 with holdcnt := satNat (p.2.holdcnt + 1) 65536 } else p.2))
    lead := if here then { t.lead with timer := t.lead.timer.tick, stall := if stalled then t.lead.stall + 1 else t.lead.stall } else t.lead
    quantum := if here then t.quantum - 1 else t.quantum }

/-- Ready clauses that have no stamp take the clock as theirs (R61). -/
def State.stampTeam (s : State) (core tid : Nat) (t : Team) : Team :=
  let clock := (s.core core).clock
  { t with
    lead := if t.core == core && t.lead.stamp.isNone && s.leadReady tid t then { t.lead with stamp := some clock } else t.lead
    formed := t.formed.map (fun p => (p.1,
      if t.coreOf p.2.quarter == core && p.2.stamp.isNone && s.warpReady tid t p.2 then { p.2 with stamp := some clock } else p.2)) }

/-- Some array holds a ready run that the budget stops (R309). -/
def State.governed (s : State) (core : Nat) : Bool :=
  (upFrom 0 4).any (fun q => match s.runReady core q with
    | some (_, o) => !(s.core core).allows o.kind
    | none => false)

/-- The re-reads of the waits of a home warp, or of the lead thread, that come back in the clock in which its timer expires (R128). -/
def State.lastReads (s : State) (tid : Nat) (hw : Option Nat) : List Turn :=
  s.ops.flatMap (fun p =>
    if p.2.tid != tid || (match hw with
      | some h => p.2.fid.isNone || !p.2.hws.contains h
      | none => p.2.fid.isSome) then []
    else (p.2.lanes.filter (fun a => a.phase == .watching)).flatMap (fun a =>
      let x : Arg := { a := p.1, b := a.lane }
      match p.2.kind with
      | .bwait => [Turn.event .bwaitWake x, .event .waitaPollReread x]
      | .waita => [.event .waitaMonitorWake x, .event .waitaPollReread x]
      | _ => []))

/-- The steps that fall due on a core at its clock (R110, R128, R183, R308, R372): a park's normal end comes before the timer
that would cut it, and a pop of that clock before the push that it makes room for; whether a read comes back in that very clock is
free. -/
def State.dueOn (s : State) (core : Nat) : List Turn :=
  let ev := fun (i : Instr) (x : Arg) => Turn.event i x
  let last := fun (tid : Nat) (hw : Option Nat) => if s.freeBit (tid * 256 + hw.getD 255) then s.lastReads tid hw else []
  let pops := fun (t : Team) => match t.whyOf none with
    | some (.queueFull _ _ _) => (core :: (if t.paired then [core + 1] else [])).flatMap (fun c => (upFrom 0 4).map (Turn.port c))
    | _ => []
  (if (s.core core).clock % 256 = 0 then [ev .governorWindowBoundary { a := core }] else [])
    ++ (s.teams.filter (fun p => p.2.touchesCore core)).flatMap (fun p =>
      let t := p.2
      let hws := (t.warps.filter (fun h => t.coreOf h.2.quarter == core && h.2.timer.due)).map (·.1)
      let leadDue := t.core == core && t.lead.timer.due
      (if leadDue then last p.1 none ++ pops t ++ [ev .clauseResume { a := p.1 }, ev .timerExpiry { a := p.1 }] else [])
        ++ hws.flatMap (fun h =>
          (t.formed.filter (fun w => w.2.threads.any (fun th => t.hwOf th == h))).map (fun w => ev .clauseResume { a := p.1, opt := some w.1 })
            ++ last p.1 (some h) ++ [ev .timerExpiry { a := p.1, opt := some h }])
        ++ (if t.core == core && decide (2 ^ 20 ≤ t.lead.stall) then pops t ++ [ev .clauseResume { a := p.1 }, ev .queueDisciplineTimeout { a := p.1 }] else [])
        ++ (t.threads.filter (fun x => x.2.run == .held && x.2.holdcnt == 65536 && t.coreOf (t.warps.get {} (t.hwOf x.1)).quarter == core)).map
          (fun x => ev .holdcntExpiry { a := p.1, b := t.hwOf x.1, c := x.2.meet })
        ++ (if t.core == core && t.quantum == 0 then [ev .teamRetire { a := p.1 }, ev .quantumExpiry { a := p.1 }, ev .teamSave { a := p.1 }] else []))

/-- One clock of a core. -/
def State.tickCore (s : State) (core : Nat) : State :=
  if s.host.stopped then s
  else
    let held := s.governed core
    let s := s.updCore core (fun k => { k with
      clock := (k.clock + 1) % 2 ^ 64
      acted := []
      stall := if held then satNat (k.stall + 1) (2 ^ 48 - 1) else k.stall
      busy := (k.busy.map (fun p => (p.1, p.2 - 1))).filter (fun p => p.2 != 0)
      portBusy := (k.portBusy.map (fun p => (p.1, p.2 - 1))).filter (fun p => p.2 != 0) })
    let s : State := { s with teams := s.teams.map (fun p => (p.1, if p.2.touchesCore core then p.2.tick core else p.2)) }
    let s : State := { s with teams := s.teams.map (fun p => (p.1, if p.2.touchesCore core then s.stampTeam core p.1 p.2 else p.2)) }
    (s.drawn.offer core).soon (s.dueOn core)

/-- One clock of a base die (R8): slices that have no access left return to the L2 (R345); every LINEGAP clocks, a scrub read of each of
its stacks (R343). -/
def State.tickDie (s : State) (b : Nat) : State :=
  let s := (s.trapOverlaps.returnSlices.ackEngines (fun g => g.die == b)).updMs (fun m => { m with clocks := m.clocks.set 0 b ((m.clocks.get 0 b + 1) % 2 ^ 64) })
  if s.ms.gap b != 0 && s.ms.clocks.get 0 b % s.ms.gap b = 0 then
    s.soon ((upFrom (3 * b) 3).map (fun k => Turn.event .scrubRead { a := k }))
  else s

/-- One clock of a port (R8, R425, R429, R440): its clock count, the combining lanes, the window of its puts, and its Awl's
mcycle and timer. -/
def State.tickPort (s : State) (p : Nat) : State :=
  if s.host.stopped then s
  else
    let due := (s.awl p).timer = 1
    let s := s.updPort p (fun k => { k with
      clock := (k.clock + 1) % 2 ^ 64, acted := false, busy := k.busy - 1, used := if (k.clock + 1) % 4096 = 0 then 0 else k.used })
    let s := s.updAwl p (fun a => { a with mcycle := a.mcycle + 1, timer := if 1 < a.timer then a.timer - 1 else a.timer })
    if due then s.soon [.event .awlTimerExpiry { a := p }] else s

/-! ## Steps that meet in one clock -/

/-- The number of a requesting agent among those of one clock (R23, R223): quarter, home warp, home lane, then team slot and core; lead
threads last, by slot and core (log entry 140). -/
def State.accessKey (s : State) (id lane : Nat) : Nat :=
  match s.ops.look id with
  | none => 0
  | some o => match s.teams.look o.tid with
    | none => 0
    | some t =>
      let own := t.slot * 160 + o.core
      if o.fid.isNone then 2 ^ 40 + own
      else
        let th := ((o.lanes.find? (fun a => a.lane == lane)).map (·.thread)).getD 0
        (((t.warps.get {} (t.hwOf th)).quarter * 128 + t.hwOf th) * 64 + lane) * 4096 + own

/-- The place of a barrier update among those of one clock (R23). -/
def State.updateRank (s : State) (id : Nat) : Nat :=
  match (s.ops.look id).map (fun (o : Op) => o.kind) with
  | some .bdrop => 41
  | some .binit => 43
  | _ => 40

/-- The place of a clause class at a home slice (R36). -/
def classRank (cls : Nat) : Nat :=
  match cls with
  | 0 => 29
  | 4 => 33
  | 5 => 35
  | 6 => 36
  | 7 => 45
  | _ => 30

/-- The place of one lane's access: on chip by R223; at a home slice by the class of its origin, in the order of arrival (R36, R313). -/
def State.laneRank (s : State) (id lane : Nat) : Nat × Nat :=
  match s.ops.look id with
  | none => (30, 0)
  | some o =>
    if o.kind.byBarrier then (s.updateRank id, s.accessKey id lane)
    else match o.lanes.find? (fun a => a.lane == lane) with
      | some a => if a.onChip then (if o.fid.isNone then 31 else 30, s.accessKey id lane) else (classRank o.cls, 0)
      | none => (30, 0)

/-- An operation whose lines are present again is performed lane by lane, each in its place (R219, R223). -/
def State.eachLane (s : State) (e : Instr × Arg) : List (Instr × Arg) :=
  match e.1, s.ops.look e.2.a with
  | .presenceParkRelease, some o => o.heldLanes.map (fun l => (e.1, { e.2 with opt := some l }))
  | _, _ => [e]

/-- The place of a tile fetch read (R36, R223). -/
def State.tileRank (s : State) (id k : Nat) : Nat :=
  match (s.ops.look id).bind (fun (o : Op) => o.mtx.grans.look k) with
  | some g => if g.home.onChip then 20 else 33
  | none => 33

/-- The place of an operation of another package by what it does (R23, R36, R421): its code, and the kind of a barrier update. -/
def remoteRank (code upd : Nat) : Nat :=
  if code = 9 then (if upd = 0 then 43 else if upd = 4 then 41 else if upd = 5 || upd = 6 then 10 else if upd = 7 then 42 else 40)
  else if 5 ≤ code then 35 else 30

/-- A kill of which the launch has been stopped: what is left are its marks and its end (R23, R383). -/
def State.killed (s : State) (lid : Nat) : Bool := s.teams.all (fun p => p.2.launch != lid || p.2.place == .retired)

/-- The rank of a step among those of one clock: the governor's boundary before run starts (R308); recalled deltas first at a slice (R313);
acceptance before accesses (R24); the host's writes, then the end of launches, then queue writes (R385); what no clause class originates
(R36), with copy writes and credits (R23, R223), the scheduler's pairs by R385, and the Saddle's by R423 and R417; operand reads on chip;
accesses on chip by R223 and at slices by class; barrier updates by R23; a save, a move and a boundary after all that may raise a kill (R385); and the end of a park before the timer that would cut it (R128). -/
def State.rank (s : State) (i : Instr) (x : Arg) : Nat × Nat :=
  match i with
  | .acceptance | .governorWindowBoundary => (0, 0)
  | .updateOnlyRecall => (2, 0)
  | .registerWrite | .hostHartAccess => (5, 0)
  | .launchRetire => (8, 0)
  | .queueWrite => (9, 0)
  | .teamRetire => (11, 0)
  | .quantumExpiry => (11, 1)
  | .launchKill => if s.killed x.a then (42, 0) else (11, 2)
  | .teamSave | .teamMove | .stepBoundaryComplete => (48, 0)
  | .rctrWrite => (12, 0)
  | .packetMatch => (13, x.a)
  | .chunkDeadline => (14, x.a)
  | .aliasStoreAccept => (16, s.accessKey x.a x.b)
  | .tileFire => (17, 0)
  | .triggeredSendFire => (18, x.a)
  | .heldPacketRelease => (19, 0)
  | .tileFetchRead => (s.tileRank x.a x.b, 0)
  | .matrixRunStart => (25, x.a * 4 + x.b)
  | .homeAccessApply | .updateOnlyRegistration | .farOperationApply | .barrierUpdateApply
  | .bwaitWake | .waitaMonitorWake | .waitaPollReread => s.laneRank x.a x.b
  | .presenceParkRelease => s.laneRank x.a (x.opt.getD 0)
  | .remoteOperation => (remoteRank x.b (x.c / 16 % 16), 0)
  | .svcRecordWrite | .irqMsiPost => (45, 0)
  | .clauseResume => (50, 0)
  | .timerExpiry => (51, 0)
  | _ => (10, 0)

/-- Insert a step by its rank, after the steps of equal rank. -/
def insertByRank (r : Nat × Nat) (e : Instr × Arg) : List ((Nat × Nat) × (Instr × Arg)) → List ((Nat × Nat) × (Instr × Arg))
  | [] => [(r, e)]
  | x :: rest =>
    if r.1 < x.1.1 || (r.1 = x.1.1 && r.2 < x.1.2) then (r, e) :: x :: rest else x :: insertByRank r e rest

/-- The steps of one clock in the order in which they take effect; an Awl's, and then a handler's, come with the writes of receive counters,
before what a counter or a packet sets off (R423, R435). -/
def State.inOrder (s : State) (l : List (Instr × Arg)) (awls handlers : List Nat) : List Turn :=
  let ranked := (l.flatMap s.eachLane).foldl (fun acc e => insertByRank (s.rank e.1 e.2) e acc) []
  let turns := fun (p : Nat → Bool) => (ranked.filter (fun x => p x.1.1)).map (fun x => Turn.event x.2.1 x.2.2)
  turns (fun r => decide (r ≤ 12)) ++ awls.map Turn.awl ++ handlers.map Turn.handler ++ turns (fun r => decide (12 < r))

/-! ## The default round -/

/-- The steps that an operation in flight may take next. -/
def opTurns (id : Nat) (o : Op) : List Turn :=
  let ev := fun (i : Instr) (lane : Nat) => Turn.event i { a := id, b := lane }
  let each := fun (i : Instr) => o.lanes.map (fun a => ev i a.lane)
  match o.kind with
  | .ld | .ldq | .prsq => each .homeAccessApply ++ [ev .presenceParkRelease 0, ev .loadComplete 0]
  | .btest => each .homeAccessApply ++ [ev .presenceParkRelease 0, ev .loadComplete 0]
  | .st | .stq => each .homeAccessApply ++ each .aliasStoreAccept ++ [ev .presenceParkRelease 0, ev .storeAck 0]
  | .atom | .acas => each .homeAccessApply ++ [ev .presenceParkRelease 0, ev .atomicComplete 0]
  | .red => each .updateOnlyRegistration ++ each .homeAccessApply ++ [ev .presenceParkRelease 0, ev .storeAck 0]
  | .binit => each .barrierUpdateApply ++ [ev .presenceParkRelease 0, ev .storeAck 0]
  | .barr | .barrx | .bexp | .bdrop => each .barrierUpdateApply ++ [ev .presenceParkRelease 0, ev .atomicComplete 0]
  | .bwait => each .homeAccessApply ++ [ev .presenceParkRelease 0] ++ each .bwaitWake ++ each .waitaPollReread
  | .waita => each .homeAccessApply ++ [ev .presenceParkRelease 0] ++ each .waitaMonitorWake ++ each .waitaPollReread
  | .fence => [ev .fenceComplete 0]
  | .cctl => [ev .cctlComplete 0]
  | .kick => [Turn.event .acceptance { a := o.core }]
  | .mma | .mmas | .mmax =>
    (if o.mtx.checked then (o.mtx.grans.filter (fun g => g.2.data.isNone)).map (fun g => ev .tileFetchRead g.1) else [ev .tileFetchRead 0])
      ++ [ev .matrixWriteback 0]
  | .mzero | .mpin | .munpin => [ev .tileFetchRead 0, ev .matrixWriteback 0]
  | .racc | .raccx | .rfold | .rclr => each .farOperationApply
  | .svc => [ev .svcRecordWrite 0]
  | .spawn => [Turn.event .clauseResume { a := o.tid, opt := o.fid }]
  | .irq => [ev .irqMsiPost 0]
  | .step | .timrd | .timarm => []

/-- The steps of a team: fetches, releases, resumptions, trap entry, its end, its save. -/
def teamTurns (tid : Nat) (t : Team) : List Turn :=
  let ev := fun (i : Instr) (x : Arg) => Turn.event i { x with a := tid }
  let places := (t.threads.vals.filter (fun th => th.run == .ready || th.run == .held)).foldl (fun (acc : List Nat) th => NatSet.ins acc th.pc) []
  let unfetched := t.formed.vals.filter (fun w => w.run == .unfetched) |>.foldl (fun (acc : List Nat) w => NatSet.ins acc w.pc) []
  let quarters := t.warps.vals.foldl (fun (acc : List Nat) h => NatSet.ins acc h.quarter) []
  let held := t.threads.filterMap (fun p => if p.2.run = .held then some (t.hwOf p.1, p.2.meet) else none)
  let reforming := t.threads.foldl (fun (acc : List Nat) p => if p.2.run = .reforming then NatSet.ins acc (t.hwOf p.1) else acc) []
  [ev .trapEntry {}, ev .clauseResume {}] ++ t.formed.keys.map (fun f => ev .clauseResume { opt := some f })
    ++ held.eraseDups.map (fun h => ev .meetRelease { b := h.1, c := h.2 })
    ++ reforming.map (fun h => ev .reformRelease { b := h })
    ++ (if t.lead.run = .running .unfetched then [ev .clauseFetch { b := t.lead.pc }] else [])
    ++ quarters.flatMap (fun q => (places ++ unfetched).map (fun pc => ev .clauseFetch { opt := some q, b := pc }))
    ++ [ev .haltComplete {}, ev .teamRetire {}] ++ (if t.expired then [ev .teamSave {}] else [])

/-- The steps of the scheduler. -/
def State.schedTurns (s : State) : List Turn :=
  let cores := upFrom 0 160
  s.ctxs.flatMap (fun c => if c.2.schedEn then (c.2.queues.filter (fun q => bit q.2.cfg 0)).map (fun q => Turn.event .launchAccept { a := c.1, b := q.1 }) else [])
    ++ s.launches.flatMap (fun p =>
      let ev := fun (i : Instr) => Turn.event i { a := p.1 }
      if p.2.killing.isSome then [ev .launchKill]
      else if p.2.restoring then [ev .snapshotRestore]
      else if p.2.state = 1 then [ev .launchReady]
      else
        (if p.2.counted && p.2.allSent then [] else cores.filterMap (fun c =>
          if (s.ctx p.2.ctx).vdieMap.any (fun v => v.2 % 8 == dieOf c) then some (Turn.event .teamDispatch { a := p.1, b := c }) else none))
          ++ (if p.2.elastic then [ev .stepBoundaryComplete] else []) ++ [ev .launchRetire])
    ++ s.teams.flatMap (fun p => match p.2.place with
      | .saved _ => cores.map (fun c => Turn.event .teamRestore { a := p.1, b := c })
      | _ => [])

/-- The first piece that a copy request has still to move: at most 128 bytes; or what it owes. -/
def copyTurn (id : Nat) (c : Copy) : List Turn :=
  match c.gaps with
  | [] => if c.owed.isEmpty then [] else [.event .copyPiece { a := id }]
  | g :: _ => [.event .copyPiece { a := id, b := g.1, c := 128 }]

/-- Granules that a write waits for. -/
def State.snapTurns (s : State) : List Turn :=
  s.launches.flatMap (fun p =>
    if p.2.replay then
      ((p.2.regions.zipIdx).flatMap (fun r => (upFrom 0 (r.1.bytes / 2 ^ 16)).map (fun g => granuleKey (r.2, g)))).filterMap (fun g =>
        if (s.granuleWanted p.1 g).isSome && !p.2.copied.has g then some (Turn.event .snapshotCopy { a := p.1, b := g }) else none)
    else [])

/-- The steps of the memory side. -/
def State.memTurns (s : State) : List Turn :=
  s.ms.walks.keys.flatMap (fun r => [Turn.event .translationWalk { a := r }, .event .faultRecordPost { a := r }])
    ++ s.ctxs.flatMap (fun c => c.2.chipMap.flatMap (fun g => if g.2.valid && !g.2.ready then [Turn.event .carveComplete { a := c.1, b := g.1 }] else []))
    ++ s.snapTurns ++ (if s.ms.invalBusy then [.event .invalDone {}] else [])

/-- Cores with work. -/
def State.activeCores (s : State) : List Nat :=
  let l := s.teams.foldl (fun (acc : List Nat) p =>
    if p.2.resident then
      let acc := NatSet.ins acc p.2.core
      if p.2.paired then NatSet.ins acc (p.2.core + 1) else acc
    else acc) []
  s.cores.foldl (fun (acc : List Nat) p => if p.2.kicks.isEmpty && p.2.busy.isEmpty then acc else NatSet.ins acc p.1) l

/-- The steps of a port's engine and of its Awl. -/
def portTurns (p : Nat) (k : SadPort) : List Turn :=
  let ev := fun (i : Instr) => Turn.event i { a := p }
  [Turn.tickPort p]
    ++ (if k.inbox.isEmpty then [] else [ev .putAcknowledgement, ev .lateNotice, ev .leafAcceptance, ev .packetMatch])
    ++ (k.chunks.filter (fun c => c.2.deadline.isSome && !c.2.raised)).map (fun c => Turn.event .chunkDeadline { a := p, b := c.1 })
    ++ (if k.handlers.isEmpty then [] else [Turn.handler p]) ++ (if k.puts.isEmpty then [] else [ev .putInject])

def awlTurns (n : Nat) (a : Awl) : List Turn :=
  let ev := fun (i : Instr) => Turn.event i { a := n }
  (if a.loadStatus = 1 then [ev .awlLoadComplete] else []) ++ (if a.waiting == .no then [] else [ev .awlWaitevWake]) ++ [Turn.awl n]

/-- The steps of the Saddle and the Awls. -/
def State.saddleTurns (s : State) : List Turn :=
  let tile := fun (i : Instr) (n t : Nat) => Turn.event i { a := n, b := t }
  let active := s.sad.ports.keys.foldl NatSet.ins s.awls.keys
  s.awls.flatMap (fun a => awlTurns a.1 a.2) ++ active.flatMap (fun p => portTurns p (s.port p))
    ++ (s.sad.colls.filter (fun c => c.2.enabled)).flatMap (fun c => (upFrom 0 c.2.ntiles).flatMap (fun t =>
      [tile .tileFire c.1 t, tile .tileComplete c.1 t, tile .answerWaitExpiry c.1 t]))
    ++ s.sad.held.keys.map (fun h => Turn.event .heldPacketRelease { a := h })
    ++ (s.sad.sends.filter (fun e => e.2.arm || e.2.reading)).map (fun e => Turn.event .triggeredSendFire { a := e.1 })

/-- The steps of the host complex and of the package network. -/
def State.hostTurns (s : State) : List Turn :=
  [Turn.tickHost] ++ (s.host.credits.filter (fun c => c.2.going.isSome)).map (fun c => Turn.event .hostCreditApply { a := c.1 })
    ++ ((s.host.waits.map (fun x => x.c % 16)).eraseDups).map (fun h => Turn.event .hostHartAccess { c := h, d := 15 })
    ++ (if s.host.inWaits.isEmpty then [] else [Turn.event .pcieInboundRequest { b := 8 }])
    ++ s.ops.flatMap (fun p => (p.2.lanes.filter (fun a => a.retries != 0)).map (fun a => Turn.event .retryResend { a := p.1, b := a.lane }))

/-- One round of steps in an order of the model's choice (DESIGN CHOICE, log entry 7): one clock of every core with work, then
what the scheduler, the memory side and the engines may do, then the issue ports, quarters before the lead port. -/
def State.round (s : State) : List Turn :=
  let cores := s.activeCores
  cores.map Turn.tickCore
    ++ (upFrom 0 4).map Turn.tickDie ++ s.hostTurns
    ++ s.schedTurns ++ s.memTurns ++ s.saddleTurns
    ++ cores.map (fun c => Turn.event .acceptance { a := c })
    ++ s.copies.flatMap (fun p => copyTurn p.1 p.2)
    ++ s.slots.keys.map (fun k => Turn.event .holdingBufferDrain { a := k })
    ++ s.ops.flatMap (fun p => opTurns p.1 p.2)
    ++ cores.flatMap (fun c => (upFrom 0 4).map (fun q => Turn.event .matrixRunStart { a := c, b := q }))
    ++ s.teams.flatMap (fun p => if p.2.place = .resident then teamTurns p.1 p.2 else [.event .teamRetire { a := p.1 }])
    ++ cores.flatMap (fun c => (upFrom 0 5).map (fun p => Turn.port c p))
    ++ s.teams.map (fun p => Turn.event .clauseResume { a := p.1 })

end Sys2Proof.Machine
end

