-- ==== Sys2Proof/Machine/LeadArith.lean ====
section
/-! DEFINITION. Scalar arithmetic of the lead stream (R102, R103). -/

namespace Sys2Proof.Machine

/-- The signed reading of a 64-bit value. -/
def s64 (x : Nat) : Int := sext x 64

/-- Quotient truncated toward zero, signed or natural; b = 0 gives all ones (R102). -/
def divTrunc (nat : Bool) (a b : Nat) : Nat :=
  if b = 0 then 2 ^ 64 - 1 else if nat then a / b else wrap ((s64 a).tdiv (s64 b)) 64

/-- Remainder with the dividend's sign; b = 0 gives a (R102). -/
def remTrunc (nat : Bool) (a b : Nat) : Nat :=
  if b = 0 then a else if nat then a % b else wrap ((s64 a).tmod (s64 b)) 64

/-- Bits 127:64 of the signed or natural product (R102). -/
def mulHigh (nat : Bool) (a b : Nat) : Nat :=
  if nat then a * b / 2 ^ 64 else wrap (s64 a * s64 b / 2 ^ 64) 64

/-- a < b, signed or natural. -/
def less64 (nat : Bool) (a b : Nat) : Bool := if nat then decide (a < b) else decide (s64 a < s64 b)

/-- The relation of SCMP (R102). -/
def scmp (md a b : Nat) : Bool :=
  match md with
  | 0 => a == b
  | 1 => a != b
  | 2 => less64 false a b
  | 3 => !less64 false b a
  | 4 => less64 true a b
  | _ => !less64 true b a

/-- Arithmetic right shift of 64 bits. -/
def sar64 (a k : Nat) : Nat := wrap (s64 a / (2 ^ k : Nat)) 64

def execSadd (f : FmtA) (s : State) : Host.Outcome State Fault Refusal := .next (leadA f s (fun a b => a + b))
def execSaddImm (f : FmtI) (s : State) : Host.Outcome State Fault Refusal := .next (leadI f s (fun a b => a + b))
def execSsub (f : FmtA) (s : State) : Host.Outcome State Fault Refusal := .next (leadA f s (fun a b => a + 2 ^ 64 - b))
def execSsubImm (f : FmtI) (s : State) : Host.Outcome State Fault Refusal := .next (leadI f s (fun a b => a + 2 ^ 64 - b))
def execSmul (f : FmtA) (s : State) : Host.Outcome State Fault Refusal := .next (leadA f s (fun a b => a * b))
def execSmulImm (f : FmtI) (s : State) : Host.Outcome State Fault Refusal := .next (leadI f s (fun a b => a * b))
def execSmulh (f : FmtA) (s : State) : Host.Outcome State Fault Refusal := .next (leadA f s (mulHigh f.nat0))
def execSdiv (f : FmtA) (s : State) : Host.Outcome State Fault Refusal := .next (leadA f s (divTrunc f.nat0))
def execSrem (f : FmtA) (s : State) : Host.Outcome State Fault Refusal := .next (leadA f s (remTrunc f.nat0))
def execSand (f : FmtA) (s : State) : Host.Outcome State Fault Refusal := .next (leadA f s Nat.land)
def execSandImm (f : FmtI) (s : State) : Host.Outcome State Fault Refusal := .next (leadI f s Nat.land)
def execSor (f : FmtA) (s : State) : Host.Outcome State Fault Refusal := .next (leadA f s Nat.lor)
def execSorImm (f : FmtI) (s : State) : Host.Outcome State Fault Refusal := .next (leadI f s Nat.lor)
def execSxor (f : FmtA) (s : State) : Host.Outcome State Fault Refusal := .next (leadA f s Nat.xor)
def execSxorImm (f : FmtI) (s : State) : Host.Outcome State Fault Refusal := .next (leadI f s Nat.xor)
def execSshl (f : FmtA) (s : State) : Host.Outcome State Fault Refusal := .next (leadA f s (fun a b => a * 2 ^ (b % 64)))
def execSshlImm (f : FmtI) (s : State) : Host.Outcome State Fault Refusal := .next (leadI f s (fun a b => a * 2 ^ (b % 64)))
def execSshr (f : FmtA) (s : State) : Host.Outcome State Fault Refusal := .next (leadA f s (fun a b => a / 2 ^ (b % 64)))
def execSshrImm (f : FmtI) (s : State) : Host.Outcome State Fault Refusal := .next (leadI f s (fun a b => a / 2 ^ (b % 64)))
def execSsar (f : FmtA) (s : State) : Host.Outcome State Fault Refusal := .next (leadA f s (fun a b => sar64 a (b % 64)))
def execSsarImm (f : FmtI) (s : State) : Host.Outcome State Fault Refusal := .next (leadI f s (fun a b => sar64 a (b % 64)))
def execSmin (f : FmtA) (s : State) : Host.Outcome State Fault Refusal :=
  .next (leadA f s (fun a b => if less64 f.nat0 b a then b else a))
def execSmax (f : FmtA) (s : State) : Host.Outcome State Fault Refusal :=
  .next (leadA f s (fun a b => if less64 f.nat0 a b then b else a))
def execScmp (f : FmtA) (s : State) : Host.Outcome State Fault Refusal :=
  .next (leadA f s (fun a b => b2n (scmp f.md.toNat a b)))
def execSmov (f : FmtA) (s : State) : Host.Outcome State Fault Refusal := .next (leadA f s (fun a _ => a))
/-- SLI: sext(IMM, 30). -/
def execSli (f : FmtI) (s : State) : Host.Outcome State Fault Refusal :=
  .next (leadResult s f.msel.toNat f.pclass.toNat f.dst.toNat (fun _ => f.simm 64))
/-- SLIH: a × 2^30 plus the 30 bits of IMM. -/
def execSlih (f : FmtI) (s : State) : Host.Outcome State Fault Refusal :=
  .next (leadResult s f.msel.toNat f.pclass.toNat f.dst.toNat (fun e => e.t.sreg f.a.toNat * 2 ^ 30 + f.imm.toNat))
/-- SSEL: a if c is not 0, else b. -/
def execSsel (f : FmtA) (s : State) : Host.Outcome State Fault Refusal :=
  .next (leadResult s f.msel.toNat f.pclass.toNat f.dst.toNat (fun e =>
    if e.t.sop f.zc f.c.toNat != 0 then e.t.sop f.za f.a.toNat else e.t.sop f.zb f.b.toNat))

end Sys2Proof.Machine
end

