-- ==== Sys2Proof/Machine/Dispatch.lean ====
section
/-! DEFINITION. One arm for each constructor of Instr: a direct call of its meaning. -/

namespace Sys2Proof.Machine

def exec (i : Instr) (s : State) : Host.Outcome State Fault Refusal :=
  match i with
  | .sadd f => Sys2Proof.Machine.execSadd f s
  | .saddImm f => Sys2Proof.Machine.execSaddImm f s
  | .ssub f => Sys2Proof.Machine.execSsub f s
  | .ssubImm f => Sys2Proof.Machine.execSsubImm f s
  | .smul f => Sys2Proof.Machine.execSmul f s
  | .smulImm f => Sys2Proof.Machine.execSmulImm f s
  | .smulh f => Sys2Proof.Machine.execSmulh f s
  | .sdiv f => Sys2Proof.Machine.execSdiv f s
  | .srem f => Sys2Proof.Machine.execSrem f s
  | .sand f => Sys2Proof.Machine.execSand f s
  | .sandImm f => Sys2Proof.Machine.execSandImm f s
  | .sor f => Sys2Proof.Machine.execSor f s
  | .sorImm f => Sys2Proof.Machine.execSorImm f s
  | .sxor f => Sys2Proof.Machine.execSxor f s
  | .sxorImm f => Sys2Proof.Machine.execSxorImm f s
  | .sshl f => Sys2Proof.Machine.execSshl f s
  | .sshlImm f => Sys2Proof.Machine.execSshlImm f s
  | .sshr f => Sys2Proof.Machine.execSshr f s
  | .sshrImm f => Sys2Proof.Machine.execSshrImm f s
  | .ssar f => Sys2Proof.Machine.execSsar f s
  | .ssarImm f => Sys2Proof.Machine.execSsarImm f s
  | .smin f => Sys2Proof.Machine.execSmin f s
  | .smax f => Sys2Proof.Machine.execSmax f s
  | .scmp f => Sys2Proof.Machine.execScmp f s
  | .smov f => Sys2Proof.Machine.execSmov f s
  | .sli f => Sys2Proof.Machine.execSli f s
  | .slih f => Sys2Proof.Machine.execSlih f s
  | .ssel f => Sys2Proof.Machine.execSsel f s
  | .sbr f => Sys2Proof.Machine.execSbr f s
  | .sjmp f => Sys2Proof.Machine.execSjmp f s
  | .scall f => Sys2Proof.Machine.execScall f s
  | .sret f => Sys2Proof.Machine.execSret f s
  | .sloop f => Sys2Proof.Machine.execSloop f s
  | .dqpush f => Sys2Proof.Machine.execDqpush f s
  | .aqpush f => Sys2Proof.Machine.execAqpush f s
  | .aqstep f => Sys2Proof.Machine.execAqstep f s
  | .qstat f => Sys2Proof.Machine.execQstat f s
  | .sld f => Sys2Proof.Machine.execSld f s
  | .sst f => Sys2Proof.Machine.execSst f s
  | .srd f => Sys2Proof.Machine.execSrd f s
  | .swr f => Sys2Proof.Machine.execSwr f s
  | .iadd f => Sys2Proof.Machine.execIadd f s
  | .iaddImm f => Sys2Proof.Machine.execIaddImm f s
  | .isub f => Sys2Proof.Machine.execIsub f s
  | .isubImm f => Sys2Proof.Machine.execIsubImm f s
  | .imul f => Sys2Proof.Machine.execImul f s
  | .imulImm f => Sys2Proof.Machine.execImulImm f s
  | .imulh f => Sys2Proof.Machine.execImulh f s
  | .imad f => Sys2Proof.Machine.execImad f s
  | .imin f => Sys2Proof.Machine.execImin f s
  | .imax f => Sys2Proof.Machine.execImax f s
  | .iabs f => Sys2Proof.Machine.execIabs f s
  | .ineg f => Sys2Proof.Machine.execIneg f s
  | .iand f => Sys2Proof.Machine.execIand f s
  | .iandImm f => Sys2Proof.Machine.execIandImm f s
  | .ior f => Sys2Proof.Machine.execIor f s
  | .iorImm f => Sys2Proof.Machine.execIorImm f s
  | .ixor f => Sys2Proof.Machine.execIxor f s
  | .ixorImm f => Sys2Proof.Machine.execIxorImm f s
  | .inot f => Sys2Proof.Machine.execInot f s
  | .ishl f => Sys2Proof.Machine.execIshl f s
  | .ishlImm f => Sys2Proof.Machine.execIshlImm f s
  | .ishr f => Sys2Proof.Machine.execIshr f s
  | .ishrImm f => Sys2Proof.Machine.execIshrImm f s
  | .isar f => Sys2Proof.Machine.execIsar f s
  | .isarImm f => Sys2Proof.Machine.execIsarImm f s
  | .ifunl f => Sys2Proof.Machine.execIfunl f s
  | .ipopc f => Sys2Proof.Machine.execIpopc f s
  | .iclz f => Sys2Proof.Machine.execIclz f s
  | .ibrev f => Sys2Proof.Machine.execIbrev f s
  | .ibfx f => Sys2Proof.Machine.execIbfx f s
  | .ibfi f => Sys2Proof.Machine.execIbfi f s
  | .icmp f => Sys2Proof.Machine.execIcmp f s
  | .isel f => Sys2Proof.Machine.execIsel f s
  | .iaddc f => Sys2Proof.Machine.execIaddc f s
  | .idot4 f => Sys2Proof.Machine.execIdot4 f s
  | .bperm f => Sys2Proof.Machine.execBperm f s
  | .bpermImm f => Sys2Proof.Machine.execBpermImm f s
  | .fadd f => Sys2Proof.Machine.execFadd f s
  | .fsub f => Sys2Proof.Machine.execFsub f s
  | .fmul f => Sys2Proof.Machine.execFmul f s
  | .ffma f => Sys2Proof.Machine.execFfma f s
  | .fmin f => Sys2Proof.Machine.execFmin f s
  | .fmax f => Sys2Proof.Machine.execFmax f s
  | .fabs f => Sys2Proof.Machine.execFabs f s
  | .fneg f => Sys2Proof.Machine.execFneg f s
  | .fcmp f => Sys2Proof.Machine.execFcmp f s
  | .fdiv f => Sys2Proof.Machine.execFdiv f s
  | .frcp f => Sys2Proof.Machine.execFrcp f s
  | .frsq f => Sys2Proof.Machine.execFrsq f s
  | .fsqrt f => Sys2Proof.Machine.execFsqrt f s
  | .fexp2 f => Sys2Proof.Machine.execFexp2 f s
  | .flog2 f => Sys2Proof.Machine.execFlog2 f s
  | .fsin f => Sys2Proof.Machine.execFsin f s
  | .fcos f => Sys2Proof.Machine.execFcos f s
  | .ftanh f => Sys2Proof.Machine.execFtanh f s
  | .fclass f => Sys2Proof.Machine.execFclass f s
  | .fdot2 f => Sys2Proof.Machine.execFdot2 f s
  | .cvt f => Sys2Proof.Machine.execCvt f s
  | .cvtsc f => Sys2Proof.Machine.execCvtsc f s
  | .pack f => Sys2Proof.Machine.execPack f s
  | .unpk f => Sys2Proof.Machine.execUnpk f s
  | .rng f => Sys2Proof.Machine.execRng f s
  | .mov f => Sys2Proof.Machine.execMov f s
  | .movi f => Sys2Proof.Machine.execMovi f s
  | .movh f => Sys2Proof.Machine.execMovh f s
  | .vrd f => Sys2Proof.Machine.execVrd f s
  | .bra f => Sys2Proof.Machine.execBra f s
  | .bru f => Sys2Proof.Machine.execBru f s
  | .call f => Sys2Proof.Machine.execCall f s
  | .ret f => Sys2Proof.Machine.execRet f s
  | .jmpr f => Sys2Proof.Machine.execJmpr f s
  | .exit f => Sys2Proof.Machine.execExit f s
  | .meet f => Sys2Proof.Machine.execMeet f s
  | .join f => Sys2Proof.Machine.execJoin f s
  | .leave f => Sys2Proof.Machine.execLeave f s
  | .waitm f => Sys2Proof.Machine.execWaitm f s
  | .maskop f => Sys2Proof.Machine.execMaskop f s
  | .maskmv f => Sys2Proof.Machine.execMaskmv f s
  | .maskpc f => Sys2Proof.Machine.execMaskpc f s
  | .vote f => Sys2Proof.Machine.execVote f s
  | .shfl f => Sys2Proof.Machine.execShfl f s
  | .bcast f => Sys2Proof.Machine.execBcast f s
  | .redx f => Sys2Proof.Machine.execRedx f s
  | .scanx f => Sys2Proof.Machine.execScanx f s
  | .matchx f => Sys2Proof.Machine.execMatchx f s
  | .sample f => Sys2Proof.Machine.execSample f s
  | .dqpop f => Sys2Proof.Machine.execDqpop f s
  | .aqpop f => Sys2Proof.Machine.execAqpop f s
  | .ld f => Sys2Proof.Machine.execLd f s
  | .st f => Sys2Proof.Machine.execSt f s
  | .ldq f => Sys2Proof.Machine.execLdq f s
  | .stq f => Sys2Proof.Machine.execStq f s
  | .pref f => Sys2Proof.Machine.execPref f s
  | .prsq f => Sys2Proof.Machine.execPrsq f s
  | .kick f => Sys2Proof.Machine.execKick f s
  | .atom f => Sys2Proof.Machine.execAtom f s
  | .acas f => Sys2Proof.Machine.execAcas f s
  | .red f => Sys2Proof.Machine.execRed f s
  | .binit f => Sys2Proof.Machine.execBinit f s
  | .barr f => Sys2Proof.Machine.execBarr f s
  | .barrx f => Sys2Proof.Machine.execBarrx f s
  | .bexp f => Sys2Proof.Machine.execBexp f s
  | .bwait f => Sys2Proof.Machine.execBwait f s
  | .btest f => Sys2Proof.Machine.execBtest f s
  | .bdrop f => Sys2Proof.Machine.execBdrop f s
  | .fence f => Sys2Proof.Machine.execFence f s
  | .waitc f => Sys2Proof.Machine.execWaitc f s
  | .waita f => Sys2Proof.Machine.execWaita f s
  | .cctl f => Sys2Proof.Machine.execCctl f s
  | .mma f => Sys2Proof.Machine.execMma f s
  | .mmas f => Sys2Proof.Machine.execMmas f s
  | .mmax f => Sys2Proof.Machine.execMmax f s
  | .mzero f => Sys2Proof.Machine.execMzero f s
  | .mpin f => Sys2Proof.Machine.execMpin f s
  | .munpin f => Sys2Proof.Machine.execMunpin f s
  | .mstat f => Sys2Proof.Machine.execMstat f s
  | .racc f => Sys2Proof.Machine.execRacc f s
  | .raccx f => Sys2Proof.Machine.execRaccx f s
  | .rfold f => Sys2Proof.Machine.execRfold f s
  | .rclr f => Sys2Proof.Machine.execRclr f s
  | .spawn f => Sys2Proof.Machine.execSpawn f s
  | .step f => Sys2Proof.Machine.execStep f s
  | .yield f => Sys2Proof.Machine.execYield f s
  | .dieq f => Sys2Proof.Machine.execDieq f s
  | .hops f => Sys2Proof.Machine.execHops f s
  | .nop f => Sys2Proof.Machine.execNop f s
  | .trap f => Sys2Proof.Machine.execTrap f s
  | .svc f => Sys2Proof.Machine.execSvc f s
  | .irq f => Sys2Proof.Machine.execIrq f s
  | .eret f => Sys2Proof.Machine.execEret f s
  | .timrd f => Sys2Proof.Machine.execTimrd f s
  | .timarm f => Sys2Proof.Machine.execTimarm f s
  | .halt f => Sys2Proof.Machine.execHalt f s
  | .ucLdh d sz => Sys2Proof.Machine.execUcLdh d sz s
  | .ucSeth d im => Sys2Proof.Machine.execUcSeth d im s
  | .ucAddh d a im => Sys2Proof.Machine.execUcAddh d a im s
  | .ucCmpj a b c t => Sys2Proof.Machine.execUcCmpj a b c t s
  | .ucJmp t => Sys2Proof.Machine.execUcJmp t s
  | .ucComb c => Sys2Proof.Machine.execUcComb c s
  | .ucHold m => Sys2Proof.Machine.execUcHold m s
  | .ucFwd p => Sys2Proof.Machine.execUcFwd p s
  | .ucMcst => Sys2Proof.Machine.execUcMcst s
  | .ucGath a => Sys2Proof.Machine.execUcGath a s
  | .ucDone => Sys2Proof.Machine.execUcDone s
  | .ucDrop k => Sys2Proof.Machine.execUcDrop k s
  | .ucTmo c => Sys2Proof.Machine.execUcTmo c s
  | .ucBkup c => Sys2Proof.Machine.execUcBkup c s
  | .ucCnta n b => Sys2Proof.Machine.execUcCnta n b s
  | .ucEnd => Sys2Proof.Machine.execUcEnd s
  | .awlGld sz a d => Sys2Proof.Machine.execAwlGld sz a d s
  | .awlGst sz b a => Sys2Proof.Machine.execAwlGst sz b a s
  | .awlBget l a => Sys2Proof.Machine.execAwlBget l a s
  | .awlBput l a => Sys2Proof.Machine.execAwlBput l a s
  | .awlTswr e im d => Sys2Proof.Machine.execAwlTswr e im d s
  | .awlTsrd e d => Sys2Proof.Machine.execAwlTsrd e d s
  | .awlRcrd c d => Sys2Proof.Machine.execAwlRcrd c d s
  | .awlRcwr v c => Sys2Proof.Machine.execAwlRcwr v c s
  | .awlRcadd v c => Sys2Proof.Machine.execAwlRcadd v c s
  | .awlWaitev m d => Sys2Proof.Machine.execAwlWaitev m d s
  | .clauseFetch => Sys2Proof.Machine.execClauseFetch s
  | .meetRelease => Sys2Proof.Machine.execMeetRelease s
  | .holdcntExpiry => Sys2Proof.Machine.execHoldcntExpiry s
  | .reformRelease => Sys2Proof.Machine.execReformRelease s
  | .clauseResume => Sys2Proof.Machine.execClauseResume s
  | .trapEntry => Sys2Proof.Machine.execTrapEntry s
  | .ctxElogTailWrite => Sys2Proof.Machine.execCtxElogTailWrite s
  | .ctxElogStatClr => Sys2Proof.Machine.execCtxElogStatClr s
  | .haltComplete => Sys2Proof.Machine.execHaltComplete s
  | .teamRetire => Sys2Proof.Machine.execTeamRetire s
  | .queueDisciplineTimeout => Sys2Proof.Machine.execQueueDisciplineTimeout s
  | .timerExpiry => Sys2Proof.Machine.execTimerExpiry s
  | .svcRecordWrite => Sys2Proof.Machine.execSvcRecordWrite s
  | .irqMsiPost => Sys2Proof.Machine.execIrqMsiPost s
  | .ctxSvcTailWrite => Sys2Proof.Machine.execCtxSvcTailWrite s
  | .loadComplete => Sys2Proof.Machine.execLoadComplete s
  | .storeAck => Sys2Proof.Machine.execStoreAck s
  | .homeAccessApply => Sys2Proof.Machine.execHomeAccessApply s
  | .atomicComplete => Sys2Proof.Machine.execAtomicComplete s
  | .presenceParkRelease => Sys2Proof.Machine.execPresenceParkRelease s
  | .translationWalk => Sys2Proof.Machine.execTranslationWalk s
  | .faultRecordPost => Sys2Proof.Machine.execFaultRecordPost s
  | .xlatReplyRetry => Sys2Proof.Machine.execXlatReplyRetry s
  | .xlatReplyFail => Sys2Proof.Machine.execXlatReplyFail s
  | .barrierUpdateApply => Sys2Proof.Machine.execBarrierUpdateApply s
  | .bwaitWake => Sys2Proof.Machine.execBwaitWake s
  | .waitaMonitorWake => Sys2Proof.Machine.execWaitaMonitorWake s
  | .waitaPollReread => Sys2Proof.Machine.execWaitaPollReread s
  | .fenceComplete => Sys2Proof.Machine.execFenceComplete s
  | .cctlComplete => Sys2Proof.Machine.execCctlComplete s
  | .updateOnlyRegistration => Sys2Proof.Machine.execUpdateOnlyRegistration s
  | .updateOnlyRecall => Sys2Proof.Machine.execUpdateOnlyRecall s
  | .coreLsStatClr => Sys2Proof.Machine.execCoreLsStatClr s
  | .acceptance => Sys2Proof.Machine.execAcceptance s
  | .copyPiece => Sys2Proof.Machine.execCopyPiece s
  | .holdingBufferDrain => Sys2Proof.Machine.execHoldingBufferDrain s
  | .coreKickStatusClr => Sys2Proof.Machine.execCoreKickStatusClr s
  | .tileFetchRead => Sys2Proof.Machine.execTileFetchRead s
  | .matrixRunStart => Sys2Proof.Machine.execMatrixRunStart s
  | .matrixWriteback => Sys2Proof.Machine.execMatrixWriteback s
  | .governorWindowBoundary => Sys2Proof.Machine.execGovernorWindowBoundary s
  | .coreMtxStallClr => Sys2Proof.Machine.execCoreMtxStallClr s
  | .farOperationApply => Sys2Proof.Machine.execFarOperationApply s
  | .invalStart => Sys2Proof.Machine.execInvalStart s
  | .invalDone => Sys2Proof.Machine.execInvalDone s
  | .msideXfqTailWrite => Sys2Proof.Machine.execMsideXfqTailWrite s
  | .msideRegionWrite => Sys2Proof.Machine.execMsideRegionWrite s
  | .scrubRead => Sys2Proof.Machine.execScrubRead s
  | .carve => Sys2Proof.Machine.execCarve s
  | .carveComplete => Sys2Proof.Machine.execCarveComplete s
  | .uncarve => Sys2Proof.Machine.execUncarve s
  | .snapshotCopy => Sys2Proof.Machine.execSnapshotCopy s
  | .snapshotRestore => Sys2Proof.Machine.execSnapshotRestore s
  | .ctxSnapStatClr => Sys2Proof.Machine.execCtxSnapStatClr s
  | .linkRetransmit => Sys2Proof.Machine.execLinkRetransmit s
  | .retryResend => Sys2Proof.Machine.execRetryResend s
  | .msideNetStatClr => Sys2Proof.Machine.execMsideNetStatClr s
  | .queueWrite => Sys2Proof.Machine.execQueueWrite s
  | .launchAccept => Sys2Proof.Machine.execLaunchAccept s
  | .launchReady => Sys2Proof.Machine.execLaunchReady s
  | .teamDispatch => Sys2Proof.Machine.execTeamDispatch s
  | .quantumExpiry => Sys2Proof.Machine.execQuantumExpiry s
  | .teamSave => Sys2Proof.Machine.execTeamSave s
  | .teamRestore => Sys2Proof.Machine.execTeamRestore s
  | .teamMove => Sys2Proof.Machine.execTeamMove s
  | .stepBoundaryComplete => Sys2Proof.Machine.execStepBoundaryComplete s
  | .launchRetire => Sys2Proof.Machine.execLaunchRetire s
  | .launchKill => Sys2Proof.Machine.execLaunchKill s
  | .ctxKillLaunch => Sys2Proof.Machine.execCtxKillLaunch s
  | .ctxKillAll => Sys2Proof.Machine.execCtxKillAll s
  | .ctxSchedStatClr => Sys2Proof.Machine.execCtxSchedStatClr s
  | .ctxVdieMapWrite => Sys2Proof.Machine.execCtxVdieMapWrite s
  | .aliasStoreAccept => Sys2Proof.Machine.execAliasStoreAccept s
  | .tileFire => Sys2Proof.Machine.execTileFire s
  | .packetForward => Sys2Proof.Machine.execPacketForward s
  | .packetMatch => Sys2Proof.Machine.execPacketMatch s
  | .chunkDeadline => Sys2Proof.Machine.execChunkDeadline s
  | .heldPacketRelease => Sys2Proof.Machine.execHeldPacketRelease s
  | .lateNotice => Sys2Proof.Machine.execLateNotice s
  | .leafAcceptance => Sys2Proof.Machine.execLeafAcceptance s
  | .tileComplete => Sys2Proof.Machine.execTileComplete s
  | .answerWaitExpiry => Sys2Proof.Machine.execAnswerWaitExpiry s
  | .remoteOperation => Sys2Proof.Machine.execRemoteOperation s
  | .readResponse => Sys2Proof.Machine.execReadResponse s
  | .transportExhausted => Sys2Proof.Machine.execTransportExhausted s
  | .triggeredSendFire => Sys2Proof.Machine.execTriggeredSendFire s
  | .putInject => Sys2Proof.Machine.execPutInject s
  | .putAcknowledgement => Sys2Proof.Machine.execPutAcknowledgement s
  | .saddleCollCfgWrite => Sys2Proof.Machine.execSaddleCollCfgWrite s
  | .saddleCollStatClr => Sys2Proof.Machine.execSaddleCollStatClr s
  | .saddlePortStatClr => Sys2Proof.Machine.execSaddlePortStatClr s
  | .rctrWrite => Sys2Proof.Machine.execRctrWrite s
  | .awlRun => Sys2Proof.Machine.execAwlRun s
  | .awlReset => Sys2Proof.Machine.execAwlReset s
  | .awlLoadGo => Sys2Proof.Machine.execAwlLoadGo s
  | .awlLoadComplete => Sys2Proof.Machine.execAwlLoadComplete s
  | .awlCtxLock => Sys2Proof.Machine.execAwlCtxLock s
  | .awlDoorbell => Sys2Proof.Machine.execAwlDoorbell s
  | .awlTimerExpiry => Sys2Proof.Machine.execAwlTimerExpiry s
  | .awlWaitevWake => Sys2Proof.Machine.execAwlWaitevWake s
  | .awlException => Sys2Proof.Machine.execAwlException s
  | .packageReset => Sys2Proof.Machine.execPackageReset s
  | .hostLockWrite => Sys2Proof.Machine.execHostLockWrite s
  | .hostFatalReq => Sys2Proof.Machine.execHostFatalReq s
  | .hostFatalDumped => Sys2Proof.Machine.execHostFatalDumped s
  | .watchdogService => Sys2Proof.Machine.execWatchdogService s
  | .watchdogExpiry => Sys2Proof.Machine.execWatchdogExpiry s
  | .thermalTrip => Sys2Proof.Machine.execThermalTrip s
  | .powerClamp => Sys2Proof.Machine.execPowerClamp s
  | .hostMsiStatClr => Sys2Proof.Machine.execHostMsiStatClr s
  | .hostCreditGo => Sys2Proof.Machine.execHostCreditGo s
  | .hostCreditApply => Sys2Proof.Machine.execHostCreditApply s
  | .hostFeatAckWrite => Sys2Proof.Machine.execHostFeatAckWrite s
  | .hostFeatCommit => Sys2Proof.Machine.execHostFeatCommit s
  | .pcieInboundRequest => Sys2Proof.Machine.execPcieInboundRequest s
  | .pcieIntx => Sys2Proof.Machine.execPcieIntx s
  | .pcieOutbound => Sys2Proof.Machine.execPcieOutbound s
  | .getVersion => Sys2Proof.Machine.execGetVersion s
  | .getCapabilities => Sys2Proof.Machine.execGetCapabilities s
  | .negotiateAlgorithms => Sys2Proof.Machine.execNegotiateAlgorithms s
  | .getDigests => Sys2Proof.Machine.execGetDigests s
  | .getCertificate => Sys2Proof.Machine.execGetCertificate s
  | .challenge => Sys2Proof.Machine.execChallenge s
  | .getMeasurements => Sys2Proof.Machine.execGetMeasurements s
  | .keyExchange => Sys2Proof.Machine.execKeyExchange s
  | .finish => Sys2Proof.Machine.execFinish s
  | .endSession => Sys2Proof.Machine.execEndSession s
  | .vendorDefinedRequest => Sys2Proof.Machine.execVendorDefinedRequest s
  | .erase => Sys2Proof.Machine.execErase s
  | .registerWrite => Sys2Proof.Machine.execRegisterWrite s
  | .awlStandardInstruction => Sys2Proof.Machine.execAwlStandardInstruction s
  | .hostHartAccess => Sys2Proof.Machine.execHostHartAccess s

end Sys2Proof.Machine
end

