-- ==== Sys2Proof/Machine/Turns.lean ====
section
/-! DEFINITION. Taking a turn: the party or engine whose turn it is acts (R8, R60 to R66, R394, R425), and what comes from
outside lands (R31, R69, R341, R428, R466, R467). -/

namespace Sys2Proof.Machine

/-- Steps that a core, an Awl or a port engine takes; after a fatal error they take none (R467). -/
def stopsWithCores : Instr → Bool
  | .clauseFetch | .meetRelease | .holdcntExpiry | .reformRelease | .clauseResume | .trapEntry | .haltComplete | .teamRetire
  | .queueDisciplineTimeout | .timerExpiry | .svcRecordWrite | .irqMsiPost | .loadComplete | .storeAck | .atomicComplete
  | .presenceParkRelease | .homeAccessApply | .barrierUpdateApply | .bwaitWake | .waitaMonitorWake | .waitaPollReread | .fenceComplete
  | .cctlComplete | .updateOnlyRegistration | .acceptance | .copyPiece | .holdingBufferDrain | .tileFetchRead | .matrixRunStart
  | .matrixWriteback | .governorWindowBoundary | .quantumExpiry | .teamSave | .teamRestore | .teamMove | .teamDispatch
  | .stepBoundaryComplete | .aliasStoreAccept | .tileFire | .packetMatch | .chunkDeadline | .heldPacketRelease | .lateNotice
  | .leafAcceptance | .tileComplete | .answerWaitExpiry | .triggeredSendFire | .putInject | .putAcknowledgement
  | .awlLoadComplete | .awlTimerExpiry | .awlWaitevWake | .awlException | .awlStandardInstruction => true
  | _ => false

/-- An upset in a word of an Awl's local memory (R428). -/
def State.awlUpset (s : State) (n word : Nat) (fixed : Bool) : State :=
  s.updAwl n (fun a => if fixed then { a with corrected := a.corrected + 1 } else { a with ecc := a.ecc.ins word })

/-- A line may be replaced before the others that a cache holds in its set (R214): first those of mark 1, then the normal ones, then those of
mark 2; and a kept one only with kept ones around it. -/
def mayReplace (set : Nat → Nat) (marks : Tab Nat) (line : Nat) : Bool :=
  let rank := fun (m : Nat) => if m = 1 then 0 else if m = 0 then 1 else m
  let own := rank (marks.get 0 line)
  marks.all (fun p => set p.1 != set line || decide (own ≤ rank p.2))

/-- The marks of the lines of a core's L1: 3 for a kept one. -/
def Core.l1Marks (k : Core) : Tab Nat := k.l1.map (fun p => (p.1, if k.keeps p.1 then 3 else p.2.mark))

/-- A core's L1 replaces a line that may go (R214), or flushes a delta line that it evicts (R315). -/
def State.evictL1 (s : State) (core line : Nat) : State :=
  if ((s.core core).deltas.look line).isSome then s.recallOne line core
  else if mayReplace Config.l1Set (s.core core).l1Marks line then s.updCore core (fun k => { k with l1 := k.l1.del line })
  else s

/-- The L2 replaces a line that may go (R214, R311): none that is pinned (R303); its deltas are recalled first (R316). -/
def State.evictL2 (s : State) (line : Nat) : State :=
  if s.ms.pins.any (fun p => p.line == line) || !mayReplace Config.l2Set s.ms.l2 line then s
  else (s.recallLine line).updMs (fun m => { m with l2 := m.l2.del line })

/-- A translation leaves the cache of a core, or, from 160 on, one of the memory side (R328). A core keeps those of the pages that it has
pinned lines of (R303). -/
def State.evictXlat (s : State) (k key : Nat) : State :=
  if 160 ≤ k then s.updMs (fun m => { m with xlat := m.xlat.upd (k - 160) (fun t => t.del key) })
  else if s.ms.pins.any (fun p => p.core == k && xkey p.ctx (128 * p.vline) == key) then s
  else s.updCore k (fun c => { c with xlat := c.xlat.del key })

/-- Take a turn. -/
def State.take (s : State) : Turn → Host.Outcome State Fault Refusal
  | .port core p =>
    if s.host.stopped || (s.core core).acted.has p then .next s
    else if !(s.portsBefore core p).isEmpty then .next (s.soon ((s.portsBefore core p).map (fun x => Turn.port x.1 x.2) ++ [.port core p]))
    else match (s.updCore core (fun k => { k with acted := k.acted.ins p })).portTurn core p with
      | .idle => .next s
      | .serve s => .next s
      | .issue s i => exec i s
      | .bad s => .next s
  | .handler p =>
    if s.host.stopped then .next s
    else match s.handlerTurn p with
      | .idle => .next s
      | .issue s i => exec i s
      | .bad s => .next s
  | .awl n =>
    if s.host.stopped then .next s
    else match s.awlTurn n with
      | .idle => .next s
      | .issue s i x => exec i { s with arg := x }
      | .bad s => .next s
  | .event i x => if s.host.stopped && stopsWithCores i then .next s else exec i { s with arg := x, who := .nobody }
  | .together l awls handlers => .next (s.soon (s.inOrder l awls handlers))
  | .tickCore core => .next (s.tickCore core)
  | .tickDie die => .next (s.tickDie die)
  | .tickPort p => .next (s.tickPort p)
  | .tickHost => .next s.tickHost
  | .upset u => .next { s with upset := some u }
  | .memUpset h a n wrong => .next (s.memUpset h a n wrong)
  | .l1Upset core line sector wrong ctx => .next (s.l1Upset core line sector wrong ctx)
  | .chunkUpset p i n sector wrong => .next (s.chunkUpset p i n sector wrong)
  | .awlUpset n word fixed => .next (s.awlUpset n word fixed)
  | .sramUpset word => .next (s.updHost (fun h => { h with sramEcc := h.sramEcc.ins word }))
  | .sensors watts tmax => .next (s.sense watts tmax)
  | .evictL1 core line => .next (s.evictL1 core line)
  | .evictInstr core addr => .next (s.updCore core (fun k => { k with icache := k.icache.del addr, ipoison := k.ipoison.rem addr }))
  | .evictXlat k key => .next (s.evictXlat k key)
  | .evictL2 line => .next (s.evictL2 line)
  | .evictAdder line => .next (s.updMs (fun m => { m with adder := m.adder.rem line }))

/-! ## Placing one instruction -/

/-- All features acknowledged and committed (R464), so that no encoding is illegal for want of one. -/
def State.negotiated (s : State) : State := s.updHost (fun h => { h with ack0 := 0x7FF, featStatus := 1 })

/-- A team of 16 threads at width 16 with 256 registers on core 0, all of it about to issue at address `pc`: its lead thread,
or its formed warp 0, has fetched a clause. -/
def clauseTeam (lead : Bool) (header : DWord) (words : List DWord) : Team :=
  let pc := 0x1000
  { launch := 0, ctx := 0, number := 0, vdie := 0, core := 0, slot := 0, paired := false, width := 16, size := 16, nregs := 256,
    privBytes := 0, scratchBytes := 65536, clusterBytes := 0,
    lead := if lead then { pc := pc, header := header, words := words, run := .running .waiting } else {}
    threads := (upFrom 0 16).map (fun k => (k, ({ pc := pc, run := if lead then .ready else .issuing } : Thread)))
    warps := [(0, {})]
    formed := if lead then [] else [(0, { threads := upFrom 0 16, quarter := 0, pc := pc, header := header, words := words, run := .waiting })]
    nextFid := 1 }

/-- A fetched clause: its header, and its words, of which only the first is given. -/
def State.placeClause (s : State) (header word : DWord) : State :=
  let lead := (getHeader header).stream == 1
  let words := word :: (upFrom 1 ((getHeader header).count - 1)).map (fun _ => (0 : DWord))
  { s with
    teams := s.teams.put s.nextId (clauseTeam lead header words), nextId := s.nextId + 1
    agenda := .port 0 (if lead then 4 else 0) :: s.agenda }

/-- A microcode word in port 0's store, at the pc of a packet context. -/
def State.placeMicro (s : State) (w : Word) : State :=
  let s := s.updPort 0 (fun k => { k with run := true, store := [(0, w)], handlers := [(0, { pc := 0, pkt := { kind := 4, src := s.pkg } })] })
  { s with agenda := .handler 0 :: s.agenda }

/-- An instruction of Awl 0 in its local memory, at its pc. -/
def State.placeAwl (s : State) (w : Nat) : State :=
  let s := s.updAwl 0 (fun a => { a with run := true, mem := writeCells a.mem a.pc.toNat (bytesOf 4 w) })
  { s with agenda := .awl 0 :: s.agenda }

end Sys2Proof.Machine
end

