-- ==== Sys2Proof/Machine/Step.lean ====
section
/-! DEFINITION. The step of the package: the next turn of the agenda, or a new round of turns (log entry 7). -/

namespace Sys2Proof.Machine

/-- One step: take the first turn of the agenda; an empty agenda takes the model's default round. -/
def step (s : State) : Host.Outcome State Fault Refusal :=
  match s.agenda with
  | [] => .next { s with agenda := s.round, rounds := s.rounds + 1 }
  | t :: rest => ({ s with agenda := rest } : State).take t

/-- s with one instruction stored where the next step fetches it: 32 bits are a microcode word of a Saddle port or a word of
an Awl; 128 bits are a clause header and its first word (log entry 36). -/
def State.withFetchWord (s : State) (nbits w : Nat) : State :=
  let s := s.negotiated
  if nbits = 32 then
    match decodeMicro (BitVec.ofNat 32 w) with
    | some _ => s.placeMicro (BitVec.ofNat 32 w)
    | none => s.placeAwl (w % 2 ^ 32)
  else s.placeClause (BitVec.ofNat 64 w) (BitVec.ofNat 64 (w / 2 ^ 64))

end Sys2Proof.Machine
end

