-- ==== Sys2Proof/Safety.lean ====
section
/-! DEFINITION. The notions that claims about the machine use: the canonical form of memory, a party that may issue, and
what an instruction leaves alone. -/

namespace Sys2Proof.Machine

/-! ## Memory -/

/-- The canonical form of the bytes of a memory level: addresses strictly rising, and no entry equal to the 0 that an
unlisted byte reads as. -/
def Space.wf (m : Space) : Bool := Tab.wf 0 m.cells

/-- Every memory level of the package is in canonical form: global memory, the carved slices, cluster memory, and the
scratchpad footprints and private slices of the teams. -/
def State.memoryWf (s : State) : Bool :=
  s.glob.wf && s.chips.all (fun p => p.2.wf) && s.gangs.all (fun p => p.2.mem.wf)
    && s.teams.all (fun p => p.2.scratch.wf && p.2.threads.all (fun q => q.2.priv.wf))

/-- No byte of any memory level has changed. -/
def SameBytes (s t : State) : Prop := ∀ (h : Home) (a : Nat), (t.space h).byte a = (s.space h).byte a

/-! ## Who may issue -/

/-- The party whose turn it is may issue an instruction with this mask and protection class: its environment is e, no
upset meets it, and a protection class is one that system software has acknowledged. -/
def State.Issues (s : State) (msel : BitVec 4) (pclass : BitVec 2) (e : Env) : Prop :=
  s.env msel.toNat pclass.toNat = some e ∧ s.upset = none ∧ (pclass.toNat = 0 ∨ s.feature 1 = true)

/-- That party is a lead thread. -/
def State.LeadIssues (s : State) (msel : BitVec 4) (pclass : BitVec 2) (e : Env) : Prop := s.Issues msel pclass e ∧ e.fid = none

/-- That party is a formed warp. -/
def State.LaneIssues (s : State) (msel : BitVec 4) (pclass : BitVec 2) (e : Env) : Prop := s.Issues msel pclass e ∧ e.fid.isSome = true

/-- A lead register is written and the lead thread stands at its next index, or at the next clause. -/
def State.leadWrote (s : State) (e : Env) (d v : Nat) : State := (s.setS e.tid d v).advance e .issuing

/-- Registers of the active threads are written, from values read before any is written, and the formed warp stands at its
next index, or its threads at the next clause. -/
def State.laneWrote (s : State) (e : Env) (w : Nat → Thread → List (Nat × Nat)) : State :=
  (s.setV e.tid (e.act.map (fun th => (th, w th (e.t.thread th))))).advance e .issuing

/-- A transfer may go to this address: it is aligned, and the word there can be read and is a header of the stream (R46). -/
def State.GoodTarget (s : State) (e : Env) (lead : Bool) (va : Nat) : Prop :=
  va % 8 = 0 ∧ ∃ w, s.readCode e.core e.t.ctx va = .word w ∧ targetOk lead w = true

/-- A transfer may not go to this address: it is not aligned, or the word there can be read and is no header of the stream (R46). -/
def State.BadTarget (s : State) (e : Env) (lead : Bool) (va : Nat) : Prop :=
  va % 8 ≠ 0 ∨ ∃ w, s.readCode e.core e.t.ctx va = .word w ∧ targetOk lead w = false

/-- The lead thread stands at a header, and its port is free. -/
def State.leadJumped (s : State) (e : Env) (va : Nat) : State := (s.leadGoto e.tid va).releasePort e

/-- The clause of the formed warp has ended: each thread stands at its own next header, and the port is free. -/
def State.laneJumped (s : State) (e : Env) (next : Nat → Nat) : State :=
  (s.dissolve e.tid (e.fid.getD 0) (fun th => some (next th))).releasePort e

/-- A value is the same in every active lane (R188). -/
def Env.Same (e : Env) (val : Nat → Nat) : Prop := ∀ x ∈ e.act, ∀ y ∈ e.act, val x = val y

/-- The access that a thread's want becomes while its translation is held (R209, R221). -/
def State.accOf (s : State) (e : Env) (w : Want) : Acc :=
  Acc.of { lane := w.lane, thread := w.th, space := w.space, addr := w.addr.toNat, data := w.data, data2 := w.data2,
           home := s.homeOf e.tid e.t e.core w.th w.space w.addr.toNat }
    (if w.space = 0 then s.held e.core e.t.ctx w.addr.toNat else none)

/-- An access can go out at once: some thread makes it, its counter has room, no check of R72 fails, and no walk is needed. -/
def State.Goes (s : State) (e : Env) (u : Use) (counter : Nat) (ws : List Want) : Prop :=
  ws ≠ [] ∧ e.full counter = false ∧ s.accessFault e u ws = none ∧ ∀ w ∈ ws, s.needsWalk e w = false

/-- The same for a store: it has room in oc6 if it reaches alias pages, and in oc1 if it reaches others (R470). -/
def State.GoesStore (s : State) (e : Env) (u : Use) (ws : List Want) : Prop :=
  ws ≠ [] ∧ s.accessFault e u ws = none ∧ (∀ w ∈ ws, s.needsWalk e w = false)
    ∧ ((∃ w ∈ ws, (s.accOf e w).alias_ ≠ 0) → e.full 6 = false) ∧ ((∃ w ∈ ws, (s.accOf e w).alias_ = 0) → e.full 1 = false)

/-- An operation is in flight and its party has gone on. -/
def State.launched (s : State) (e : Env) (o : Op) : State := (s.launchOp e o).1.advance e .issuing

/-- The accesses of an operation whose lines are absent wait for them (R25, R63). -/
def State.atLines (s : State) (o : Op) : Op :=
  { o with lanes := o.lanes.map (fun a => if s.absentFor o a then { a with phase := .absent } else a) }

/-- An operation is in flight and its party is parked on it, past the instruction. -/
def State.parkedOn (s : State) (e : Env) (o : Op) : State :=
  let r := s.launchOp e { s.atLines o with parks := true }
  r.1.advance e (.blocked (.access r.2))

/-- An access is in flight; its party has gone on, or is parked on it, past the instruction, where a line that it touches is absent
(R63, R219). -/
def State.accessed (s : State) (e : Env) (o : Op) : State :=
  let r := s.launchOp e (s.atLines o)
  r.1.advance e (if o.lanes.any (s.absentFor o) then .blocked (.access r.2) else .issuing)

/-- A store is in flight: its lanes of alias pages in oc6, the others in oc1 (R470). -/
def State.stored (s : State) (e : Env) (op : State → Nat → List Acc → Op) (l : List Acc) : State :=
  let toAlias := l.filter (fun a => a.alias_ != 0)
  let plain := l.filter (fun a => a.alias_ == 0)
  let s := if toAlias.isEmpty then s else (s.launchOp e (op s 6 toAlias)).1
  if plain.isEmpty then s.advance e .issuing else s.accessed e (op s 1 plain)

/-- A matrix instruction stands in the array of its quarter; with `parks` its warp is parked on it, past the instruction. Its accumulators
are those that its threads hold, unless an earlier matrix instruction of one of them is still to write them. -/
def State.arrayed (s : State) (e : Env) (o : Op) (parks : Bool) : State :=
  let o : Op := { o with parks := parks, runs := runsOf e.pclass }
  let r := s.launchOp e { o with mtx := { o.mtx with accs := if s.firstInOrder s.nextId o then s.accsOf o [] else [] } }
  (r.1.enqueue e.core e.w.quarter r.2).advance e (if parks then .blocked (.access r.2) else .issuing)

/-- Nothing has changed but one team, the issue ports of cores, and what happens next. -/
def State.TeamOnly (s t : State) (tid : Nat) (x : Team) : Prop :=
  t = { s with teams := t.teams, cores := t.cores, agenda := t.agenda }
    ∧ (∀ n, n ≠ tid → t.teams.look n = s.teams.look n) ∧ t.teams.look tid = some x
    ∧ (∀ c, t.core c = { s.core c with ports := (t.core c).ports })

end Sys2Proof.Machine
end

