-- ==== Sys2Proof/Certificates/Slice0/Obligations.lean ====
section
/-! DEFINITION. The statements for the provers, in the order of the spec's files. -/

open Sys2Proof Sys2Proof.Machine


/-! ## Encoding -/

/-- For every instruction of the clause streams that passes the checks of its stream, with every field at every value that these admit, the
word that the encoder writes has the instruction's opcode in bits 9:0 and decodes, in the class of that opcode, to the instruction (R47,
R48, R58). The same of the 32-bit words: those of the Saddle's microcode (R406) and the Awl's custom instructions (R432 to R436). -/
def Obligations.EncodedInstructionsDecode : Prop :=
  (∀ (lead : Bool) (i : Instr) (c : Cls) (op : BitVec 10), opcodeOf i = some (c, op) → wellFormed lead i = true →
     ∃ w, encode i = some w ∧ w.extractLsb' 0 10 = op ∧ decodeWord c lead w = .ok i)
  ∧ ((∀ (i : Instr) (w : BitVec 32), encode32 i = some w → decodeMicro w = some i ∨ decodeAwl w = some i)
       ∧ (∀ (i : Instr) (w : BitVec 32), decodeMicro w = some i ∨ decodeAwl w = some i → encode32 i = some w))

/-- No bit of a clause word is dropped: a word that decodes is the word that the encoder writes for what it decodes to, so two words never
decode to one instruction; and what decodes is well-formed and carries the opcode of its word (R47, R58, R71). -/
def Obligations.DecodedWordsEncodeBack : Prop :=
  ∀ (cls : Cls) (lead : Bool) (w : BitVec 64) (i : Instr), decodeWord cls lead w = .ok i →
    encode i = some w ∧ opcodeOf i = some (cls, w.extractLsb' 0 10) ∧ wellFormed lead i = true

/-- Words that the spec writes out, one or two of each class, decode to the instructions they stand for (R38's example, R106, R159, R168,
R187, R235, R236, R296, R323, R387, R406, R435). -/
def Obligations.WordsOfTheSpecDecode : Prop :=
  decodeWord .lead true 0x00000010000A0110 = .ok (.sli { imm := 4, a := 0, dst := 10, msel := 0, pclass := 0 })
    ∧ decodeWord .lead true 0x0000080016010162 = .ok (.aqstep { imm := 512, a := 11, dst := 1, msel := 0, pclass := 0 })
    ∧ decodeWord .lane false 0x0000004002030100 = .ok (.iaddImm { imm := 16, a := 1, dst := 3, msel := 0, pclass := 0 })
    ∧ decodeWord .lane false 0x0080000006093406 =
      .ok (.imax { md := 0, zsel := 2, retain := 0, c := 0, b := 0, a := 3, dst := 9, msel := 3, pclass := 1 })
    ∧ decodeWord .lane false 0x1600C0000C050080 =
      .ok (.cvt { md := 11, zsel := 0, retain := 0, c := 24, b := 0, a := 6, dst := 5, msel := 0, pclass := 0 })
    ∧ decodeWord .grp false 0x0000000072040000 = .ok (.bra { target := 7, kind := 1, reg := 4, msel := 0, pclass := 0 })
    ∧ decodeWord .mem false 0x0000404004040020 = .ok (.atom {
        aop := 0, atype := 0, offset := 0, size := 2, space := 0, evict := 0, scope := 4, ord := 0, addr := 2, data := 4, msel := 0, pclass := 0 })
    ∧ decodeWord .mem false 0x0004404404040062 = .ok (.waita {
        offset := 4, size := 2, space := 0, evict := 0, scope := 4, ord := 1, addr := 2, data := 4, msel := 0, pclass := 0 })
    ∧ decodeWord .mtx false 0x08200178B4001002 = .ok (.mmax {
        opsrc := 0, sparse := 0, nobar := 1, fmt := 0, shape := 2, bar := 0, bdesc := 94, arow := 90, acc := 0, msel := 1, pclass := 0 })
    ∧ decodeWord .far false 0x09B0805004050001 = .ok (.raccx {
        aop := 0, atype := 4, offset := 0x1B0, size := 4, space := 0, evict := 0, scope := 5, ord := 0, addr := 2, data := 5, msel := 0, pclass := 0 })
    ∧ decodeWord .sched true 0x0000005428160000 =
      .ok (.spawn { md := 0, zsel := 0, retain := 0, c := 0, b := 21, a := 20, dst := 22, msel := 0, pclass := 0 })
    ∧ decodeWord .sys true 0x0000000000000007 =
      .ok (.halt { md := 0, zsel := 0, retain := 0, c := 0, b := 0, a := 0, dst := 0, msel := 0, pclass := 0 })
    ∧ decodeMicro 0x03040000 = some (.ucLdh 3 4)
    ∧ decodeAwl 0x0059302B = some (.awlRcwr 5 18)

/-! ## The step, reset, memory -/

/-- A step runs the instruction that its turn fetches and decodes: the word at the index of the clause that holds or wins a port, the
microcode word at the pc of the packet context whose turn it is, the custom or standard word at the pc of an Awl; or the step of an
engine. A port and a port engine take one turn in a clock; a port that has had its clock does nothing, and one before whose turn others
come in the clock lets them go first (R111, R113). The rest of the agenda stays; an empty agenda takes the default round. A word that does
not decode is no instruction: its illegal-encoding fault is taken (R38, R62, R64, R71, R394, R406, R425). Where the spec leaves a choice
here, the model's is in log entry 7. -/
def Obligations.AStepRunsTheDecodedInstruction : Prop :=
  ∀ (s : State) (rest : List Turn), s.host.stopped = false →
    let a : State := { s with agenda := rest }
    (s.agenda = [] → step s = .next { s with agenda := s.round, rounds := s.rounds + 1 })
    ∧ (∀ core p, s.agenda = .port core p :: rest →
        ((s.core core).acted.has p = true → step s = .next a)
        ∧ ((s.core core).acted.has p = false → a.portsBefore core p ≠ [] →
          step s = .next { a with agenda := (a.portsBefore core p).map (fun x => Turn.port x.1 x.2) ++ .port core p :: rest })
        ∧ ((s.core core).acted.has p = false → a.portsBefore core p = [] →
          let b := a.updCore core (fun k => { k with acted := k.acted.ins p })
          ∀ c cls lead w, b.portPick core p = some c → c.req = none → b.nextWord c.tid c.fid = some (cls, lead, w) →
            (∀ i, decodeWord cls lead w = .ok i → step s = exec i
              { b.takePort core p c (placementClocks (b.widthOf c) (bits w.toNat 11 10) (quarterRate i)) with who := c.party })
            ∧ (∀ x, decodeWord cls lead w = .error x →
              step s = .next (({ b.takePort core p c 1 with who := c.party } : State).illegalWord cls w))))
    ∧ (∀ p k h, s.agenda = .handler p :: rest → (s.port p).run = true → (s.port p).acted = false → a.handlerPick p = some k →
        (s.port p).handlers.look k = some h → ∀ i, decodeMicro ((s.port p).store.get 0 h.pc) = some i →
          step s = exec i { a.updPort p (fun q => { q with last := k, acted := true }) with who := .handler p k })
    ∧ (∀ n, s.agenda = .awl n :: rest →
        let h := s.awl n
        let pc := h.pc.toNat
        let byte := fun i => h.mem.get 0 (pc + i)
        let w := natOf [byte 0, byte 1, byte 2, byte 3]
        let run := fun (w : Nat) => step s = exec .awlStandardInstruction { a with who := .awl n, arg := { a := w } }
        h.run = true → h.fault = false → h.waiting = .no → h.wait = none → h.access = .none → h.stale = [] → pc + 4 ≤ localSize →
        h.bad pc 2 = false → h.bad (pc + 2) 2 = false →
        (w % 4 ≠ 3 → run (natOf [byte 0, byte 1]))
        ∧ (w % 4 = 3 → w % 128 ≠ 0x0B → w % 128 ≠ 0x2B → run w)
        ∧ (w % 128 = 0x0B ∨ w % 128 = 0x2B → ∀ i, decodeAwl (BitVec.ofNat 32 w) = some i →
          step s = exec i { a with who := .awl n, arg := {} }))
    ∧ (∀ i x, s.agenda = .event i x :: rest → step s = exec i { a with arg := x, who := .nobody })

/-- Every step of every state answers a next state: every trap, fault record, kill and stop of the spec is a state of the machine. -/
def Obligations.EveryStepAnswersNext : Prop :=
  ∀ s : State, ∃ t, step s = .next t

/-- After reset: nothing is resident and memory lists nothing; the registers to which the spec gives a reset value hold it. Where the spec
leaves a choice here, the model's is in log entries 1 to 6. -/
def Obligations.ResetLeavesTheResetValues : Prop :=
  let s := State.reset
  s.teams = [] ∧ s.launches = [] ∧ s.ops = [] ∧ s.copies = [] ∧ s.glob.cells = [] ∧ s.chips = [] ∧ s.memoryWf = true
    ∧ (∀ c, (s.ctx c).trapBase = 0 ∧ (s.ctx c).elogBase = 0 ∧ (s.ctx c).svcBase = 0 ∧ (s.ctx c).irqCount = 0 ∧ (s.ctx c).ptRoot = 0
        ∧ (s.ctx c).quantum = 2000 ∧ (s.ctx c).target = 8)
    ∧ (∀ c, (s.core c).clock = 0 ∧ (s.core c).budget = 1024 ∧ (s.core c).next = 1024 ∧ (s.core c).used = 0 ∧ (s.core c).stall = 0
        ∧ (s.core c).reread = 0 ∧ (s.core c).polled = 0 ∧ (s.core c).kicks = [])
    ∧ (∀ n, (s.awl n).run = false ∧ (s.awl n).fault = false ∧ (s.awl n).doorbell = 0 ∧ (s.awl n).pend = 0)
    ∧ (∀ p, (s.port p).run = false ∧ (s.port p).handlers = [] ∧ (s.port p).ucerr = 0)
    ∧ s.elogBase = 0 ∧ s.elogHead = 0 ∧ s.elogTail = 0 ∧ s.msiTab = [] ∧ s.msiDropped = 0
    ∧ s.host.ack0 = 0 ∧ s.host.featStatus = 0 ∧ s.host.limit = 3000 ∧ s.host.floor = 256 ∧ s.host.wdog = 2 ^ 28
    ∧ s.host.stopped = false ∧ s.host.stage = 0 ∧ s.host.lock = false

/-- Every write to a memory level keeps its canonical form, and after it the bytes written read as written, at every home that is there
(R336), and every other byte of every level as before (R18, R19). -/
def Obligations.WritesChangeTheirBytesOnly : Prop :=
  (∀ (m : Space) (a : Nat) (bs : List Byte), m.wf = true →
    (m.write a bs).wf = true ∧ (∀ i b, bs[i]? = some b → (m.write a bs).byte (a + i) = b)
      ∧ ∀ x, x < a ∨ a + bs.length ≤ x → (m.write a bs).byte x = m.byte x)
  ∧ (∀ (s : State) (h : Home) (a : Nat) (bs : List Byte), s.memoryWf = true →
    (s.writeHome h a bs).memoryWf = true
      ∧ (h = .glob ∧ lostPlace a = false ∨ (∃ k, h = .chip k ∧ (s.chips.look k).isSome = true)
          ∨ (∃ tid, h = .scratch tid ∧ (s.teams.look tid).isSome = true) ∨ (∃ g, h = .cluster g ∧ (s.gangs.look g).isSome = true)
          ∨ (∃ tid th t, h = .priv tid th ∧ s.teams.look tid = some t ∧ (t.threads.look th).isSome = true) →
        ∀ i b, bs[i]? = some b → ((s.writeHome h a bs).space h).byte (a + i) = b)
      ∧ ∀ (g : Home) (x : Nat), (g ≠ h ∨ x < a ∨ a + bs.length ≤ x) → ((s.writeHome h a bs).space g).byte x = (s.space g).byte x)

/-- Every step keeps the canonical form of every memory level (addresses strictly rising, no entry equal to what an unlisted byte reads as),
whatever instruction, engine or host access it runs: equal memories stay equal data. Where the spec leaves a choice here, the model's is
in log entry 1. -/
def Obligations.EveryStepKeepsMemoryCanonical : Prop :=
  ∀ s t : State, s.memoryWf = true → step s = .next t → t.memoryWf = true

/-! ## The lead stream -/

/-- The scalar instructions of two or three source registers write the value of the table of R102 and go on, whatever their operands hold. The
scalar instructions with an immediate take its 30 bits, sign-extended, as their second operand (R49, R102). Their MOD bits and sources are
those of the table: a MOD value above it and a source that it does not name make the word ill-formed (R102). -/
def Obligations.ScalarInstructionsWriteTheirResult : Prop :=
  (∀ (f : FmtA) (s : State) (e : Env), s.LeadIssues f.msel f.pclass e →
     let a := e.t.sop f.za f.a.toNat
     let b := e.t.sop f.zb f.b.toNat
     let c := e.t.sop f.zc f.c.toNat
     let nat := f.md.toNat % 2 = 1
     ∀ p ∈ ([
       (.sadd f, (a + b) % 2 ^ 64),
       (.ssub f, (a + 2 ^ 64 - b) % 2 ^ 64),
       (.smul f, a * b % 2 ^ 64),
       (.smulh f, if nat then a * b / 2 ^ 64 else wrap (sext a 64 * sext b 64 / 2 ^ 64) 64),
       (.sdiv f, if b = 0 then 2 ^ 64 - 1 else if nat then a / b else wrap ((sext a 64).tdiv (sext b 64)) 64),
       (.srem f, if b = 0 then a else if nat then a % b else wrap ((sext a 64).tmod (sext b 64)) 64),
       (.sand f, a &&& b),
       (.sor f, a ||| b),
       (.sxor f, a ^^^ b),
       (.sshl f, a * 2 ^ (b % 64) % 2 ^ 64),
       (.sshr f, a / 2 ^ (b % 64)),
       (.ssar f, wrap (sext a 64 / 2 ^ (b % 64)) 64),
       (.smin f, if nat then min a b else if sext a 64 ≤ sext b 64 then a else b),
       (.smax f, if nat then max a b else if sext a 64 ≤ sext b 64 then b else a),
       (.scmp f, if (match f.md.toNat with
           | 0 => decide (a = b)
           | 1 => decide (a ≠ b)
           | 2 => decide (sext a 64 < sext b 64)
           | 3 => decide (sext a 64 ≤ sext b 64)
           | 4 => decide (a < b)
           | _ => decide (a ≤ b)) = true then 1 else 0),
       (.smov f, a),
       (.ssel f, if c ≠ 0 then a else b)] : List (Instr × Nat)),
       exec p.1 s = .next (s.leadWrote e f.dst.toNat p.2))
  ∧ (∀ (f : FmtI) (s : State) (e : Env), s.LeadIssues f.msel f.pclass e →
       let a := e.t.sreg f.a.toNat
       let b := wrap f.imm.toInt 64
       ∀ p ∈ ([
         (.saddImm f, (a + b) % 2 ^ 64),
         (.ssubImm f, (a + 2 ^ 64 - b) % 2 ^ 64),
         (.smulImm f, a * b % 2 ^ 64),
         (.sandImm f, a &&& b),
         (.sorImm f, a ||| b),
         (.sxorImm f, a ^^^ b),
         (.sshlImm f, a * 2 ^ (b % 64) % 2 ^ 64),
         (.sshrImm f, a / 2 ^ (b % 64)),
         (.ssarImm f, wrap (sext a 64 / 2 ^ (b % 64)) 64),
         (.sli f, b),
         (.slih f, (a * 2 ^ 30 + f.imm.toNat) % 2 ^ 64)] : List (Instr × Nat)),
         exec p.1 s = .next (s.leadWrote e f.dst.toNat p.2))
  ∧ ((∀ f : FmtA, ∀ p ∈ ([(.sadd f, 1, 2), (.ssub f, 1, 2), (.smul f, 1, 2), (.smulh f, 2, 2), (.sdiv f, 2, 2), (.srem f, 2, 2), (.sand f, 1, 2),
         (.sor f, 1, 2), (.sxor f, 1, 2), (.sshl f, 1, 2), (.sshr f, 1, 2), (.ssar f, 1, 2), (.smin f, 2, 2), (.smax f, 2, 2), (.scmp f, 6, 2),
         (.smov f, 1, 1), (.ssel f, 1, 3)] : List (Instr × Nat × Nat)),
       wellFormed true p.1 = true → f.md.toNat < p.2.1 ∧ (p.2.2 < 3 → f.c = 0 ∧ f.zc = false) ∧ (p.2.2 < 2 → f.b = 0 ∧ f.zb = false))
     ∧ (∀ f : FmtI, wellFormed true (.sli f) = true → f.a = 0))

/-- What a lead instruction that writes a register changes: that register, which it notes as written (R40), and where the lead thread stands
(R38, R96, R102). Every other register, every trap register, mask, queue, counter and thread of the team, every other team and every byte
stays. -/
def Obligations.LeadResultsChangeOneRegister : Prop :=
  ∀ (s : State) (msel : BitVec 4) (pclass : BitVec 2) (e : Env) (d v : Nat), s.LeadIssues msel pclass e →
    ∀ t, s.teams.look e.tid = some t → t.lead.regs.rising = true →
    SameBytes s (s.leadWrote e d v) ∧ ∃ l : Lead, s.TeamOnly (s.leadWrote e d v) e.tid { t with lead := l }
      ∧ l = { t.lead with regs := l.regs, wrote := t.lead.wrote.put d s.nextId, pc := l.pc, idx := l.idx, header := l.header, words := l.words,
                          stamp := l.stamp, run := l.run }
      ∧ (l.regs.get 0 d).toNat = v % 2 ^ 64 ∧ (∀ n, n ≠ d → l.regs.get 0 n = t.lead.regs.get 0 n)
      ∧ (e.last = false → l.pc = t.lead.pc ∧ l.idx = e.idx + 1 ∧ l.run = .running .issuing)
      ∧ (e.last = true → l.pc = e.pc + 8 * (e.count + 1) ∧ l.idx = 0 ∧ l.run = .running .unfetched)

/-- The transfers of the lead stream: SBR by its relation, SJMP always, SCALL with the address of the next clause in its register, SLOOP by
the decreased register, SRET to its register. A target that is not taken need not be a header (R105, R106). -/
def Obligations.LeadTransfersGoToTheirTargets : Prop :=
  ∀ (s : State) (e : Env),
    (∀ f : FmtB, s.LeadIssues f.msel f.pclass e → e.last = true →
      let target := wrap ((e.pc : Int) + 8 * f.target.toInt) 64
      let next := e.pc + 8 * (e.count + 1)
      let x := sext (e.t.sreg f.reg.toNat) 64
      let taken := match f.kind.toNat with
        | 0 => decide (x = 0)
        | 1 => decide (x ≠ 0)
        | 2 => decide (x < 0)
        | 3 => decide (0 ≤ x)
        | 4 => decide (0 < x)
        | 5 => decide (x ≤ 0)
        | _ => true
      let less := (e.t.sreg f.reg.toNat + 2 ^ 64 - 1) % 2 ^ 64
      let again := if f.kind.toNat = 0 then decide (sext less 64 ≠ 0) else decide (0 < sext less 64)
      (taken = false → exec (.sbr f) s = .next (s.leadJumped e next))
        ∧ (again = false → exec (.sloop f) s = .next ((s.setS e.tid f.reg.toNat less).leadJumped e next))
        ∧ (s.GoodTarget e true target →
          (taken = true → exec (.sbr f) s = .next (s.leadJumped e target))
            ∧ exec (.sjmp f) s = .next (s.leadJumped e target)
            ∧ exec (.scall f) s = .next ((s.setS e.tid f.reg.toNat next).leadJumped e target)
            ∧ (again = true → exec (.sloop f) s = .next ((s.setS e.tid f.reg.toNat less).leadJumped e target))))
    ∧ (∀ f : FmtA, s.LeadIssues f.msel f.pclass e → e.last = true → s.GoodTarget e true (e.t.sop f.za f.a.toNat) →
      exec (.sret f) s = .next (s.leadJumped e (e.t.sop f.za f.a.toNat)))

/-- A lead push goes to the end of its queue, 64 entries for the decision queue and 256 for aq0 to aq3; at a full queue the lead thread
suspends before the push, with nothing pushed. AQSTEP then adds its immediate to the register it pushed. QSTAT reads the occupancies
(R107, R110, R112, R113). What a push appends: an entry with the value modulo 2^64, dated with the clock of the lead thread's core and
naming the accesses of the lead thread that it releases (R109), behind the entries that stay; nothing retires while some live thread has
not passed the queue's first entry (R107, R108). -/
def Obligations.PushesAppendOrSuspend : Prop :=
  (∀ (s : State) (e : Env),
     let full := fun q => (if q = 0 then 64 else 256) ≤ e.t.occupancy q
     let stuck := fun (q v : Nat) (reg : Option (Nat × Nat)) =>
       (s.updLead e.tid (fun l => { l with stall := 0 })).block e (.queueFull q v reg)
     (∀ f : FmtA, s.LeadIssues f.msel f.pclass e →
       let v := e.t.sop f.za f.a.toNat
       let q := 1 + f.dst.toNat
       exec (.dqpush f) s = .next (if full 0 then stuck 0 v none else (s.pushTo e.tid 0 v).advance e .issuing)
         ∧ exec (.aqpush f) s = .next (if full q then stuck q v none else (s.pushTo e.tid q v).advance e .issuing)
         ∧ exec (.qstat f) s = .next (s.leadWrote e f.dst.toNat (e.t.occupancy 0 + e.t.occupancy 1 * 2 ^ 16
           + e.t.occupancy 2 * 2 ^ 25 + e.t.occupancy 3 * 2 ^ 34 + e.t.occupancy 4 * 2 ^ 43)))
     ∧ (∀ f : FmtI, s.LeadIssues f.msel f.pclass e →
       let v := e.t.sreg f.a.toNat
       let q := 1 + f.dst.toNat
       let v' := (v + wrap f.imm.toInt 64) % 2 ^ 64
       exec (.aqstep f) s = .next (if full q then stuck q v (some (f.a.toNat, v'))
         else ((s.pushTo e.tid q v).setS e.tid f.a.toNat v').advance e .issuing)))
  ∧ (∀ (s : State) (tid q v th : Nat) (t : Team) (x : Thread), s.teams.look tid = some t → t.threads.look th = some x →
       x.live = true → x.posOf q = (t.queue q).base →
       ∃ t' : Team, s.pushTo tid q v = s.updTeam tid (fun _ => t') ∧ t' = { t with queues := t'.queues }
         ∧ (t'.queue q).base = (t.queue q).base ∧ (∀ k, k ≠ q → t'.queue k = t.queue k)
         ∧ (t'.queue q).ents = (t.queue q).ents ++ [{ val := BitVec.ofNat 64 v, clock := (s.core t.core).clock, after := s.releasedBy tid t }])

/-- SRD reads a special register of the team, its context or its core into a lead register; SWR hands a lead register to one. A register reads
as its fields at the places of its table; a field that only system software writes and a register that reads only keep their values, trap
registers take a write in handler mode only, and a write of 1 to CLR clears what its table says (R80, R81, R86, R99, R100, R121, R241,
R282, R309, R346, R350, R391). -/
def Obligations.SpecialRegistersAreReadAndWritten : Prop :=
  ∀ (f : FmtI) (s : State) (e : Env), s.LeadIssues f.msel f.pclass e →
    let n := f.imm.toNat
    let v := e.t.sreg f.a.toNat
    let wrote := fun (t : State) => exec (.swr f) s = .next (t.advance e .issuing)
    let c := e.t.ctx
    let l := e.t.lead
    let k := s.ctx c
    let r := s.core e.core
    (∀ p ∈ ([
      (0x000, e.t.number + e.t.vdie * 2 ^ 32 + e.t.core % 20 * 2 ^ 48 + (if e.t.paired then 2 ^ 53 else 0) + e.t.slot * 2 ^ 54),
      (0x001, (if l.hmode then 1 else 0) + e.t.liveCount * 2 ^ 8),
      (0x002, satNat l.timer.remain 0x1FFFFFFF + (if l.timer.cut then 2 ^ 29 else 0) + (if l.timer.fired then 2 ^ 30 else 0)
        + (if l.timer.armed then 2 ^ 31 else 0)),
      (0x100, k.trapBase), (0x101, k.elogBase), (0x102, k.elogHead), (0x103, k.elogTail),
      (0x104, k.elogLost + k.elogThresh * 2 ^ 17 + (if k.elogMsien then 2 ^ 19 else 0)),
      (0x105, k.svcBase), (0x106, k.svcHead), (0x107, k.svcTail), (0x108, k.irqCount), (0x10A, if k.mixtrap then 1 else 0),
      (0x10B, r.reread + r.polled * 2 ^ 16),
      (0x110, l.trap.code + l.trap.kind * 2 ^ 8 + l.trap.pclass * 2 ^ 11 + l.trap.index * 2 ^ 13 + l.trap.cls * 2 ^ 18
        + (if l.trap.leadf then 2 ^ 21 else 0) + (if l.queue = [] then 0 else 2 ^ 22)),
      (0x111, l.trap.clause), (0x112, l.trap.homewarp + l.trap.quarter * 2 ^ 16 + (if l.trap.partner then 2 ^ 18 else 0)),
      (0x113, l.trap.active), (0x114, l.trap.lanes), (0x115, l.trap.addr), (0x116, l.trap.info),
      (0x117, if l.trap.elogNone then 2 ^ 32 else l.trap.elog), (0x118, l.resume.toNat), (0x119, l.retPc), (0x11A, l.retIdx),
      (0x130, e.t.kick.kseal + e.t.kick.rseal * 2 ^ 8 + e.t.kick.code * 2 ^ 16 + e.t.kick.cause * 2 ^ 24 + e.t.kick.count * 2 ^ 32),
      (0x131, e.t.kick.addr), (0x140, r.budget + r.next * 2 ^ 16 + r.used * 2 ^ 32), (0x141, r.stall), (0x150, k.chipGranules),
      (0x151, k.snapCopied + k.snapRestored * 2 ^ 32), (0x160, k.quantum + k.target * 2 ^ 16 + (if k.schedEn then 2 ^ 24 else 0)),
      (0x161, k.saves + k.moves * 2 ^ 16 + k.kills * 2 ^ 32)] : List (Nat × Nat)),
      n = p.1 → exec (.srd f) s = .next (s.leadWrote e f.dst.toNat p.2))
      ∧ (0x120 ≤ n ∧ n ≤ 0x127 → exec (.srd f) s = .next (s.leadWrote e f.dst.toNat (l.saves.get 0 (n - 0x120)).toNat))
      ∧ (0x200 ≤ n ∧ n ≤ 0x2FF → exec (.srd f) s = .next (s.leadWrote e f.dst.toNat (k.evt.get 0 (n - 0x200)).toNat))
      ∧ exec (.srd f) s = .next (s.leadWrote e f.dst.toNat (s.srd e.t e.core n))
      ∧ (n = 0x118 → e.t.lead.hmode = true → wrote (s.updLead e.tid (fun l => { l with resume := BitVec.ofNat 64 (v / 8 * 8) })))
      ∧ (n = 0x118 ∨ (0x120 ≤ n ∧ n ≤ 0x127) → e.t.lead.hmode = false → wrote s)
      ∧ (0x120 ≤ n ∧ n ≤ 0x127 → e.t.lead.hmode = true →
          wrote (s.updLead e.tid (fun l => { l with saves := l.saves.set 0 (n - 0x120) (BitVec.ofNat 64 v) })))
      ∧ (n ≤ 2 ∨ (0x110 ≤ n ∧ n ≤ 0x117) ∨ n = 0x119 ∨ n = 0x11A ∨ n = 0x131 ∨ n = 0x132 ∨ n = 0x140
          ∨ n = 0x100 ∨ n = 0x102 ∨ (0x105 ≤ n ∧ n ≤ 0x108) ∨ n = 0x10A ∨ n = 0x150 ∨ n = 0x160 ∨ (0x200 ≤ n ∧ n ≤ 0x2FF) → wrote s)
      ∧ (n = 0x101 → wrote (s.updCtx e.t.ctx (fun k => { k with elogBase := v / 2 ^ 18 * 2 ^ 18 + v % 2 })))
      ∧ (n = 0x103 → wrote (if 4096 < ((s.ctx e.t.ctx).elogHead + 2 ^ 32 - v % 2 ^ 32) % 2 ^ 32 then s
          else s.updCtx e.t.ctx (fun k => { k with elogTail := v % 2 ^ 32 })))
      ∧ (n = 0x104 → wrote (s.updCtx c (fun k => { k with
          elogLost := if v.testBit 16 then 0 else k.elogLost, elogThresh := v / 2 ^ 17 % 4, elogMsien := v.testBit 19 })))
      ∧ (n = 0x10B → wrote (if v.testBit 32 then s.updCore e.core (fun r => { r with reread := 0, polled := 0 }) else s))
      ∧ (n = 0x130 → wrote (if v.testBit 48 then s.updTeam e.tid (fun t => { t with kick := { addr := t.kick.addr } }) else s))
      ∧ (n = 0x141 → wrote (if v.testBit 48 then s.updCore e.core (fun r => { r with stall := 0 }) else s))
      ∧ (n = 0x151 → wrote (if v.testBit 48 then s.updCtx c (fun k => { k with snapCopied := 0, snapRestored := 0 }) else s))
      ∧ (n = 0x161 → wrote (if v.testBit 48 then s.updCtx c (fun k => { k with saves := 0, moves := 0, kills := 0 }) else s))

/-! ## The lane stream -/

/-- The integer instructions of R154: the exact integer of the table, from the operands read signed or natural, brought to the operand width
modulo 2^width, or with SAT to the range of the type. The bitwise, shift, count and select instructions of R154, ICMP and MOV, on patterns
of the operand width (R171). -/
def Obligations.IntegerAndBitInstructionsWriteTheirResult : Prop :=
  (∀ (f : FmtA) (s : State) (e : Env), s.LaneIssues f.msel f.pclass e →
     let wide := f.md.toNat % 2 = 1
     let nat := f.md.toNat / 2 % 2 = 1
     let w := if wide then 64 else 32
     let n := if wide then 2 else 1
     let val := fun (t : Thread) (z : Bool) (r : Nat) =>
       if z then 0 else if wide then t.vreg r + 2 ^ 32 * t.vreg (r + 1) else t.vreg r
     let int := fun (t : Thread) (z : Bool) (r : Nat) => if nat then ((val t z r : Nat) : Int) else sext (val t z r) w
     let a := fun t => int t f.za f.a.toNat
     let b := fun t => int t f.zb f.b.toNat
     let c := fun t => int t f.zc f.c.toNat
     let low : Int := if nat then 0 else -(2 ^ (w - 1))
     let high : Int := if nat then 2 ^ w - 1 else 2 ^ (w - 1) - 1
     let fit := fun (x : Int) => wrap (if f.md.toNat / 4 % 2 = 1 then satInt x low high else x) w
     let regs := fun (x : Nat) => if wide then [(f.dst.toNat, x % 2 ^ 32), (f.dst.toNat + 1, x / 2 ^ 32 % 2 ^ 32)] else [(f.dst.toNat, x)]
     ∀ p ∈ ([
       (.iadd f, 1, 0, fun t => a t + b t),
       (.isub f, 1, 0, fun t => a t - b t),
       (.imul f, 1, 0, fun t => a t * b t),
       (.imulh f, 1, 0, fun t => a t * b t / 2 ^ w),
       (.imad f, 1, 1, fun t => a t * b t + c t),
       (.imin f, 1, 0, fun t => if a t ≤ b t then a t else b t),
       (.imax f, 1, 0, fun t => if a t ≤ b t then b t else a t),
       (.iabs f, 0, 0, fun t => if a t < 0 then -a t else a t),
       (.ineg f, 0, 0, fun t => -a t)] : List (Instr × Nat × Nat × (Thread → Int))),
       e.regsOk (regsA f n (p.2.1 * n) (p.2.2.1 * n) n) = true →
         exec p.1 s = .next (s.laneWrote e (fun _ t => regs (fit (p.2.2.2 t)))))
  ∧ (∀ (f : FmtA) (s : State) (e : Env), s.LaneIssues f.msel f.pclass e →
       let wide := f.md.toNat % 2 = 1
       let nat := f.md.toNat / 2 % 2 = 1
       let w := if wide then 64 else 32
       let n := if wide then 2 else 1
       let val := fun (t : Thread) (z : Bool) (r : Nat) =>
         if z then 0 else if wide then t.vreg r + 2 ^ 32 * t.vreg (r + 1) else t.vreg r
       let a := fun t => val t f.za f.a.toNat
       let b := fun t => val t f.zb f.b.toNat
       let k := fun t => (if f.zb then 0 else t.vreg f.b.toNat) % w
       let int := fun (x : Nat) => if nat then (x : Int) else sext x w
       let pair := fun (x : Nat) => if wide then [(f.dst.toNat, x % 2 ^ 32), (f.dst.toNat + 1, x / 2 ^ 32 % 2 ^ 32)] else [(f.dst.toNat, x)]
       let one := fun (x : Nat) => [(f.dst.toNat, x)]
       ∀ p ∈ ([
         (.iand f, regsA f n n 0 n, fun t => pair (a t &&& b t)),
         (.ior f, regsA f n n 0 n, fun t => pair (a t ||| b t)),
         (.ixor f, regsA f n n 0 n, fun t => pair (a t ^^^ b t)),
         (.inot f, regsA f n 0 0 n, fun t => pair (2 ^ w - 1 - a t)),
         (.mov f, regsA f n 0 0 n, fun t => pair (a t)),
         (.ibrev f, regsA f n 0 0 n, fun t => pair (reverseBits (a t) w)),
         (.ishl f, regsA f n 1 0 n, fun t => pair (a t * 2 ^ k t % 2 ^ w)),
         (.ishr f, regsA f n 1 0 n, fun t => pair (a t / 2 ^ k t)),
         (.isar f, regsA f n 1 0 n, fun t => pair (wrap (sext (a t) w / 2 ^ k t) w)),
         (.ipopc f, regsA f n 0 0 1, fun t => one (popcount (a t) w)),
         (.iclz f, regsA f n 0 0 1, fun t => one (leadingZeros w (a t))),
         (.icmp f, regsA f n n 0 1, fun t => one (if (match f.md.toNat / 8 with
             | 0 => decide (int (a t) = int (b t))
             | 1 => decide (int (a t) ≠ int (b t))
             | 2 => decide (int (a t) < int (b t))
             | 3 => decide (int (a t) ≤ int (b t))
             | 4 => decide (int (b t) < int (a t))
             | _ => decide (int (b t) ≤ int (a t))) = true then 1 else 0)),
         (.isel f, regsA f n n 1 n, fun t => pair (if (if f.zc then 0 else t.vreg f.c.toNat) ≠ 0 then a t else b t))]
           : List (Instr × List (Nat × Nat) × (Thread → List (Nat × Nat)))),
         e.regsOk p.2.1 = true → exec p.1 s = .next (s.laneWrote e (fun _ t => p.2.2 t)))

/-- The LANE instructions with an immediate, which is sext(IMM, 30) taken as a 32-bit value: the MOD = 0 variants (R149), MOVI and MOVH
(R171), VRD (R172) and BPERM with a selector in the word (R159). The integer instructions on three words: funnel shifts, bit fields,
addition with carry, the dot product of bytes, byte permutation (R156, R157, R159), and RNG, whose four words depend on its key and its
counter alone (R170). -/
def Obligations.ImmediateAndWordInstructionsWriteTheirResult : Prop :=
  (∀ (f : FmtI) (s : State) (e : Env), s.LaneIssues f.msel f.pclass e →
     let i := f.imm.toInt
     let u := wrap i 32
     let a := fun (t : Thread) => t.vreg f.a.toNat
     let ad := [(f.a.toNat, 1), (f.dst.toNat, 1)]
     ∀ p ∈ ([
       (.iaddImm f, ad, fun _ t => wrap (sext (a t) 32 + i) 32),
       (.isubImm f, ad, fun _ t => wrap (sext (a t) 32 - i) 32),
       (.imulImm f, ad, fun _ t => wrap (sext (a t) 32 * i) 32),
       (.iandImm f, ad, fun _ t => a t &&& u),
       (.iorImm f, ad, fun _ t => a t ||| u),
       (.ixorImm f, ad, fun _ t => a t ^^^ u),
       (.ishlImm f, ad, fun _ t => a t * 2 ^ (f.imm.toNat % 32) % 2 ^ 32),
       (.ishrImm f, ad, fun _ t => a t / 2 ^ (f.imm.toNat % 32)),
       (.isarImm f, ad, fun _ t => wrap (sext (a t) 32 / 2 ^ (f.imm.toNat % 32)) 32),
       (.movi f, [(f.dst.toNat, 1)], fun _ _ => u),
       (.movh f, ad, fun _ t => f.imm.toNat % 2 ^ 16 * 2 ^ 16 + a t % 2 ^ 16),
       (.bpermImm f, ad, fun _ t => bytePerm f.imm.toNat (a t) (t.vreg f.dst.toNat)),
       (.vrd f, [(f.dst.toNat, 1)], fun th _ => match f.imm.toNat with
         | 0 => th % e.t.width
         | 1 => (e.all.filter (fun x => decide (x % e.t.width < th % e.t.width))).length
         | 2 => th / e.t.width
         | 3 => th
         | 4 => e.w.quarter % 4
         | 5 => e.t.width
         | 6 => e.t.size
         | 7 => e.t.number
         | 8 => e.t.vdie
         | 9 => if 4 ≤ e.w.quarter then 1 else 0
         | _ => e.all.length)] : List (Instr × List (Nat × Nat) × (Nat → Thread → Nat))),
       e.regsOk p.2.1 = true → exec p.1 s = .next (s.laneWrote e (fun th t => [(f.dst.toNat, p.2.2 th t)])))
  ∧ (∀ (f : FmtA) (s : State) (e : Env), s.LaneIssues f.msel f.pclass e →
       let a := fun (t : Thread) => if f.za then 0 else t.vreg f.a.toNat
       let b := fun (t : Thread) => if f.zb then 0 else t.vreg f.b.toNat
       let c := fun (t : Thread) => if f.zc then 0 else t.vreg f.c.toNat
       let sub := f.md.toNat / 8
       let nat := decide (f.md.toNat / 2 % 2 = 1)
       let sat := decide (f.md.toNat / 4 % 2 = 1)
       let borrow := fun t => if a t < b t + c t % 2 then 1 else 0
       let hi := fun (z : Bool) (t : Thread) (r : Nat) => if z then 0 else t.vreg (r + 1)
       ∀ p ∈ ([
         (.ifunl f, regsA f 1 1 1 1, fun t => [funnel sub (a t) (b t) (c t)]),
         (.ibfx f, regsA f 1 1 1 1, fun t => [bitExtract nat (a t) (b t) (c t)]),
         (.ibfi f, regsA f 1 1 1 1, fun t => [bitInsert (a t) (b t) (c t)]),
         (.iaddc f, regsA f 1 1 1 2, fun t => if sub % 2 = 1 then [(a t + 2 ^ 33 - b t - c t % 2) % 2 ^ 32, borrow t]
           else [(a t + b t + c t % 2) % 2 ^ 32, if 2 ^ 32 ≤ a t + b t + c t % 2 then 1 else 0]),
         (.idot4 f, regsA f 1 1 1 1, fun t => [dot4 sub sat (a t) (b t) (c t)]),
         (.bperm f, regsA f 1 1 1 1, fun t => [bytePerm (b t) (a t) (c t)]),
         (.rng f, regsA f 2 2 0 4, fun t => lace (a t) (hi f.za t f.a.toNat) (b t) (hi f.zb t f.b.toNat))]
           : List (Instr × List (Nat × Nat) × (Thread → List Nat))),
         e.regsOk p.2.1 = true →
           exec p.1 s = .next (s.laneWrote e (fun _ t => (p.2.2 t).zipIdx.map (fun q => (f.dst.toNat + q.2, q.1)))))

/-- The floating-point instructions write the value of R161, R162 and R164, rounded as RM says, for every input. CVT, CVTSC, PACK and UNPK
write the converted value, for every value of their operands (R166 to R169). Where the spec leaves a choice here, the model's is in log
entries 10 and 150. -/
def Obligations.FloatInstructionsWriteTheirResult : Prop :=
  (∀ (f : FmtA) (s : State) (e : Env), s.LaneIssues f.msel f.pclass e →
     let fmt := match f.md.toNat % 4 with
       | 1 => f16
       | 2 => b16
       | _ => f32
     let rm := f.md.toNat / 4 % 8
     let a := fun (t : Thread) => if f.za then 0 else t.vreg f.a.toNat
     let b := fun (t : Thread) => if f.zb then 0 else t.vreg f.b.toNat
     let c := fun (t : Thread) => if f.zc then 0 else t.vreg f.c.toNat
     let unit := FVal.fin false 1 0
     ∀ p ∈ ([
       (.fadd f, 1, 1, fun t => fmt.round rm false (c t) (exactSum rm [fmt.val (a t), fmt.val (b t)])),
       (.fsub f, 1, 1, fun t => fmt.round rm false (c t) (exactSum rm [fmt.val (a t), (fmt.val (b t)).neg])),
       (.fmul f, 1, 1, fun t => fmt.round rm false (c t) ((fmt.val (a t)).mul (fmt.val (b t)))),
       (.ffma f, 1, 1, fun t => fmt.round rm false 0 (exactSum rm [(fmt.val (a t)).mul (fmt.val (b t)), fmt.val (c t)])),
       (.fdot2 f, 1, 1, fun t => f32.round rm false 0 (exactSum rm [(fmt.val (a t)).mul (fmt.val (b t)),
         (fmt.val (a t / 2 ^ 16)).mul (fmt.val (b t / 2 ^ 16)), f32.val (c t)])),
       (.fmin f, 1, 0, fun t => fmt.minMax false (a t) (b t)),
       (.fmax f, 1, 0, fun t => fmt.minMax true (a t) (b t)),
       (.fabs f, 0, 0, fun t => if (fmt.val (a t)).isNan then fmt.nan else a t % 2 ^ fmt.top),
       (.fneg f, 0, 0, fun t => if (fmt.val (a t)).isNan then fmt.nan
         else if bit (a t) fmt.top then a t % 2 ^ fmt.top else 2 ^ fmt.top + a t % 2 ^ fmt.top),
       (.fcmp f, 1, 0, fun t => if fcmp rm (fmt.val (a t)) (fmt.val (b t)) then 1 else 0),
       (.fclass f, 0, 0, fun t => 2 ^ fmt.classBit (a t)),
       (.fdiv f, 1, 0, fun t => fmt.div rm (fmt.val (a t)) (fmt.val (b t))),
       (.frcp f, 0, 0, fun t => fmt.div rm unit (fmt.val (a t))),
       (.frsq f, 0, 0, fun t => fmt.rsqrt rm (fmt.val (a t))),
       (.fsqrt f, 0, 0, fun t => fmt.sqrt rm (fmt.val (a t))),
       (.fexp2 f, 0, 0, fun t => fmt.exp2 rm (a t)),
       (.flog2 f, 0, 0, fun t => fmt.log2 rm (a t)),
       (.fsin f, 0, 0, fun t => fmt.sinPi rm (a t)),
       (.fcos f, 0, 0, fun t => fmt.cosPi rm (a t)),
       (.ftanh f, 0, 0, fun t => fmt.tanh rm (a t))] : List (Instr × Nat × Nat × (Thread → Nat))),
       e.regsOk (regsA f 1 p.2.1 p.2.2.1 1) = true →
         exec p.1 s = .next (s.laneWrote e (fun _ t => [(f.dst.toNat, p.2.2.2 t)])))
  ∧ (∀ (f : FmtA) (s : State) (e : Env), s.LaneIssues f.msel f.pclass e →
       let md := f.md.toNat
       let src := f.c.toNat % 16
       let dst := md % 16
       let wide := fun (n : Nat) => decide (n = 3 ∨ n = 7)
       let rs := decide (md / 16 = 4)
       let a := fun (t : Thread) => if f.za then 0 else t.vreg f.a.toNat
       let b := fun (t : Thread) => if f.zb then 0 else t.vreg f.b.toNat
       let c := fun (t : Thread) => if f.zc then 0 else t.vreg f.c.toNat
       let x := fun (t : Thread) => if f.za then 0 else if wide src then t.vreg f.a.toNat + 2 ^ 32 * t.vreg (f.a.toNat + 1) else t.vreg f.a.toNat
       let rnd := fun (t : Thread) => if rs then t.vreg f.b.toNat else 0
       let size := 4 * 2 ^ (md % 4)
       let index := md / 4 % 8
       let elem := fun t => a t / 2 ^ (index * size) % 2 ^ size
       ∀ p ∈ ([
         (.cvt f, [(f.a.toNat, if f.za then 0 else if wide src then 2 else 1), (f.b.toNat, if rs then 1 else 0),
             (f.dst.toNat, if wide dst then 2 else 1)],
           fun t =>
             let y := convert src dst (md / 16) (bit f.c.toNat 4) (rnd t) (x t)
             if wide dst then [(f.dst.toNat, y % 2 ^ 32), (f.dst.toNat + 1, y / 2 ^ 32 % 2 ^ 32)] else [(f.dst.toNat, y)]),
         (.cvtsc f, regsA f 1 1 (if rs then 1 else 0) 1, fun t => [(f.dst.toNat, convertScaled md (b t) (c t) (a t))]),
         (.pack f, regsA f 1 1 0 1, fun t =>
           [(f.dst.toNat, b t - b t / 2 ^ (index * size) % 2 ^ size * 2 ^ (index * size) + a t % 2 ^ size * 2 ^ (index * size))]),
         (.unpk f, regsA f 1 0 0 1, fun t => [(f.dst.toNat, if md / 32 % 2 = 1 then wrap (sext (elem t) size) 32 else elem t)])]
           : List (Instr × List (Nat × Nat) × (Thread → List (Nat × Nat)))),
         e.regsOk p.2.1 = true → exec p.1 s = .next (s.laneWrote e (fun _ t => p.2.2 t)))

/-- What a LANE instruction changes: the registers that its active threads write, which they note as written (R40), and where its threads
stand. A thread that is not active keeps every register; no thread's meeting, queue positions or private memory, no mask, queue, counter
or lead register, no other team and no byte of memory changes (R135, R151). A write of mask bits changes the bits of the listed lanes in
the mask of that home warp and leaves every other bit below the width, every other mask and every other home warp as they were (R176,
R195). -/
def Obligations.LaneResultsChangeOnlyDestinations : Prop :=
  (∀ (s : State) (msel : BitVec 4) (pclass : BitVec 2) (e : Env) (w : Nat → Thread → List (Nat × Nat)),
     s.LaneIssues msel pclass e → ∀ t₀, s.teams.look e.tid = some t₀ →
     (∀ th ∈ e.all, (t₀.threads.look th).isSome = true) → e.all.Nodup →
     let x := fun th => t₀.thread th
     let y := fun th => e.t.thread th
     ∃ t : Team, s.TeamOnly (s.laneWrote e w) e.tid t ∧ t = { t₀ with threads := t.threads, formed := t.formed }
       ∧ SameBytes s (s.laneWrote e w)
       ∧ (∀ th, (t.thread th).meet = (x th).meet ∧ (t.thread th).done = (x th).done ∧ (t.thread th).pos = (x th).pos
           ∧ (t.thread th).priv = (x th).priv)
       ∧ (∀ th, th ∉ e.act → (t.thread th).regs = (x th).regs)
       ∧ (∀ th ∈ e.act, ∀ r, r ∉ (w th (y th)).map (·.1) → (t.thread th).vreg r = (x th).vreg r)
       ∧ (∀ th ∈ e.act, (x th).regs.rising = true → ((w th (y th)).map (·.1)).Nodup →
           ∀ p ∈ w th (y th), (t.thread th).vreg p.1 = p.2 % 2 ^ 32))
  ∧ (∀ (s : State) (e : Env) (k hw lane : Nat) (val : Nat → Bool) (t : Team) (h : HomeWarp), s.teams.look e.tid = some t → e.t = s.seen e.tid t →
       t.warps.look hw = some h → h.masks.rising = true → t.warps.rising = true → lane < t.width → t.width ≤ 64 → e.act.Nodup →
       (∀ th ∈ e.act, (t.warps.look (th / t.width)).isSome = true) →
       ∃ t' h', (e.writeBits s k val).teams.look e.tid = some t' ∧ t' = { t with warps := t'.warps } ∧ t'.warps.look hw = some h'
         ∧ h' = { h with masks := h'.masks } ∧ (∀ j, j ≠ k → h'.mask j = h.mask j)
         ∧ (∀ th ∈ e.act, th / t.width = hw → th % t.width = lane → bit (h'.mask k) lane = val th)
         ∧ ((∀ th ∈ e.act, th / t.width = hw → th % t.width ≠ lane) → bit (h'.mask k) lane = bit (h.mask k) lane))

/-- An instruction of the lane stream alone that the lead thread issues, one of the lead stream alone that a formed warp issues, a register at
or above the declared count in the lane stream, and a transfer, EXIT, ERET or HALT that is not the last of its clause take a precise trap
with code 0x01, which every thread of the formed warp meets; so do ERET outside handler mode and TRAP and HALT of the lead thread in it.
Taking a precise trap changes no register, meeting register or program counter of any thread and no lead register (R41, R71, R85, R87,
R132). A transfer that some thread takes, and MEET, whose target is not aligned or is no clause header of the stream, take a precise trap
with code 0x03, which names the lanes whose target fails; no entry of a queue is popped. As at every precise trap, no thread's program
counter, no register, link pair or meeting register changes (R46, R106, R191, R192, R193). Where the copies of an instruction differ in an
active lane, one of protection class DUP takes a precise trap with code 0x05 and one of class TRI whose copies all differ there a precise
trap with code 0x06, which names the lanes, before any effect. With TRI, where two copies agree everywhere, one record of type corrected
that names the lanes is written, and the instruction has the effect that it has without the difference (R68, R69). Where the spec leaves a
choice here, the model's is in log entries 8, 12, 128 and 168. -/
def Obligations.IllegalIssueTraps : Prop :=
  (∀ (s : State) (e : Env),
     let trapped := fun (engine : Nat) (i : Instr) =>
       exec i s = .next (s.takeTrap e 0 engine e.idx { code := 0x01, lanes := if e.fid = none then 0 else e.t.laneMask e.all })
     let beyond := fun (l : List (Nat × Nat)) => ∃ r ∈ l, r.2 ≠ 0 ∧ e.t.nregs < r.1 + r.2
     let data := fun (n : Nat) => if n ≤ 2 then 1 else 2 ^ (n - 2)
     let base := fun (space r : Nat) => (r, if space = 0 then 2 else 1)
     (∀ f : FmtA, s.Issues f.msel f.pclass e →
       let wide := if f.md.toNat % 2 = 1 then 2 else 1
       let w1 := if f.md.toNat / 2 % 2 = 1 then 2 else 1
       let w2 := if f.md.toNat / 4 % 2 = 1 then 2 else 1
       let w3 := if f.md.toNat / 8 % 4 = 1 then 2 else 1
       let src := f.c.toNat % 16
       let dst := f.md.toNat % 16
       let pair := fun (n : Nat) => if n = 3 ∨ n = 7 then 2 else 1
       let rs := if f.md.toNat / 16 = 4 then 1 else 0
       let a := fun (n : Nat) => (f.a.toNat, if f.za then 0 else n)
       let b := fun (n : Nat) => (f.b.toNat, if f.zb then 0 else n)
       let lane : List (Instr × Nat × List (Nat × Nat)) :=
         ([.iadd f, .isub f, .imul f, .imulh f, .imin f, .imax f, .iand f, .ior f, .ixor f] : List Instr).map (fun i => (i, 1, regsA f wide wide 0 wide))
         ++ [(.imad f, 1, regsA f wide wide wide wide), (.iabs f, 1, regsA f wide 0 0 wide), (.ineg f, 1, regsA f wide 0 0 wide),
           (.inot f, 1, regsA f wide 0 0 wide), (.mov f, 1, regsA f wide 0 0 wide), (.ibrev f, 1, regsA f wide 0 0 wide),
           (.ishl f, 1, regsA f wide 1 0 wide), (.ishr f, 1, regsA f wide 1 0 wide), (.isar f, 1, regsA f wide 1 0 wide),
           (.ipopc f, 1, regsA f wide 0 0 1), (.iclz f, 1, regsA f wide 0 0 1), (.icmp f, 1, regsA f wide wide 0 1),
           (.isel f, 1, regsA f wide wide 1 wide), (.iaddc f, 1, regsA f 1 1 1 2), (.rng f, 1, regsA f 2 2 0 4),
           (.cvt f, 1, [(f.a.toNat, if f.za then 0 else pair src), (f.b.toNat, rs), (f.dst.toNat, pair dst)]),
           (.cvtsc f, 1, regsA f 1 1 rs 1), (.pack f, 1, regsA f 1 1 0 1), (.unpk f, 1, regsA f 1 0 0 1)]
         ++ ([.ifunl f, .ibfx f, .ibfi f, .idot4 f, .bperm f, .fadd f, .fsub f, .fmul f, .ffma f, .fdot2 f] : List Instr).map (fun i => (i, 1, regsA f 1 1 1 1))
         ++ ([.fmin f, .fmax f, .fcmp f, .fdiv f] : List Instr).map (fun i => (i, 1, regsA f 1 1 0 1))
         ++ ([.fabs f, .fneg f, .fclass f, .frcp f, .frsq f, .fsqrt f, .fexp2 f, .flog2 f, .fsin f, .fcos f, .ftanh f] : List Instr).map
           (fun i => (i, 1, regsA f 1 0 0 1))
         ++ [(.ret f, 2, [a 2]), (.jmpr f, 2, [a 1]), (.exit f, 2, []), (.leave f, 2, [(f.dst.toNat, 2)]), (.waitm f, 2, []), (.maskop f, 2, []),
           (.maskmv f, 2, match f.md.toNat % 4 with
             | 0 => [(f.dst.toNat, 1)]
             | 1 => [a 1]
             | 2 => [(f.dst.toNat, 2)]
             | _ => [a 2]),
           (.maskpc f, 2, [(f.dst.toNat, 2)]), (.vote f, 2, regsA f 1 0 0 (if f.md.toNat % 8 = 4 then 2 else 1)), (.shfl f, 2, regsA f w2 1 0 w2),
           (.bcast f, 2, regsA f w1 (if f.md.toNat % 2 = 1 then 0 else 1) 0 w1), (.redx f, 2, regsA f w3 0 0 w3), (.scanx f, 2, regsA f w3 0 0 w3),
           (.matchx f, 2, regsA f wide 0 0 2), (.sample f, 2, regsA f 1 1 0 1), (.dqpop f, 2, [(f.dst.toNat, wide)]),
           (.aqpop f, 2, [(f.dst.toNat, wide)]), (.mzero f, 4, [(f.dst.toNat, shapeN f.md.toNat)]), (.mstat f, 4, [(f.dst.toNat, 2)])]
       let both : List (Instr × Nat × List (Nat × Nat)) := [
         (.mpin f, 4, [(f.a.toNat, 2), (f.b.toNat, 1), (f.dst.toNat, 1)]), (.munpin f, 4, [(f.a.toNat, 2), (f.b.toNat, 1), (f.dst.toNat, 1)]),
         (.spawn f, 6, [a 2, b 1, (f.dst.toNat, 1)]), (.step f, 6, [(f.dst.toNat, 2)]), (.dieq f, 6, [a 1, (f.dst.toNat, 1)]),
         (.hops f, 6, [a 1, b 1, (f.dst.toNat, 1)]), (.svc f, 7, [a 2, b 2, (f.c.toNat, if f.zc then 0 else 8)]), (.irq f, 7, [a 1]),
         (.timrd f, 7, [(f.dst.toNat, 2)]), (.timarm f, 7, [a 1, (f.dst.toNat, 1)])]
       let lead : List Instr := [.sadd f, .ssub f, .smul f, .smulh f, .sdiv f, .srem f, .sand f, .sor f, .sxor f, .sshl f, .sshr f, .ssar f, .smin f,
         .smax f, .scmp f, .smov f, .ssel f, .sret f, .dqpush f, .aqpush f, .qstat f]
       (∀ p ∈ lane, e.fid = none → trapped p.2.1 p.1)
       ∧ (∀ p ∈ lane ++ both, e.fid.isSome = true → beyond p.2.2 → trapped p.2.1 p.1)
       ∧ (e.fid.isSome = true → (∀ i ∈ lead, trapped 0 i) ∧ trapped 7 (.eret f))
       ∧ (e.last = false → trapped 2 (.ret f) ∧ trapped 2 (.jmpr f) ∧ trapped 2 (.exit f) ∧ trapped 0 (.sret f) ∧ trapped 7 (.eret f) ∧ trapped 7 (.halt f))
       ∧ (e.fid = none → (e.t.lead.hmode = false → trapped 7 (.eret f)) ∧ (e.t.lead.hmode = true → trapped 7 (.halt f))))
     ∧ (∀ f : FmtI, s.Issues f.msel f.pclass e →
       let ad := [(f.a.toNat, 1), (f.dst.toNat, 1)]
       let lane : List (Instr × List (Nat × Nat)) :=
         ([.iaddImm f, .isubImm f, .imulImm f, .iandImm f, .iorImm f, .ixorImm f, .ishlImm f, .ishrImm f, .isarImm f, .movh f, .bpermImm f]
           : List Instr).map (fun i => (i, ad)) ++ [(.movi f, [(f.dst.toNat, 1)]), (.vrd f, [(f.dst.toNat, 1)])]
       let lead : List Instr := [.saddImm f, .ssubImm f, .smulImm f, .sandImm f, .sorImm f, .sxorImm f, .sshlImm f, .sshrImm f, .ssarImm f, .sli f,
         .slih f, .aqstep f, .srd f, .swr f]
       (∀ p ∈ lane, e.fid = none ∨ beyond p.2 → trapped 1 p.1) ∧ (e.fid.isSome = true → ∀ i ∈ lead, trapped 0 i)
       ∧ (e.fid = none → trapped 3 (.waitc f)) ∧ (e.fid = none → e.t.lead.hmode = true → trapped 7 (.trap f)))
     ∧ (∀ f : FmtB, s.Issues f.msel f.pclass e →
       let k := f.kind.toNat
       let lane : List (Instr × List (Nat × Nat)) := [(.bra f, [(f.reg.toNat, if k < 6 then 1 else 0)]),
         (.bru f, [(f.reg.toNat, if k < 4 then 1 else 0)]), (.call f, [(f.reg.toNat, 2)]), (.meet f, [(f.reg.toNat, 2)]), (.join f, [(f.reg.toNat, 2)])]
       let lead : List Instr := [.sbr f, .sjmp f, .scall f, .sloop f]
       (∀ p ∈ lane, e.fid = none ∨ (e.fid.isSome = true ∧ beyond p.2) → trapped 2 p.1) ∧ (e.fid.isSome = true → ∀ i ∈ lead, trapped 0 i)
       ∧ (e.last = false → (∀ i ∈ lead, trapped 0 i) ∧ trapped 2 (.bra f) ∧ trapped 2 (.bru f) ∧ trapped 2 (.call f)))
     ∧ (∀ f : FmtM, s.Issues f.msel f.pclass e →
       let at_ := base f.space.toNat f.addr.toNat
       let n := data f.size.toNat
       let lane : List (Instr × List (Nat × Nat)) :=
         ([.ld f, .st f, .ldq f, .stq f] : List Instr).map (fun i => (i, [at_, (f.data.toNat, n)]))
         ++ ([.prsq f, .binit f, .bdrop f] : List Instr).map (fun i => (i, [at_, (f.data.toNat, 1)]))
         ++ [(.pref f, [at_]), (.cctl f, if f.data.toNat = 2 then [(f.addr.toNat, 2)] else [])]
       let both : List (Instr × List (Nat × Nat)) := (.kick f, [(f.addr.toNat, 1), (f.data.toNat, 1)]) :: (.waita f, [at_, (f.data.toNat, n)])
         :: ([.barr f, .barrx f, .bexp f, .bwait f, .btest f] : List Instr).map (fun i => (i, [at_, (f.data.toNat, 1)]))
       (∀ p ∈ lane, e.fid = none → trapped 3 p.1) ∧ (∀ p ∈ lane ++ both, e.fid.isSome = true → beyond p.2 → trapped 3 p.1)
       ∧ (e.fid.isSome = true → trapped 0 (.sld f) ∧ trapped 0 (.sst f)))
     ∧ (∀ f : FmtT, s.Issues f.msel f.pclass e →
       let at_ := base f.space.toNat f.addr.toNat
       let n := data f.size.toNat
       let one := if f.atype.toNat = 2 ∨ f.atype.toNat = 4 then 1 else n
       ∀ p ∈ ([(.atom f, 3, [at_, (f.data.toNat, n)]), (.acas f, 3, [at_, (f.data.toNat, 2 * n)]), (.red f, 3, [at_, (f.data.toNat, one)]),
           (.racc f, 5, [(f.addr.toNat, 2), (f.data.toNat, n)]), (.raccx f, 5, [(f.addr.toNat, 2), (f.data.toNat, 1)]),
           (.rfold f, 5, [(f.addr.toNat, 2), (f.data.toNat, 1)]), (.rclr f, 5, [(f.addr.toNat, 2)])] : List (Instr × Nat × List (Nat × Nat))),
         e.fid = none ∨ beyond p.2.2 → trapped p.2.1 p.1)
     ∧ (∀ f : FmtX, s.Issues f.msel f.pclass e →
       e.fid = none ∨ beyond [(f.acc.toNat, shapeN f.shape.toNat), (f.arow.toNat, 1), (f.bdesc.toNat, 2), (f.bar.toNat, if f.nobar = 1 then 0 else 1)] →
         trapped 4 (.mma f) ∧ trapped 4 (.mmas f) ∧ trapped 4 (.mmax f))
     ∧ (∀ (engine : Nat) (r : Raise) (tid : Nat) (t : Team), s.teams.look tid = some t →
       ∃ u, (s.takeTrap e 0 engine e.idx r).teams.look tid = some u ∧ u.threads = t.threads ∧ u.lead.regs = t.lead.regs))
  ∧ (∀ (s : State) (e : Env),
       let fault := fun (engine lanes : Nat) (i : Instr) => exec i s = .next (s.takeTrap e 0 engine e.idx { code := 0x03, lanes := lanes })
       (∀ f : FmtB, s.LeadIssues f.msel f.pclass e → e.last = true → s.BadTarget e true (wrap ((e.pc : Int) + 8 * f.target.toInt) 64) →
         let less := (e.t.sreg f.reg.toNat + 2 ^ 64 - 1) % 2 ^ 64
         fault 0 0 (.sjmp f) ∧ fault 0 0 (.scall f)
         ∧ (condHolds f.kind.toNat 64 (e.t.sreg f.reg.toNat) = true → fault 0 0 (.sbr f))
         ∧ ((if f.kind.toNat = 0 then decide (sext less 64 ≠ 0) else decide (0 < sext less 64)) = true → fault 0 0 (.sloop f)))
       ∧ (∀ f : FmtA, s.LeadIssues f.msel f.pclass e → e.last = true → s.BadTarget e true (e.t.sop f.za f.a.toNat) → fault 0 0 (.sret f))
       ∧ (∀ f : FmtB, s.LaneIssues f.msel f.pclass e → s.BadTarget e false (wrap ((e.pc : Int) + 8 * f.target.toInt) 64) →
         let k := f.kind.toNat
         let taken := e.act.filter (fun th => condHolds k 32 ((e.t.thread th).vreg f.reg.toNat))
         let popped := e.act.filter (fun th => (s.entryFor e.t 0 th == some 0) == (k == 4))
         (e.last = true → taken ≠ [] → (k < 6 → f.reg.toNat < e.t.nregs) → fault 2 (e.t.laneMask taken) (.bra f))
         ∧ (e.last = true → taken ≠ [] → k < 4 ∨ k = 6 → (k < 4 → f.reg.toNat < e.t.nregs ∧ taken = e.act) → fault 2 (e.t.laneMask taken) (.bru f))
         ∧ (e.last = true → popped ≠ [] → k = 4 ∨ k = 5 → s.entriesFor e.t 0 e.act = true → fault 2 (e.t.laneMask popped) (.bru f))
         ∧ (e.last = true → e.act ≠ [] → f.reg.toNat + 2 ≤ e.t.nregs → fault 2 (e.t.laneMask e.act) (.call f))
         ∧ (f.reg.toNat + 2 ≤ e.t.nregs → fault 2 (e.t.laneMask e.act) (.meet f)))
       ∧ (∀ f : FmtA, s.LaneIssues f.msel f.pclass e → e.last = true →
         let pair := fun th => if f.za then 0 else (e.t.thread th).vreg f.a.toNat + 2 ^ 32 * (e.t.thread th).vreg (f.a.toNat + 1)
         let jump := fun th => wrap ((e.pc : Int) + 8 * sext (if f.za then 0 else (e.t.thread th).vreg f.a.toNat) 32) 64
         ∀ good : Nat → Bool,
           let bad := e.act.filter (fun th => !good th)
           let split := fun (tgt : Nat → Nat) => bad ≠ [] ∧ ∀ th ∈ e.act,
             (good th = true → s.GoodTarget e false (tgt th)) ∧ (good th = false → s.BadTarget e false (tgt th))
           (split pair → (f.za = false → f.a.toNat + 2 ≤ e.t.nregs) → fault 2 (e.t.laneMask bad) (.ret f))
           ∧ (split jump → (f.za = false → f.a.toNat < e.t.nregs) → fault 2 (e.t.laneMask bad) (.jmpr f))))
  ∧ (∀ (s : State) (e : Env) (u : Upset), s.upset = some u → s.feature 1 = true →
       let clean : State := { s with upset := none }
       let hit := fun (x : Nat) => if e.fid = none then x % 2 else Nat.land x (e.t.laneMask e.act)
       let named := fun (x : Nat) => if e.fid = none then 0 else hit x
       let traps := fun (pclass : BitVec 2) (engine : Nat) (i : Instr) =>
         let differ := fun (code x : Nat) => ∃ r : Raise, r.code = code ∧ r.lanes = named x ∧ exec i s = .next (clean.takeTrap e 0 engine e.idx r)
         (pclass = 1 → hit u.diff ≠ 0 → differ 0x05 u.diff) ∧ (pclass = 2 → hit u.vote ≠ 0 → differ 0x06 u.vote)
       let logged := fun (r : LogRec) => (clean.ctxLog e.t.ctx r).1
       let corrects := fun (pclass : BitVec 2) (i : Instr) (wrote : State → State → State → Prop) =>
         pclass = 2 → hit u.vote = 0 → hit u.diff ≠ 0 → hit u.ecc = 0 → hit u.eccFixed = 0 →
           ∃ (r : LogRec) (x y : State), r.type = 3 ∧ r.severity = 1 ∧ r.code = 0 ∧ r.mismatch = named u.diff ∧ r.pclass = 2
             ∧ exec i clean = .next x ∧ exec i s = .next y ∧ wrote (logged r) x y
       (∀ f : FmtA, s.env f.msel.toNat f.pclass.toNat = some e →
         let wide := if f.md.toNat % 2 = 1 then 2 else 1
         let lane : List (Instr × List (Nat × Nat)) :=
           ([.iadd f, .isub f, .imul f, .imulh f, .imin f, .imax f, .iand f, .ior f, .ixor f] : List Instr).map (fun i => (i, regsA f wide wide 0 wide))
           ++ ([.ifunl f, .ibfx f, .ibfi f, .idot4 f, .bperm f, .fadd f, .fsub f, .fmul f, .ffma f, .fdot2 f] : List Instr).map (fun i => (i, regsA f 1 1 1 1))
           ++ ([.fmin f, .fmax f, .fcmp f, .fdiv f] : List Instr).map (fun i => (i, regsA f 1 1 0 1))
           ++ ([.fabs f, .fneg f, .fclass f, .frcp f, .frsq f, .fsqrt f, .fexp2 f, .flog2 f, .fsin f, .fcos f, .ftanh f] : List Instr).map
             (fun i => (i, regsA f 1 0 0 1))
         let lead : List Instr := [.sadd f, .ssub f, .smul f, .smulh f, .sdiv f, .srem f, .sand f, .sor f, .sxor f, .sshl f, .sshr f, .ssar f, .smin f,
           .smax f, .scmp f, .smov f, .ssel f]
         (e.fid.isSome = true → (∀ p ∈ lane, e.regsOk p.2 = true → traps f.pclass 1 p.1 ∧ corrects f.pclass p.1 (fun l x y => ∃ w, x = clean.laneWrote e w ∧ y = l.laneWrote e w))
           ∧ (∀ p ∈ ([(.dqpop f, [(f.dst.toNat, wide)]), (.aqpop f, [(f.dst.toNat, wide)]), (.maskop f, []), (.maskpc f, [(f.dst.toNat, 2)]),
               (.leave f, [(f.dst.toNat, 2)])] : List (Instr × List (Nat × Nat))), e.regsOk p.2 = true → traps f.pclass 2 p.1)
           ∧ (e.last = true → traps f.pclass 2 (.exit f) ∧ (e.regsOk (regsA f 2 0 0 0) = true → traps f.pclass 2 (.ret f))
             ∧ (e.regsOk (regsA f 1 0 0 0) = true → traps f.pclass 2 (.jmpr f))))
         ∧ (e.fid = none → (∀ i ∈ lead, traps f.pclass 0 i ∧ corrects f.pclass i (fun l x y =>
             ∃ v, x = clean.leadWrote e f.dst.toNat v ∧ y = l.leadWrote e f.dst.toNat v))
           ∧ traps f.pclass 0 (.dqpush f) ∧ traps f.pclass 0 (.aqpush f)))
       ∧ (∀ f : FmtB, s.env f.msel.toNat f.pclass.toNat = some e → e.last = true →
         (e.fid = none → traps f.pclass 0 (.sbr f) ∧ traps f.pclass 0 (.sjmp f) ∧ traps f.pclass 0 (.scall f) ∧ traps f.pclass 0 (.sloop f))
         ∧ (e.fid.isSome = true → (e.regsOk [(f.reg.toNat, 2)] = true → traps f.pclass 2 (.call f))
           ∧ (e.regsOk [(f.reg.toNat, if f.kind.toNat < 6 then 1 else 0)] = true → traps f.pclass 2 (.bra f))))
       ∧ (∀ f : FmtM, s.env f.msel.toNat f.pclass.toNat = some e →
         e.regsOk [(f.addr.toNat, if f.space = 0 then 2 else 1), (f.data.toNat, if f.size.toNat ≤ 2 then 1 else 2 ^ (f.size.toNat - 2))] = true →
         (e.fid.isSome = true → traps f.pclass 3 (.ld f) ∧ traps f.pclass 3 (.st f)) ∧ traps f.pclass 3 (.waita f)
         ∧ (e.fid = none → traps f.pclass 0 (.sld f) ∧ traps f.pclass 0 (.sst f)))
       ∧ (∀ f : FmtT, s.env f.msel.toNat f.pclass.toNat = some e → e.fid.isSome = true →
         (e.regsOk [(f.addr.toNat, if f.space = 0 then 2 else 1), (f.data.toNat, if f.size.toNat ≤ 2 then 1 else 2 ^ (f.size.toNat - 2))] = true →
           traps f.pclass 3 (.atom f))
         ∧ (e.regsOk [(f.addr.toNat, 2), (f.data.toNat, if f.size.toNat ≤ 2 then 1 else 2 ^ (f.size.toNat - 2))] = true → traps f.pclass 5 (.racc f))))

/-! ## Grouping -/

/-- The transfers of the lane stream send each active thread that takes them to its own target and every other thread to the next clause: BRA
by each lane's register, BRU by a uniform register or by each lane's entry of the decision queue, which it pops, CALL with the address of
the next clause in a pair, RET and JMPR by registers (R188, R190, R191). EXIT and HALT in the lane stream end the active threads, which
stop holding queue entries; the threads that are not active go on at the next clause. In an elastic launch the step boundary that the
exits may complete is looked at next (R120, R191, R192, R380). -/
def Obligations.LaneTransfersSendEachThread : Prop :=
  (∀ (s : State) (e : Env),
     let next := e.pc + 8 * (e.count + 1)
     (∀ f : FmtB, s.LaneIssues f.msel f.pclass e → e.last = true →
       let k := f.kind.toNat
       let target := wrap ((e.pc : Int) + 8 * f.target.toInt) 64
       let reg := fun th => (e.t.thread th).vreg f.reg.toNat
       let cond := fun th => condHolds k 32 (reg th)
       let chosen := s.laneJumped e (fun th => if th ∈ e.act ∧ cond th = true then target else next)
       let all := fun (s : State) => s.laneJumped e (fun th => if th ∈ e.act then target else next)
       ((k < 6 → f.reg.toNat < e.t.nregs) → ((∃ th ∈ e.act, cond th = true) → s.GoodTarget e false target) →
         exec (.bra f) s = .next chosen)
       ∧ (k < 4 ∨ k = 6 → (k < 4 → f.reg.toNat < e.t.nregs ∧ e.Same (fun th => if cond th then 1 else 0)) →
         ((∃ th ∈ e.act, cond th = true) → s.GoodTarget e false target) → exec (.bru f) s = .next chosen)
       ∧ (k = 4 ∨ k = 5 → e.act ≠ [] →
         let takes := fun th => s.entryFor e.t 0 th = some 0 ↔ k = 4
         (s.entriesFor e.t 0 e.act = true → ((∃ th ∈ e.act, takes th) → s.GoodTarget e false target) →
           exec (.bru f) s = .next (((s.dissolve e.tid (e.fid.getD 0) (fun th => some (if th ∈ e.act ∧ takes th then target else next))).popFor
             e.tid 0 e.act).releasePort e))
         ∧ (s.entriesFor e.t 0 e.act = false → exec (.bru f) s = .next (s.block e (.queueEmpty 0 e.act))))
       ∧ (f.reg.toNat + 2 ≤ e.t.nregs → (e.act ≠ [] → s.GoodTarget e false target) →
         exec (.call f) s = .next (all (s.setV e.tid (e.act.map (fun th =>
           (th, [(f.reg.toNat, next % 2 ^ 32), (f.reg.toNat + 1, next / 2 ^ 32 % 2 ^ 32)])))))))
     ∧ (∀ f : FmtA, s.LaneIssues f.msel f.pclass e → e.last = true →
       let pair := fun th => if f.za then 0 else (e.t.thread th).vreg f.a.toNat + 2 ^ 32 * (e.t.thread th).vreg (f.a.toNat + 1)
       let offset := fun th => sext (if f.za then 0 else (e.t.thread th).vreg f.a.toNat) 32
       let goTo := fun (tgt : Nat → Nat) => s.laneJumped e (fun th => if th ∈ e.act then tgt th else next)
       let jump := fun th => wrap ((e.pc : Int) + 8 * offset th) 64
       ((f.za = false → f.a.toNat + 2 ≤ e.t.nregs) → (∀ th ∈ e.act, s.GoodTarget e false (pair th)) → exec (.ret f) s = .next (goTo pair))
       ∧ ((f.za = false → f.a.toNat < e.t.nregs) → (∀ th ∈ e.act, s.GoodTarget e false (jump th)) → exec (.jmpr f) s = .next (goTo jump))))
  ∧ (∀ (f : FmtA) (s : State) (e : Env), s.LaneIssues f.msel f.pclass e → e.last = true →
       let ended := ((s.boundaryDue e.t).updTeam e.tid (fun t => ({ t with
         threads := e.act.foldl (fun ts th => ts.upd th (fun x => { x with run := .exited })) t.threads }).retireAll)).laneJumped e
           (fun _ => e.pc + 8 * (e.count + 1))
       exec (.exit f) s = .next ended ∧ exec (.halt f) s = .next ended)

/-- MEET saves the meeting register in a pair and names a new header, with DONE cleared; JOIN takes the pair back where MEET names this
header; LEAVE saves and clears; WAITM only waits (R193, R194). The mask instructions write, for each home warp concerned, the bits of its
active lanes and no other bit of the mask (R195); MASKMV copies masks to and from registers (R196); MASKPC writes sets of lanes (R197). -/
def Obligations.MeetAndMaskInstructionsComplete : Prop :=
  (∀ (s : State) (e : Env),
     let each := fun (g : Nat → Thread → Thread) => (e.act.foldl (fun s th => s.updThread e.tid th (g th)) s).advance e .issuing
     let saved := fun (r : Nat) (x : Thread) => x.setRegs s.nextId [(r, x.meet % 2 ^ 32), (r + 1, x.meet / 2 ^ 32 % 2 ^ 32)]
     (∀ f : FmtB, s.LaneIssues f.msel f.pclass e → f.reg.toNat + 2 ≤ e.t.nregs →
       let target := wrap ((e.pc : Int) + 8 * f.target.toInt) 64
       (s.GoodTarget e false target →
         exec (.meet f) s = .next (each (fun _ x => { saved f.reg.toNat x with meet := target, done := false })))
       ∧ exec (.join f) s = .next (each (fun th x => if x.meet = target then
           { x with meet := (e.t.thread th).vreg f.reg.toNat + 2 ^ 32 * (e.t.thread th).vreg (f.reg.toNat + 1), done := false } else x)))
     ∧ (∀ f : FmtA, s.LaneIssues f.msel f.pclass e →
       (f.dst.toNat + 2 ≤ e.t.nregs → exec (.leave f) s = .next (each (fun _ x => { saved f.dst.toNat x with meet := 0, done := false })))
       ∧ (e.w.split = [] → exec (.waitm f) s = .next (s.laneWrote e (fun _ _ => [])))))
  ∧ (∀ (f : FmtA) (s : State) (e : Env), s.LaneIssues f.msel f.pclass e →
       let a := f.a.toNat
       let d := f.dst.toNat
       let bitOf := fun (k th : Nat) => bit ((e.t.warps.get {} (th / e.t.width)).mask k) (th % e.t.width)
       let pa := fun th => !f.za && bitOf a th
       let pb := fun th => !f.zb && bitOf f.b.toNat th
       let whole := fun th => if f.za then 0 else (e.t.warps.get {} (th / e.t.width)).mask a
       let pair := fun th => if f.za then 0 else (e.t.thread th).vreg a + 2 ^ 32 * (e.t.thread th).vreg (a + 1)
       let op := fun th => match f.md.toNat with
         | 0 => pa th && pb th
         | 1 => pa th || pb th
         | 2 => pa th != pb th
         | 3 => pa th && !pb th
         | 4 => !pa th
         | 5 => pa th
         | 6 => true
         | _ => false
       let mode := f.md.toNat % 4
       exec (.maskop f) s = .next ((e.writeBits s d op).advance e .issuing)
       ∧ (mode = 0 → d < e.t.nregs → exec (.maskmv f) s = .next (s.laneWrote e (fun th _ => [(d, if pa th then 1 else 0)])))
       ∧ (mode = 1 → (f.za = false → a < e.t.nregs) →
           exec (.maskmv f) s = .next ((e.writeBits s d (fun th => (if f.za then 0 else (e.t.thread th).vreg a) != 0)).advance e .issuing))
       ∧ (mode = 2 → d + 2 ≤ e.t.nregs →
           exec (.maskmv f) s = .next (s.laneWrote e (fun th _ => [(d, whole th % 2 ^ 32), (d + 1, whole th / 2 ^ 32 % 2 ^ 32)])))
       ∧ (mode = 3 → (f.za = false → a + 2 ≤ e.t.nregs) → e.Same pair →
           exec (.maskmv f) s = .next ((e.hws.foldl (fun s hw => s.setMask e.tid hw d (pair (e.act.headD 0))) s).advance e .issuing))
       ∧ (d + 2 ≤ e.t.nregs → exec (.maskpc f) s = .next (s.laneWrote e (fun th _ =>
           [(d, maskPcSet e mode th % 2 ^ 32), (d + 1, maskPcSet e mode th / 2 ^ 32 % 2 ^ 32)]))))

/-- The cross-lane instructions read every source before any result and take only active lanes: votes, shuffles, broadcasts, reductions and
scans in ascending lane order, matches, and a draw by weight (R185, R199 to R204). DQPOP and AQPOP give every active thread the entry at
its own position and advance its position by one; while one of them finds no entry the clause suspends before them (R108, R110, R206). -/
def Obligations.CrossLaneAndPopsWriteTheirResult : Prop :=
  (∀ (f : FmtA) (s : State) (e : Env), s.LaneIssues f.msel f.pclass e → e.w.split = [] →
     let md := f.md.toNat
     let one := fun (z : Bool) (r th : Nat) => if z then 0 else (e.t.thread th).vreg r
     let op := fun (wide : Bool) (th : Nat) => if f.za then 0 else if wide
       then (e.t.thread th).vreg f.a.toNat + 2 ^ 32 * (e.t.thread th).vreg (f.a.toNat + 1) else (e.t.thread th).vreg f.a.toNat
     let put := fun (wide : Bool) (v : Nat) => if wide then [(f.dst.toNat, v % 2 ^ 32), (f.dst.toNat + 1, v / 2 ^ 32 % 2 ^ 32)] else [(f.dst.toNat, v)]
     let n := fun (wide : Bool) => if wide then 2 else 1
     let lane := fun th => th % e.t.width
     let votes := e.act.filter (fun th => decide (one f.za f.a.toNat th ≠ 0) != decide (md / 8 % 2 = 1))
     let w2 := decide (md / 4 % 2 = 1)
     let w1 := decide (md / 2 % 2 = 1)
     let w0 := decide (md % 2 = 1)
     let w3 := decide (md / 8 % 4 = 1)
     let src := fun th => shflSource md e.t.width (lane th) (one f.zb f.b.toNat th)
     (∀ p ∈ ([
       (.vote f, regsA f 1 0 0 (if md % 8 = 4 then 2 else 1), fun _ => put (decide (md % 8 = 4)) (match md % 8 with
           | 0 => if votes = [] then 0 else 1
           | 1 => if votes.length = e.act.length then 1 else 0
           | 2 => votes.length
           | 3 => match votes with
             | [] => 0xFFFFFFFF
             | th :: _ => lane th
           | 4 => e.t.laneMask votes
           | _ => if e.differ (one f.za f.a.toNat) = [] then 1 else 0)),
       (.shfl f, regsA f (n w2) 1 0 (n w2), fun th => put w2 (match (if ((src th).1 : Int) ≤ (src th).2.2
             ∧ (src th).2.2 < ((src th).1 + (src th).2.1 : Nat) then e.act.find? (fun x => decide (((lane x : Nat) : Int) = (src th).2.2)) else none) with
           | some x => op w2 x
           | none => if md / 64 = 1 then 0 else op w2 th)),
       (.redx f, regsA f (n w3) 0 0 (n w3), fun _ => put w3 (combineList (md % 8) (md / 8 % 4) (md / 32) (e.act.map (op w3)))),
       (.scanx f, regsA f (n w3) 0 0 (n w3), fun th => put w3 (combineList (md % 8) (md / 8 % 4) 0
         ((e.act.filter (fun x => decide (lane x < lane th) || (decide (md / 32 % 2 = 0) && x == th))).map (op w3)))),
       (.matchx f, regsA f (n w0) 0 0 2, fun th => put true (e.t.laneMask (e.act.filter (fun x => op w0 x == op w0 th))))]
         : List (Instr × List (Nat × Nat) × (Nat → List (Nat × Nat)))),
       e.regsOk p.2.1 = true → exec p.1 s = .next (s.laneWrote e (fun th _ => p.2.2 th)))
     ∧ (e.regsOk (regsA f (n w1) (if md % 2 = 1 then 0 else 1) 0 (n w1)) = true →
         (md % 2 = 0 → e.Same (fun th => one f.zb f.b.toNat th % 64)) →
         exec (.bcast f) s = .next (s.laneWrote e (fun th _ => put w1 (match (if md % 2 = 1 then e.act.head? else
           e.act.find? (fun x => lane x == one f.zb f.b.toNat (e.act.headD 0) % 64)) with
             | some x => op w1 x
             | none => op w1 th))))
     ∧ (e.regsOk (regsA f 1 1 0 1) = true → e.Same (one f.zb f.b.toNat) →
         exec (.sample f) s = .next (s.laneWrote e (fun _ _ => [(f.dst.toNat,
           sampleLane (e.act.map (fun th => (lane th, one f.za f.a.toNat th))) (one f.zb f.b.toNat (e.act.headD 0)))]))))
  ∧ (∀ (f : FmtA) (s : State) (e : Env), s.LaneIssues f.msel f.pclass e → e.act ≠ [] →
       f.dst.toNat + (if f.md.toNat % 2 = 1 then 2 else 1) ≤ e.t.nregs →
       let put := fun (v : Nat) => if f.md.toNat % 2 = 1 then [(f.dst.toNat, v % 2 ^ 32), (f.dst.toNat + 1, v / 2 ^ 32 % 2 ^ 32)]
         else [(f.dst.toNat, v % 2 ^ 32)]
       ∀ p ∈ ([(.dqpop f, 0), (.aqpop f, 1 + f.md.toNat / 2 % 4)] : List (Instr × Nat)),
         (s.entriesFor e.t p.2 e.act = true →
           exec p.1 s = .next (((s.popFor e.tid p.2 e.act).setV e.tid
             (e.act.map (fun th => (th, put ((s.entryFor e.t p.2 th).getD 0))))).advance e .issuing))
         ∧ (s.entriesFor e.t p.2 e.act = false → exec p.1 s = .next (s.block e (.queueEmpty p.2 e.act))))

/-! ## Memory instructions -/

/-- A load whose accesses pass every check puts one read per active thread in flight in oc0, of 2^SIZE bytes at base plus offset (LDQ: plus
home lane times size), and its party goes on, or is parked past it where a line that it touches is absent; PRSQ asks for one byte and
never waits for a line, SLD reads for the lead thread (R63, R104, R209, R215, R216, R218). A prefetch never parks, faults or enters a
counter: its party goes on at once. Where its core holds no delta lines, which it would flush first (R315), no byte of memory changes
(R217). Where the spec leaves a choice here, the model's is in log entries 14, 26, 133 and 153. -/
def Obligations.LoadsAndPrefetchesGoOn : Prop :=
  (∀ (f : FmtM) (s : State) (e : Env), s.Issues f.msel f.pclass e →
     let size := f.size.toNat
     let space := f.space.toNat
     let off := f.offset.toInt
     let wants := fun (off : Nat → Int) => e.wants space f.addr.toNat off (fun _ => 0) (fun _ => 0)
     let strip := fun th => off + ((e.t.laneOf th * 2 ^ size : Nat) : Int)
     let op := fun (kind : OpKind) (ws : List Want) => ({ e.op s kind (some 0) (ws.map (s.accOf e)) with
       size := size, scope := f.scope.toNat, ord := f.ord.toNat, evict := f.evict.toNat, data := f.data.toNat } : Op)
     let use := fun (n : Nat) => ({ bytes := n, align := n, write := false, access := 0 } : Use)
     let regs := fun (n : Nat) => e.regsOk [(f.addr.toNat, if space = 0 then 2 else 1), (f.data.toNat, n)] = true
     let group := if size ≤ 2 then 1 else 2 ^ (size - 2)
     (e.fid.isSome = true →
       (space ≠ 5 → regs group → s.Goes e (use (2 ^ size)) 0 (wants (fun _ => off)) →
         exec (.ld f) s = .next (s.accessed e (op .ld (wants (fun _ => off)))))
       ∧ (regs group → e.Same (fun th => e.baseOf space f.addr.toNat th) → s.Goes e (use (2 ^ size)) 0 (wants strip) →
         exec (.ldq f) s = .next (s.accessed e (op .ldq (wants strip))))
       ∧ (regs 1 → s.Goes e (use 1) 0 (wants (fun _ => off)) → exec (.prsq f) s = .next (s.accessed e (op .prsq (wants (fun _ => off))))))
     ∧ (e.fid = none → s.Goes e (use (2 ^ size)) 0 (wants (fun _ => off)) →
         exec (.sld f) s = .next (s.accessed e (op .ld (wants (fun _ => off))))))
  ∧ (∀ (f : FmtM) (s : State) (e : Env), s.LaneIssues f.msel f.pclass e → e.regsOk [(f.addr.toNat, if f.space.toNat = 0 then 2 else 1)] = true →
       ∃ t : State, exec (.pref f) s = .next (t.advance e .issuing) ∧ t.launches = s.launches ∧ t.ctxs = s.ctxs
         ∧ (f.space.toNat ≠ 5 → t.teams = s.teams) ∧ ((s.core e.core).deltas = [] → t.ops = s.ops ∧ SameBytes s t))

/-- A store whose accesses pass every check puts one write per active thread in flight, with the value of its DATA group: in oc1, or in oc6
for the lanes that reach alias pages, in both where it has lanes of both kinds. Its party goes on, or is parked past it where a line that
it touches is absent (R27, R63, R104, R215, R216, R470). With SPACE 5 each thread of a load or a store takes the entry at its own position
in the queue that OFFSET names, whose space and address it then reaches, and pops it; while one of them finds no entry it suspends and
pops nothing (R108, R211). Where the spec leaves a choice here, the model's is in log entries 13 and 153. -/
def Obligations.StoresAndQueueAddressesGoInFlight : Prop :=
  (∀ (f : FmtM) (s : State) (e : Env), s.Issues f.msel f.pclass e →
     let size := f.size.toNat
     let space := f.space.toNat
     let off := f.offset.toInt
     let wants := fun (off : Nat → Int) => e.wants space f.addr.toNat off (e.dataOf f.data.toNat (2 ^ size)) (fun _ => 0)
     let strip := fun th => off + ((e.t.laneOf th * 2 ^ size : Nat) : Int)
     let op := fun (kind : OpKind) (s : State) (c : Nat) (l : List Acc) => ({ e.op s kind (some c) l with
       size := size, scope := f.scope.toNat, ord := f.ord.toNat, evict := f.evict.toNat, data := f.data.toNat } : Op)
     let use : Use := { bytes := 2 ^ size, align := 2 ^ size, write := true, access := 1, store := true }
     let regs := e.regsOk [(f.addr.toNat, if space = 0 then 2 else 1), (f.data.toNat, if size ≤ 2 then 1 else 2 ^ (size - 2))] = true
     let ends := fun (kind : OpKind) (ws : List Want) => s.stored e (op kind) (ws.map (s.accOf e))
     (e.fid.isSome = true → regs →
       (space ≠ 5 → s.GoesStore e use (wants (fun _ => off)) → exec (.st f) s = .next (ends .st (wants (fun _ => off))))
       ∧ (e.Same (fun th => e.baseOf space f.addr.toNat th) → s.GoesStore e use (wants strip) →
         exec (.stq f) s = .next (ends .stq (wants strip))))
     ∧ (e.fid = none → s.GoesStore e use (wants (fun _ => off)) → exec (.sst f) s = .next (ends .st (wants (fun _ => off)))))
  ∧ (∀ (f : FmtM) (s : State) (e : Env), s.LaneIssues f.msel f.pclass e → f.space.toNat = 5 → e.act ≠ [] →
       e.regsOk [(f.addr.toNat, 1), (f.data.toNat, if f.size.toNat ≤ 2 then 1 else 2 ^ (f.size.toNat - 2))] = true →
       let size := f.size.toNat
       let q := 1 + f.offset.toNat / 2 ^ 14
       let popped := s.popFor e.tid q e.act
       let wants := fun (data : Nat → Nat) =>
         e.act.map (fun th => queueWant e f.addr.toNat (sext f.offset.toNat 14) ((s.entryFor e.t q th).getD 0) data th)
       let op := fun (kind : OpKind) (s : State) (c : Nat) (l : List Acc) => ({ e.op s kind (some c) l with
         size := size, scope := f.scope.toNat, ord := f.ord.toNat, evict := f.evict.toNat, data := f.data.toNat } : Op)
       (s.entriesFor e.t q e.act = false → e.full 0 = false →
         exec (.ld f) s = .next (s.block e (.queueEmpty q e.act)) ∧ exec (.st f) s = .next (s.block e (.queueEmpty q e.act)))
       ∧ (s.entriesFor e.t q e.act = true →
           let ws := wants (fun _ => 0)
           popped.Goes e { bytes := 2 ^ size, align := 2 ^ size, write := false, access := 0 } 0 ws →
           exec (.ld f) s = .next (popped.accessed e (op .ld popped 0 (ws.map (popped.accOf e)))))
       ∧ (s.entriesFor e.t q e.act = true →
           let ws := wants (e.dataOf f.data.toNat (2 ^ size))
           s.GoesStore e { bytes := 2 ^ size, align := 2 ^ size, write := true, access := 1, store := true } ws →
           exec (.st f) s = .next (popped.stored e (op .st) (ws.map (s.accOf e)))))

/-- An atomic and a reduction put one read-modify-write per active thread in flight in oc2; ACAS carries the compare value and then the new
value of its DATA group (R224, R226, R227). The far operations put theirs in flight in oc5, on global memory (R319, R323). -/
def Obligations.AtomicsPutUpdatesInFlight : Prop :=
  ∀ (f : FmtT) (s : State) (e : Env), s.LaneIssues f.msel f.pclass e →
    let size := f.size.toNat
    let n := 2 ^ size
    let off := if f.atype.toNat = 4 then 0 else f.offset.toInt
    let group := if size ≤ 2 then 1 else 2 ^ (size - 2)
    let single := f.atype.toNat = 2 ∨ f.atype.toNat = 4
    let data := e.dataOf f.data.toNat
    let zero := fun (_ : Nat) => 0
    let op := fun (kind : OpKind) (c : Nat) (ws : List Want) => ({ e.op s kind (some c) (ws.map (s.accOf e)) with
      size := size, scope := f.scope.toNat, ord := f.ord.toNat, evict := f.evict.toNat, data := f.data.toNat,
      aop := f.aop.toNat, atype := f.atype.toNat, e := if f.atype.toNat = 4 then f.offset.toNat / 4 else 0 } : Op)
    (∀ p ∈ ([
      (.atom f, .atom, group, data n, zero),
      (.acas f, .acas, 2 * group, data n, e.dataOf (f.data.toNat + n / 4) n),
      (.red f, .red, if single then 1 else group, data (if single then 4 else n), zero)]
        : List (Instr × OpKind × Nat × (Nat → Nat) × (Nat → Nat))),
      let ws := e.wants f.space.toNat f.addr.toNat (fun _ => off) p.2.2.2.1 p.2.2.2.2
      e.regsOk [(f.addr.toNat, if f.space.toNat = 0 then 2 else 1), (f.data.toNat, p.2.2.1)] = true →
      s.Goes e { bytes := n, align := n, write := true, access := 2 } 2 ws → exec p.1 s = .next (s.accessed e (op p.2.1 2 ws)))
    ∧ (∀ p ∈ ([
      (.racc f, .racc, group, n, true, data n),
      (.raccx f, .raccx, 1, 16, true, data 4),
      (.rfold f, .rfold, 1, 16, false, zero),
      (.rclr f, .rclr, 0, 16, true, zero)] : List (Instr × OpKind × Nat × Nat × Bool × (Nat → Nat))),
      let ws := e.wants 0 f.addr.toNat (fun _ => off) p.2.2.2.2.2 zero
      e.regsOk [(f.addr.toNat, 2), (f.data.toNat, p.2.2.1)] = true →
      s.Goes e { bytes := p.2.2.2.1, align := p.2.2.2.1, write := p.2.2.2.2.1, access := if p.2.2.2.2.1 then 2 else 0 } 5 ws →
      exec p.1 s = .next (s.accessed e (op p.2.1 5 ws)))

/-- A barrier-object instruction puts one access of 16 bytes per thread in flight, in oc1, oc2 or oc0; BWAIT and WAITA park their party (R231
to R233, R236). Counts above the limits of R231 raise 0x0D and reach no object. WAITC goes on when the counter stands at most at n, else
the clause suspends before it (R235). FENCE parks its party until it completes (R238). CCTL enters oc1 with the active threads' lines; a
line at or above 2^52 raises 0x09 and drops nothing (R209, R239). -/
def Obligations.BarrierInstructionsAndWaitsOrder : Prop :=
  (∀ (f : FmtM) (s : State) (e : Env), s.Issues f.msel f.pclass e →
     let size := f.size.toNat
     let val := fun th => if e.lead then e.t.sreg f.data.toNat else (e.t.thread th).vreg f.data.toNat
     let wants := fun data => e.wants f.space.toNat f.addr.toNat (fun _ => f.offset.toInt) data (fun _ => 0)
     let op := fun (kind : OpKind) (c : Nat) (ws : List Want) => ({ e.op s kind (some c) (ws.map (s.accOf e)) with
       size := size, scope := f.scope.toNat, ord := f.ord.toNat, evict := f.evict.toNat, data := f.data.toNat } : Op)
     let regs := fun (n : Nat) => e.regsOk [(f.addr.toNat, if f.space.toNat = 0 then 2 else 1), (f.data.toNat, n)] = true
     let use := fun (w : Bool) => ({ bytes := 16, align := 16, write := w, access := if w then 2 else 0 } : Use)
     let ws := wants val
     (regs 1 → ∀ p ∈ ([
       (.binit f, .binit, 1, true, 4096, false),
       (.barr f, .barr, 2, true, 2 ^ 64, true),
       (.barrx f, .barrx, 2, true, 2 ^ 31, true),
       (.bexp f, .bexp, 2, true, 2 ^ 31, true),
       (.btest f, .btest, 0, false, 2 ^ 64, true),
       (.bdrop f, .bdrop, 2, true, 2 ^ 64, false)] : List (Instr × OpKind × Nat × Bool × Nat × Bool)),
       (p.2.2.2.2.2 = false → e.fid.isSome = true) → s.Goes e (use p.2.2.2.1) p.2.2.1 ws →
       ((∀ w ∈ ws, w.data < p.2.2.2.2.1) → exec p.1 s = .next (s.accessed e (op p.2.1 p.2.2.1 ws)))
       ∧ (∀ w rest, ws.filter (fun w => decide (p.2.2.2.2.1 ≤ w.data)) = w :: rest → exec p.1 s = .next (s.takeTrap e 0 3 e.idx
           { code := 0x0D, lanes := if e.lead then 0 else e.t.laneMask ((w :: rest).map (·.th)), addr := wrap w.addr 64 })))
     ∧ (regs 1 → s.Goes e (use false) 0 ws → exec (.bwait f) s = .next (s.parkedOn e (op .bwait 0 ws)))
     ∧ (regs (if size ≤ 2 then 1 else 2 ^ (size - 2)) →
         let ws := wants (e.dataOf f.data.toNat (2 ^ size))
         s.Goes e { bytes := 2 ^ size, align := 2 ^ size, write := false, access := 0 } 0 ws →
         exec (.waita f) s = .next (s.parkedOn e (op .waita 0 ws))))
  ∧ (∀ (s : State) (e : Env),
       (∀ f : FmtI, s.LaneIssues f.msel f.pclass e →
         let c := f.imm.toNat % 8
         let n := f.imm.toNat / 8 % 64
         ((∀ h ∈ e.hws, countOf (e.t.warps.get {} h).oc c ≤ n) → exec (.waitc f) s = .next (s.advance e .issuing))
         ∧ ((∃ h ∈ e.hws, n < countOf (e.t.warps.get {} h).oc c) → exec (.waitc f) s = .next (s.block e (.counterWait c n e.hws))))
       ∧ (∀ f : FmtM, s.Issues f.msel f.pclass e → e.fid = none ∨ e.act ≠ [] →
         exec (.fence f) s = .next (s.parkedOn e { e.op s .fence none e.idleLanes with scope := f.scope.toNat, ord := f.ord.toNat }))
       ∧ (∀ f : FmtM, s.LaneIssues f.msel f.pclass e → e.act ≠ [] → e.full 1 = false →
         (f.data.toNat = 2 → f.addr.toNat + 2 ≤ e.t.nregs) →
         let line := fun th => wrap (wrap (((e.t.thread th).vpair f.addr.toNat : Int) + f.offset.toInt) 64 : Nat) 64
         let high := e.act.filter (fun th => decide (f.data.toNat = 2 ∧ 2 ^ 52 ≤ line th))
         (high = [] → exec (.cctl f) s = .next (s.launched e { e.op s .cctl (some 1) (e.act.map (fun th =>
           ({ lane := e.t.laneOf th, thread := th, space := 0, addr := if f.data.toNat = 2 then line th else 0 } : Acc))) with data := f.data.toNat }))
         ∧ (∀ th rest, high = th :: rest → exec (.cctl f) s = .next (s.takeTrap e 0 3 e.idx
           { code := 0x09, lanes := e.t.laneMask (th :: rest), addr := line th }))))

/-- A KICK with room for its kicks enters oc3 and asks for one kick of 128 bytes in the scratchpad per thread; without room the clause
suspends and nothing is kicked (R269). SPAWN copies 248 bytes of a launch descriptor, and 8 bytes of zero, into the next slot of a queue
of its context, advances WRITE, and gives status 0; a full queue gives 1 and a queue that is not enabled 2, and nothing is written; a
descriptor that cannot be read gives 3, and so does a slot that cannot be written or is poisoned, of which the bytes are left undefined.
Its party parks past it until the earlier accesses of all its threads are complete (R386, R387). Where the spec leaves a choice here, the
model's is in log entry 49. -/
def Obligations.KicksAndSpawnsAreQueuedOrSuspend : Prop :=
  (∀ (f : FmtM) (s : State) (e : Env), s.Issues f.msel f.pclass e → e.regsOk [(f.addr.toNat, 1), (f.data.toNat, 1)] = true →
     let ws := e.wants 2 f.addr.toNat (fun _ => f.offset.toInt) (fun th => e.dataOf f.data.toNat 1 th) (fun _ => 0)
     let room := (s.core e.core).kicks.length + s.unhanded e.core + ws.length ≤ 256
     s.Goes e { bytes := 128, align := 128, write := false, access := 0 } 3 ws →
     (room → exec (.kick f) s = .next (s.launched e { e.op s .kick (some 3) (ws.map (s.accOf e)) with
       size := f.size.toNat, scope := f.scope.toNat, ord := f.ord.toNat, evict := f.evict.toNat, data := f.data.toNat, runs := ws.length }))
     ∧ (¬room → exec (.kick f) s = .next (s.block e .room)))
  ∧ (∀ (f : FmtA) (s : State) (e : Env), s.Issues f.msel f.pclass e → e.fid = none ∨ e.act ≠ [] →
       (e.fid.isSome = true → e.regsOk [(f.a.toNat, if f.za then 0 else 2), (f.b.toNat, if f.zb then 0 else 1), (f.dst.toNat, 1)] = true
         ∧ e.Same (e.pair f.za f.a.toNat) ∧ e.Same (e.single f.zb f.b.toNat)) →
       let a := e.pair f.za f.a.toNat (e.act.headD 0)
       let q := e.single f.zb f.b.toNat (e.act.headD 0)
       let c := e.t.ctx
       let cfg := (s.queueRegs c q).cfg
       let ends := fun (t : State) (status : Nat) => exec (.spawn f) s = .next ((t.putResult e f.dst.toNat 1 (fun _ => status)).advance e .issuing)
       let party := if e.fid = none then [leadThread] else e.all
       (a % 16 = 0 → s.replayable e.t = false → s.agentsQuiet e.tid s.nextId party = true →
         (63 < q ∨ bit cfg 0 = false ∨ bit cfg 1 = false → ends s 2)
         ∧ (q ≤ 63 → bit cfg 0 = true → bit cfg 1 = true →
           let d := s.doneAhead c q
           let r := d.queueRegs c q
           let slot := r.slotAt r.write
           (r.full = true → ends d 1)
           ∧ (r.full = false →
             (∀ x, d.engineRead c a 256 = .error x → ends d 3)
             ∧ (∀ bs, d.engineRead c a 256 = .ok bs →
               let d := d.engineTouch c a 256
               let w := d.engineWrite c slot (bs.take 0xF8 ++ bytesOf 8 0)
               (∀ t, w = .ok t → d.slotPoisoned c slot = false →
                 ends (t.updQueue c q (fun r => { r with write := (r.write + 1) % 2 ^ 32 })) 0)
               ∧ (∀ t, w = .ok t → d.slotPoisoned c slot = true → ends (d.spoilSlot c slot) 3)
               ∧ (∀ x, w = .error x → ends (d.spoilSlot c slot) 3)))))
       ∧ (s.agentsQuiet e.tid s.nextId party = false → a % 16 = 0 → s.replayable e.t = false →
           exec (.spawn f) s = .next (s.parkedOn e { e.op s .spawn none e.idleLanes with data := f.dst.toNat, args := [a, q] })))

/-- An operation put in flight takes the next number, enters its counter in each home warp concerned or in the lead thread's own set, behind
the entries that stand there, and changes nothing else (R26, R27). -/
def Obligations.OperationsEnterTheirCounters : Prop :=
  ∀ (s : State) (e : Env) (o : Op) (c : Nat), o.counter = some c → e.hws.Nodup → ∀ t₀, s.teams.look e.tid = some t₀ →
    let r := s.launchOp e o
    r.2 = s.nextId ∧ r.1.ops.look s.nextId = some o ∧ (∀ n, n ≠ s.nextId → r.1.ops.look n = s.ops.look n)
      ∧ r.1.nextId = s.nextId + 1 ∧ r.1 = { s with ops := r.1.ops, nextId := r.1.nextId, teams := r.1.teams }
      ∧ (∀ n, n ≠ e.tid → r.1.teams.look n = s.teams.look n) ∧ SameBytes s r.1
      ∧ ∃ t, r.1.teams.look e.tid = some t ∧ t = { t₀ with lead := t.lead, warps := t.warps }
        ∧ (e.fid = none → t.warps = t₀.warps ∧ t.lead = { t₀.lead with oc := t.lead.oc }
            ∧ t.lead.oc.get [] c = t₀.lead.oc.get [] c ++ [{ op := s.nextId, done := false }])
        ∧ (e.fid.isSome = true → t.lead = t₀.lead ∧ (o.hws = e.hws → ∀ h w, t₀.warps.look h = some w →
            ∃ w', t.warps.look h = some w' ∧ w' = { w with oc := w'.oc }
              ∧ w'.oc.get [] c = w.oc.get [] c ++ (if h ∈ e.hws then [{ op := s.nextId, done := false }] else [])))

/-! ## Matrix, scheduling and system instructions -/

/-- MMA, MMAS and MMAX whose operands pass the checks enter oc4 and the array of their quarter, in order; with sparse operands, operands in
global memory or a protection class their warp is parked. While four instructions stand in the array they do not issue. With no active
thread only the operands-consumed arrival is made (R283, R293 to R297, R300). MZERO enters the array like a matrix instruction without
operands; MSTAT reads the engine's counts; MPIN and MUNPIN enter oc4 with their range, or with length 0 where it is not a multiple of 128
bytes up to 16 MiB (R302, R304, R305). Where the spec leaves a choice here, the model's is in log entry 137. -/
def Obligations.MatrixInstructionsEnterTheArray : Prop :=
  (∀ (f : FmtX) (s : State) (e : Env), s.LaneIssues f.msel f.pclass e → (f.sparse = 0 ∨ s.feature 2 = true) → e.regsOk (mtxRegs f) = true →
     let parks := decide (f.sparse.toNat ≠ 0 ∨ f.opsrc.toNat = 2 ∨ e.pclass ≠ 0)
     ∀ p ∈ ([(.mma f, .mma, false, true), (.mmas f, .mmas, true, true), (.mmax f, .mmax, false, false)]
         : List (Instr × OpKind × Bool × Bool)),
       let m := mtxOf f p.2.2.1 p.2.2.2 e (e.act.headD 0)
       let row := fun th => m.high + (e.t.thread th).vreg f.arow.toNat
       let lanes := e.act.map (fun th => ({ lane := e.t.laneOf th, thread := th, space := m.space, addr := row th } : Acc))
       (e.act ≠ [] → e.Same (fun th => (e.t.thread th).vpair f.bdesc.toNat) →
         (f.nobar.toNat = 1 ∨ e.Same (fun th => (e.t.thread th).vreg f.bar.toNat)) →
         s.itemFault e (m.alignItems e row ++ e.act.flatMap (fun th => m.barItem th (e.t.laneOf th)) ++ m.winItems e ++ m.items e row) = none →
         e.full 4 = false →
         exec p.1 s = .next (if s.arrayFull e.core e.w.quarter then s
           else s.arrayed e { e.op s p.2.1 (some 4) lanes with data := f.acc.toNat, mtx := m } parks))
       ∧ (e.act = [] →
         let m := mtxOf f p.2.2.1 p.2.2.2 e (e.all.headD 0)
         s.itemFault e (m.barItem (e.all.headD 0) (e.t.laneOf (e.all.headD 0))) = none →
         exec p.1 s = .next ((s.mtxArrive e.t e.tid m).advance e .issuing)))
  ∧ (∀ (f : FmtA) (s : State) (e : Env), s.Issues f.msel f.pclass e →
       let n := if f.md.toNat = 0 then 16 else if f.md.toNat = 1 then 32 else 64
       let status := s.mstat e f.md.toNat
       let va := fun th => if e.lead then e.t.sreg f.a.toNat else (e.t.thread th).vpair f.a.toNat
       let len := fun th => if e.lead then e.t.sreg f.b.toNat else (e.t.thread th).vreg f.b.toNat
       let th := e.agents.headD 0
       let bad := decide (len th = 0 ∨ len th % 128 ≠ 0 ∨ 2 ^ 24 < len th)
       let pages := if bad then [] else (upFrom (va th / 2 ^ 21) ((va th + len th - 1) / 2 ^ 21 + 1 - va th / 2 ^ 21)).flatMap (fun p =>
         let lo := max (va th) (p * 2 ^ 21)
         e.agents.flatMap (fun x => pageItems x (e.laneOf x) 0 lo (min (va th + len th) ((p + 1) * 2 ^ 21) - lo)))
       (e.fid.isSome = true → e.act ≠ [] → f.dst.toNat + n ≤ e.t.nregs → e.full 4 = false → s.arrayFull e.core e.w.quarter = false →
         exec (.mzero f) s = .next (s.arrayed e { e.op s .mzero (some 4) e.idleLanes with
           data := f.dst.toNat, mtx := { n := n, checked := true, metaOk := true } } (decide (e.pclass ≠ 0))))
       ∧ (e.fid.isSome = true → f.dst.toNat + 2 ≤ e.t.nregs → exec (.mstat f) s = .next (s.laneWrote e (fun _ _ =>
           [(f.dst.toNat, status % 2 ^ 32), (f.dst.toNat + 1, status / 2 ^ 32 % 2 ^ 32)])))
       ∧ (e.agents ≠ [] → (e.fid.isSome = true → e.regsOk [(f.a.toNat, 2), (f.b.toNat, 1), (f.dst.toNat, 1)] = true ∧ e.Same va ∧ e.Same len) →
         e.full 4 = false → va th % 128 = 0 → s.itemFault e pages = none → (∀ i ∈ pages, s.needsWalk e i.want = false) →
         ∀ p ∈ ([(.mpin f, .mpin), (.munpin f, .munpin)] : List (Instr × OpKind)),
           exec p.1 s = .next (s.launched e { e.op s p.2 (some 4) e.idleLanes with
             data := f.dst.toNat, args := [va th, if bad then 0 else len th] })))

/-- STEP returns at once where its team is not to wait; else the lead thread's counts an arrival and parks it, and a formed warp's counts one
in each home warp concerned and parks the warp until the launch has had as many boundaries. DIEQ and HOPS read the context's dies, and
YIELD leaves at most one clock of the quantum (R388, R389, R390). NOP has no effect. TIMRD reads the core's clock and TIMARM arms the
timer with its operand after returning its old word, for the lead thread at once; from a formed warp both are handed to the lead engine
and park it (R116, R117, R125, R126). Where the spec leaves a choice here, the model's is in log entries 50, 58 and 136. -/
def Obligations.SchedulingAndSystemInstructionsComplete : Prop :=
  (∀ (f : FmtA) (s : State) (e : Env), s.Issues f.msel f.pclass e →
     let k := s.ctx e.t.ctx
     let l := s.launchOf e.t
     let d := f.dst.toNat
     let put := fun (n : Nat) (val : Nat → Nat) => (s.putResult e d n val).advance e .issuing
     let a := fun th => e.single f.za f.a.toNat th
     let b := fun th => e.single f.zb f.b.toNat th
     (e.fid = none ∨ e.act ≠ [] →
       ((e.fid.isSome = true → d + 2 ≤ e.t.nregs) → f.md.toNat % 2 = 1 ∨ l.elastic = false ∨ e.t.withdrawn = true →
         exec (.step f) s = .next (put 2 (fun _ => s.stepValue e.t)))
       ∧ (e.fid = none → f.md.toNat % 2 = 0 → l.elastic = true → e.t.withdrawn = false →
         let s' := (s.updTeam e.tid (fun t => { t with arrived := e.t.arrived + 1 })).boundaryDue e.t
         exec (.step f) s = .next (s'.parkedOn e { e.op s' .step none e.idleLanes with data := d, args := [e.t.arrived + 1] }))
       ∧ (e.fid.isSome = true → d + 2 ≤ e.t.nregs → f.md.toNat % 2 = 0 → l.elastic = true → e.t.withdrawn = false →
         let s' := e.hws.foldl (fun s h => s.updHw e.tid h (fun w => { w with steps := w.steps + 1 })) s
         let k := e.hws.foldl (fun m h => max m ((e.t.warps.get {} h).steps + 1)) 0
         exec (.step f) s = .next (if k ≤ l.boundaries then (s'.putResult e d 2 (fun _ => s'.stepValue e.t)).advance e .issuing
           else s'.parkedOn e { e.op s' .step none e.idleLanes with data := d, args := [k] }))
       ∧ exec (.yield f) s = .next ((s.updTeam e.tid (fun t => if t.expired then t else { t with quantum := min t.quantum 1 })).advance e .issuing))
     ∧ ((e.fid.isSome = true → e.regsOk [(f.a.toNat, if f.za then 0 else 1), (d, 1)] = true) →
       exec (.dieq f) s = .next (put 1 (fun th => if f.md.toNat % 4 = 0 then l.dies else if f.md.toNat % 4 = 1 then k.dieCount
         else if a th < k.dieCount then popcount (k.coresOf (a th)) 20 else 0)))
     ∧ ((e.fid.isSome = true → e.regsOk [(f.a.toNat, if f.za then 0 else 1), (f.b.toNat, if f.zb then 0 else 1), (d, 1)] = true) →
       exec (.hops f) s = .next (put 1 (fun th => if a th < k.dieCount ∧ b th < k.dieCount then
         (let x := k.phys (a th)
          let y := k.phys (b th)
          if x = y then 0 else if x / 2 = y / 2 then 1 else if x / 2 + y / 2 = 3 then 3 else 2) else 0xFFFFFFFF))))
  ∧ (∀ (f : FmtA) (s : State) (e : Env), s.Issues f.msel f.pclass e →
       let d := f.dst.toNat
       let n := if f.za then 0 else e.t.sreg f.a.toNat
       let lane := fun th => if f.za then 0 else (e.t.thread th).vreg f.a.toNat
       let asked := fun (kind : OpKind) (args : List Nat) =>
         s.parkedOn e { e.op s kind none e.idleLanes with data := d, args := args }
       exec (.nop f) s = .next (s.advance e .issuing)
       ∧ (e.fid = none →
           exec (.timrd f) s = .next (s.leadWrote e d (s.core e.core).clock)
           ∧ exec (.timarm f) s = .next (((s.setS e.tid d e.t.lead.timer.word).updLead e.tid (fun l => { l with timer :=
               if n % 2 ^ 32 = 0 then { l.timer with armed := false, fired := false, cut := false }
               else { remain := n % 2 ^ 32, cut := false, fired := false, armed := true } })).advance e .issuing)
           ∧ (e.last = true → e.t.lead.hmode = false →
             exec (.halt f) s = .next (((s.updLead e.tid (fun l => { l with run := .halting })).trapNext e.tid).releasePort e)))
       ∧ (e.fid.isSome = true → e.act ≠ [] →
           (d + 2 ≤ e.t.nregs → exec (.timrd f) s = .next (asked .timrd []))
           ∧ (e.regsOk [(f.a.toNat, if f.za then 0 else 1), (d, 1)] = true → e.Same lane →
             exec (.timarm f) s = .next (asked .timarm [lane (e.act.headD 0)]))))

/-- SVC reserves the next slot of the service ring for its record and IRQ names a vector of the context: the lead thread's enter oc7 at once,
a formed warp's are handed to the lead engine. In a replayable launch they raise 0x10; while oc7 is full they suspend; with no free slot
the lead thread's SVC raises 0x11, and above the count its IRQ raises 0x09 (R63, R117, R123, R124, R384). The record of a reserved service
slot is written once the accesses before it are complete; HEAD then advances past each written slot, and one that cannot be written is
logged with the code of its failure, one whose write the package network loses with 0x0A (R122, R123). An interrupt's message goes out
once the accesses before it are complete (R124). Where the spec leaves a choice here, the model's is in log entries 118 and 145. -/
def Obligations.ServiceCallsAndInterruptsAreQueuedAndGoOut : Prop :=
  (∀ (f : FmtA) (s : State) (e : Env), s.Issues f.msel f.pclass e → e.fid = none ∨ e.act ≠ [] →
     let k := s.ctx e.t.ctx
     let th := e.act.headD 0
     let arg := fun i th => e.pair f.zc (f.c.toNat + (if e.lead then i else 2 * i)) th
     let args := [e.pair f.za f.a.toNat th, e.pair f.zb f.b.toNat th, arg 0 th, arg 1 th, arg 2 th, arg 3 th]
     let v := e.single f.za f.a.toNat th
     let full := bit k.svcBase 4 = false ∨ 12 < k.svcBase % 16 ∨ (k.svcReserved + 2 ^ 32 - k.svcTail) % 2 ^ 32 = 2 ^ (k.svcBase % 16)
     let refuse : Raise := { code := 0x10, lanes := if e.lead then 0 else e.t.laneMask e.act }
     let svcOk := e.fid.isSome = true →
       e.regsOk [(f.a.toNat, if f.za then 0 else 2), (f.b.toNat, if f.zb then 0 else 2), (f.c.toNat, if f.zc then 0 else 8)] = true
         ∧ e.Same (e.pair f.za f.a.toNat) ∧ e.Same (e.pair f.zb f.b.toNat) ∧ ∀ i < 4, e.Same (arg i)
     let irqOk := e.fid.isSome = true → e.regsOk [(f.a.toNat, if f.za then 0 else 1)] = true ∧ e.Same (e.single f.za f.a.toNat)
     (s.replayable e.t = true →
       (svcOk → exec (.svc f) s = .next (s.takeTrap e 0 7 e.idx refuse)) ∧ (irqOk → exec (.irq f) s = .next (s.takeTrap e 0 7 e.idx refuse)))
     ∧ (s.replayable e.t = false → e.full 7 = true →
       (svcOk → exec (.svc f) s = .next (s.block e (.counterFull 7 e.hws))) ∧ (irqOk → exec (.irq f) s = .next (s.block e (.counterFull 7 e.hws))))
     ∧ (s.replayable e.t = false → e.full 7 = false → e.fid = none →
       (¬full → exec (.svc f) s = .next ((s.updCtx e.t.ctx (fun k => { k with svcReserved := (k.svcReserved + 1) % 2 ^ 32 })).launched e
           { e.op s .svc (some 7) e.idleLanes with args := args ++ [k.svcReserved], started := true }))
       ∧ (full → exec (.svc f) s = .next (s.takeTrap e 0 7 e.idx { code := 0x11 }))
       ∧ (v < k.irqCount → exec (.irq f) s = .next (s.launched e { e.op s .irq (some 7) e.idleLanes with args := [v], started := true }))
       ∧ (k.irqCount ≤ v → exec (.irq f) s = .next (s.takeTrap e 0 7 e.idx { code := 0x09 })))
     ∧ (s.replayable e.t = false → e.full 7 = false → e.fid.isSome = true →
       (svcOk → exec (.svc f) s = .next (s.parkedOn e { e.op s .svc none e.idleLanes with args := args }))
       ∧ (irqOk → exec (.irq f) s = .next (s.parkedOn e { e.op s .irq none e.idleLanes with args := [v] }))))
  ∧ (∀ (s : State) (o : Op) (t : Team), s.liveOp s.arg.a = some o → s.teams.look o.tid = some t →
       let id := s.arg.a
       let c := t.ctx
       let slot := o.args.getD 6 0
       let va := (s.ctx c).svcBase / 2 ^ 12 * 2 ^ 12 + 64 * (slot % 2 ^ ((s.ctx c).svcBase % 16))
       let advanced := fun (u : State) =>
         let w := u.updCtx c (fun k => { k with svcWritten := k.svcWritten.ins slot })
         w.svcAdvance c ((w.ctx c).svcWritten.length + 1)
       (o.kind = .svc → o.started = true → s.accessesDone id o = true → (s.ctx c).svcWritten.has slot = false →
         let logged := fun (u : State) (code : Nat) => (u.ctxLog c
           { type := 5, severity := 2, code := code, engine := 7, vdie := t.vdie, core := o.core % 20, team := t.number,
             launch := s.identOf t, syndrome := slot, address := va }).1
         (∀ u, s.arg.b ≠ 1 → s.engineWrite c va (svcRecord s o t) = .ok u → exec .svcRecordWrite s = .next (advanced u))
         ∧ (∀ code, s.arg.b ≠ 1 → s.engineWrite c va (svcRecord s o t) = .error code →
           exec .svcRecordWrite s = .next (advanced (logged s code)))
         ∧ (∀ u, s.arg.b = 1 → s.engineWrite c va ((upFrom 0 (svcRecord s o t).length).map s.freeByte) = .ok u →
           exec .svcRecordWrite s = .next (advanced (logged u.drawn 0x0A))))
       ∧ (o.kind = .irq → o.started = true → s.accessesDone id o = true →
         exec .irqMsiPost s = .next ((s.ctxMsi c (2 + o.args.getD 0 0)).endOp id))
       ∧ (s.accessesDone id o = false → exec .svcRecordWrite s = .next s ∧ exec .irqMsiPost s = .next s))

/-! ## Traps -/

/-- The lead thread's own fault, where the context has a handler and the lead thread is not in it, is delivered at once: the instruction has
no effect on the registers, s120 to s127 are saved, the trap registers say what met it, and the lead thread stands at the handler in
handler mode, with the return address at the faulting instruction (R71, R82, R83, R86). With no handler, and for the lead thread's own
fault in handler mode, the launch is handed over to be killed with the fault's code; a launch that is being killed keeps its first cause
(R71, R81, R82). Where the spec leaves a choice here, the model's is in log entries 125 and 149. -/
def Obligations.LeadFaultsEnterTheHandlerOrKillTheLaunch : Prop :=
  (∀ (s : State) (msel : BitVec 4) (pclass : BitVec 2) (e : Env) (engine : Nat) (r : Raise), s.LeadIssues msel pclass e →
     ∀ t₀, s.teams.look e.tid = some t₀ → t₀.lead.hmode = false → (s.ctx e.t.ctx).trapBase ≠ 0 → r.code ≠ 0x0A →
     ∃ t, (s.raise e engine e.idx r).teams.look e.tid = some t ∧ t = { t₀ with lead := t.lead } ∧
       let l := t.lead
       l.hmode = true ∧ l.pc = (s.ctx e.t.ctx).trapBase ∧ l.idx = 0 ∧ l.run = .running .unfetched
         ∧ l.trap.code = r.code ∧ l.trap.kind = 0 ∧ l.trap.leadf = true ∧ l.trap.clause = e.pc ∧ l.trap.index = e.idx
         ∧ l.trap.homewarp = 0xFFFF ∧ l.trap.addr = r.addr ∧ l.trap.info = r.info ∧ l.trap.pclass = pclass.toNat
         ∧ l.retPc = e.pc ∧ l.retIdx = (if e.idx = 31 then 0 else e.idx)
         ∧ l.regs = t₀.lead.regs ∧ (∀ i < 8, l.saves.get 0 i = t₀.lead.regs.get 0 (120 + i))
         ∧ l.queue = t₀.lead.queue ∧ l.oc = t₀.lead.oc ∧ l.timer = t₀.lead.timer)
  ∧ (∀ (s : State) (msel : BitVec 4) (pclass : BitVec 2) (e : Env) (engine : Nat) (r : Raise) (l : Launch), s.Issues msel pclass e →
       s.launches.look e.t.launch = some l →
       (s.ctx e.t.ctx).trapBase = 0 ∨ (e.fid = none ∧ e.t.lead.hmode = true) ∨ r.code = 0x0A →
       (s.raise e engine e.idx r).launches.look e.t.launch = some { l with killing := some (l.killing.getD r.code) })

/-- A formed warp's fault parks the warp at the faulting instruction, with no register of its threads changed, and is delivered to the lead
thread of its team: at once where the lead thread can enter, else queued behind the traps of earlier clocks (R71 to R73, R82, R84). Where
the spec leaves a choice here, the model's is in log entries 126 and 127. -/
def Obligations.LaneFaultsParkTheWarp : Prop :=
  ∀ (s : State) (msel : BitVec 4) (pclass : BitVec 2) (e : Env) (fid engine : Nat) (r : Raise), s.LaneIssues msel pclass e →
    e.fid = some fid → ∀ t₀, s.teams.look e.tid = some t₀ → (s.ctx e.t.ctx).trapBase ≠ 0 → r.code ≠ 0x0A →
    ∃ t, (s.raise e engine e.idx r).teams.look e.tid = some t ∧ t = { t₀ with lead := t.lead, formed := t.formed, warps := t.warps }
      ∧ t.formed.look fid = some { e.w with run := .blocked .trap }
      ∧ (t₀.lead.canEnter = true → t.lead.hmode = true ∧ t.lead.pc = (s.ctx e.t.ctx).trapBase ∧ t.lead.trap.code = r.code
          ∧ t.lead.trap.leadf = false ∧ t.lead.trap.clause = e.pc ∧ t.lead.trap.index = e.idx ∧ t.lead.trap.lanes = r.lanes
          ∧ t.lead.trap.active = e.t.laneMask e.all ∧ t.lead.trap.fid = some fid ∧ t.lead.queue = t₀.lead.queue
          ∧ (∀ i < 8, t.lead.saves.get 0 i = t₀.lead.regs.get 0 (120 + i)))
      ∧ (t₀.lead.canEnter = false → ∃ tr, t.lead = { t₀.lead with queue := insertTrap tr t₀.lead.queue } ∧ tr.code = r.code
          ∧ tr.fid = some fid ∧ tr.index = e.idx)

/-- TRAP, by the lead thread outside its handler or by a formed warp with an active thread, goes on past its instruction and takes a trap of
KIND 2 with its immediate as INFO; with no active thread it only goes on; in the handler it is illegal. The lead thread's own TRAP enters
the handler at once, with the instruction after it to return to; with no handler the launch is killed with 0x14 (R81, R82, R118). ERET is
legal only for the lead thread in handler mode; ABORT hands the launch over to be killed with code 0x14, and every other action returns:
to a RESUME address that holds a legal header, or where the trap interrupted. A RESUME address that is no legal header is illegal
encoding, and so is the action SKIP after a header fault (R87, R119). Where the spec leaves a choice here, the model's is in log entries
16, 19, 20 and 158. -/
def Obligations.TrapAndEretEnterAndLeaveTheHandler : Prop :=
  (∀ (f : FmtI) (s : State) (e : Env), s.Issues f.msel f.pclass e →
     let trapped := (s.advance e .issuing).takeTrap e 2 7 e.idx { code := 0, info := wrap f.imm.toInt 64 }
     (e.fid = none → e.t.lead.hmode = false → exec (.trap f) s = .next trapped)
     ∧ (e.fid = none → e.t.lead.hmode = true → exec (.trap f) s = .next (s.takeTrap e 0 7 e.idx { code := 0x01 }))
     ∧ (e.fid.isSome = true → e.act ≠ [] → exec (.trap f) s = .next trapped)
     ∧ (e.fid.isSome = true → e.act = [] → exec (.trap f) s = .next (s.advance e .issuing))
     ∧ (e.fid = none → e.t.lead.hmode = false → (s.ctx e.t.ctx).trapBase ≠ 0 → e.header ≠ 0 → e.idx < e.count →
       ∀ t₀, s.teams.look e.tid = some t₀ → ∃ t, trapped.teams.look e.tid = some t ∧ t = { t₀ with lead := t.lead } ∧ t.lead.hmode = true
         ∧ t.lead.pc = (s.ctx e.t.ctx).trapBase ∧ t.lead.trap.kind = 2 ∧ t.lead.trap.info = wrap f.imm.toInt 64
         ∧ t.lead.retPc = (if e.last then e.pc + 8 * (e.count + 1) else e.pc) ∧ t.lead.retIdx = (if e.last then 0 else e.idx + 1)
         ∧ t.lead.regs = t₀.lead.regs ∧ (∀ i < 8, t.lead.saves.get 0 i = t₀.lead.regs.get 0 (120 + i)))
     ∧ ((s.ctx e.t.ctx).trapBase = 0 → ∀ l, s.launches.look e.t.launch = some l →
       trapped.launches.look e.t.launch = some { l with killing := some (l.killing.getD 0x14) }))
  ∧ (∀ (f : FmtA) (s : State) (e : Env), s.LeadIssues f.msel f.pclass e → e.last = true →
       let action := f.md.toNat % 4
       let tr := e.t.lead.trap
       (e.t.lead.hmode = false → exec (.eret f) s = .next (s.takeTrap e 0 7 e.idx { code := 0x01 }))
       ∧ (e.t.lead.hmode = true →
         (action = 3 → exec (.eret f) s = .next ((s.releasePort e).killLaunch e.t.launch 0x14))
         ∧ (action = 0 → tr.kind = 0 → s.GoodTarget e tr.leadf e.t.lead.resume.toNat →
           (s.headerAt e tr.leadf e.t.lead.resume.toNat = true → exec (.eret f) s = .next ((s.releasePort e).returnFromTrap e.tid action))
           ∧ (s.headerAt e tr.leadf e.t.lead.resume.toNat = false → exec (.eret f) s = .next (s.takeTrap e 0 7 e.idx { code := 0x01 })))
         ∧ (action = 0 → tr.kind = 0 → s.checkTarget e tr.leadf 0 e.t.lead.resume.toNat = .fault 0x03 →
           exec (.eret f) s = .next (s.takeTrap e 0 7 e.idx { code := 0x01 }))
         ∧ (action = 2 → tr.kind = 0 → tr.index = 31 → exec (.eret f) s = .next (s.takeTrap e 0 7 e.idx { code := 0x01 }))
         ∧ (action = 1 ∨ (action = 2 ∧ (tr.kind ≠ 0 ∨ tr.index ≠ 31)) ∨ (action = 0 ∧ tr.kind ≠ 0) →
           exec (.eret f) s = .next ((s.releasePort e).returnFromTrap e.tid action))))

/-- What a return restores: s120 to s127 as they were saved, every other register as the handler left it, handler mode cleared, and the place:
RESUME, the interrupted instruction, or the one after it; an access on which the lead thread was parked parks it again, and one that had
halted halts again. Where a trap is queued, the handler is entered for it then, if there is one (R84, R85, R87). -/
def Obligations.ReturnsRestoreTheLeadThread : Prop :=
  ∀ (s : State) (tid action : Nat) (t : Team), s.teams.look tid = some t → t.lead.hmode = true → t.lead.regs.rising = true → action < 3 →
    let l := t.lead
    let own := l.trap.leadf = true ∧ l.trap.kind = 0
    let l' := l.leaveHandler action
    (l.queue = [] → ∃ t', (s.returnFromTrap tid action).teams.look tid = some t' ∧ t'.lead = l')
      ∧ (∀ tr rest, l.queue = tr :: rest → (s.ctx t.ctx).trapBase ≠ 0 → ∃ t', (s.returnFromTrap tid action).teams.look tid = some t'
          ∧ t'.lead.hmode = true ∧ t'.lead.trap = tr ∧ t'.lead.queue = rest ∧ t'.lead.pc = (s.ctx t.ctx).trapBase)
      ∧ l'.hmode = false ∧ (∀ i < 8, l'.regs.get 0 (120 + i) = l.saves.get 0 i) ∧ (∀ n, n < 120 ∨ 127 < n → l'.regs.get 0 n = l.regs.get 0 n)
      ∧ (l.revived = true → l'.run = .halting)
      ∧ (l.revived = false →
        l'.run = .running (match l.retWhy with
          | some w => .blocked w
          | none => .unfetched)
        ∧ (¬own ∨ action = 1 → l'.pc = l.retPc ∧ l'.idx = l.retIdx)
        ∧ (own → action = 0 → l'.pc = l.resume.toNat ∧ l'.idx = 0)
        ∧ (own → action = 2 → l.trap.index + 1 < l.trap.count → l'.pc = l.retPc ∧ l'.idx = l.retIdx + 1)
        ∧ (own → action = 2 → l.trap.count ≤ l.trap.index + 1 → l'.pc = l.retPc + 8 * (l.trap.count + 1) ∧ l'.idx = 0))

/-! ## Saddle microcode -/

/-- LDH reads a value of the packet, its tile, the port or the package; SETH and ADDH write registers with sign-extended immediates; CMPJ and
JMP set the pc. Each moves the handler past the instruction and counts it (R406). COMB inserts the packet's node in the chunk context and
combines it upward; a node of absent leaves, and one that the context holds already, is not inserted. TMO fills what is missing beside
every held node, and of a gather writes the backups in their places, going on where a write had to wait for a translation; BKUP keeps a
backup beside the context; FWD and MCST send the node formed, or else the packet. Without a key in the collective's slot COMB and TMO form
nothing (R406 to R409, R413, R418). Where the spec leaves a choice here, the model's is in log entries 70, 156 and 176. -/
def Obligations.MicrocodeMovesCombinesAndSends : Prop :=
  (∀ (s : State) (p k : Nat) (h : Handler), s.who = .handler p k → (s.port p).handlers.look k = some h → h.disposed = true ∨ h.count < 256 →
     let h' : Handler := { h with pc := (h.pc + 1) % 4096, count := h.count + 1 }
     let wrote := fun (r : BitVec 4) (v : Nat) => ({ h' with regs := h.regs.set 0 r.toNat (BitVec.ofNat 64 v) } : Handler)
     let reg := fun (r : BitVec 4) => (h.regs.get 0 r.toNat).toNat
     (∀ d, ∀ q ∈ ([(0, if h.timer then 0 else h.pkt.kind), (1, h.pkt.coll), (2, h.pkt.tile), (3, h.pkt.chunk), (4, h.pkt.lo), (5, h.pkt.hi),
         (6, h.pkt.round), (7, h.pkt.src), (8, h.pkt.data.length), (9, h.pkt.addr), (10, h.pkt.dctr), (0x20, p), (0x21, s.pkg),
         (0x22, (s.port p).clock)] : List (Nat × Nat)),
       exec (.ucLdh d (BitVec.ofNat 8 q.1)) s = .next (s.drawn.putHandler p k (wrote d q.2)))
     ∧ (∀ d i, exec (.ucSeth d i) s = .next (s.putHandler p k (wrote d (i.signExtend 64).toNat)))
     ∧ (∀ d a i, exec (.ucAddh d a i) s = .next (s.putHandler p k (wrote d (reg a + (i.signExtend 64).toNat))))
     ∧ (∀ t, exec (.ucJmp t) s = .next (s.putHandler p k { h' with pc := t.toNat }))
     ∧ (∀ a b c t, c.toNat < 4 ∨ (c.toNat < 6 ∧ b = 0) →
       let yes := match c.toNat with
         | 0 => decide (reg a = reg b)
         | 1 => decide (reg a ≠ reg b)
         | 2 => decide (reg a < reg b)
         | 3 => decide (reg b ≤ reg a)
         | 4 => decide (reg a = 0)
         | _ => decide (reg a ≠ 0)
       exec (.ucCmpj a b c t) s = .next (s.putHandler p k { h' with pc := if yes then t.toNat else h'.pc })))
  ∧ (∀ (s : State) (p k : Nat) (h : Handler), s.who = .handler p k → (s.port p).handlers.look k = some h → h.disposed = true ∨ h.count < 256 →
       let h' : Handler := { h with pc := (h.pc + 1) % 4096, count := h.count + 1 }
       let done : Handler := { h' with disposed := true }
       let ended : Handler := { h'.setReg 15 0 with disposed := true, formed := none, wait := none }
       let gone := fun (s : State) => s.putHandler p k ended
       (∀ c : BitVec 4, (s.keyOf h.pkt.coll).valid = false → exec (.ucComb c) s = .next (gone s) ∧ exec (.ucTmo c) s = .next (gone s))
       ∧ (∀ (c : BitVec 4) i x, (s.keyOf h.pkt.coll).valid = true → h'.reg c.toNat = i → i < 0x1000 → (s.port p).chunks.look i = some x →
         let e := x.entry
         let n := { h.pkt.node with lo := h'.reg 3 % 2 ^ 16, hi := h'.reg 4 % 2 ^ 16 }
         let range := upFrom n.lo (n.hi - n.lo)
         let leaf := n.hi = n.lo + 1
         let esite := e.esite (s.trusts (s.coll x.coll).keySlot)
         (isNode treeFuel 0 e.ncontrib n.lo n.hi = false → exec (.ucComb c) s = .next (gone s))
         ∧ (isNode treeFuel 0 e.ncontrib n.lo n.hi = true →
           (x.tomb = true ∨ (∃ j ∈ range, x.gone.has j = true) →
             exec (.ucComb c) s = .next (gone (if leaf then s.latePacket h.pkt else s)))
           ∧ (x.tomb = false → (∀ j ∈ range, x.gone.has j = false) →
             ((∃ m ∈ x.nodes, m.lo = n.lo ∧ m.hi = n.hi) →
               exec (.ucComb c) s = .next (gone (s.updPort p (fun q => { q with dup := satNat (q.dup + 1) 0xFFFF }))))
             ∧ ((∀ m ∈ x.nodes, ¬(m.lo = n.lo ∧ m.hi = n.hi)) →
               exec (.ucComb c) s = .next ((if leaf ∧ h.pkt.kind ≠ 7 then s.answer h.pkt 9 else s).ucFormed p k i h'
                 (climb e esite s.pkg treeFuel { x with
                   covered := range.foldl NatSet.ins x.covered,
                   backups := x.backups.filter (fun b => !(decide leaf && b.lo == n.lo)) } n 0) e))))
         ∧ ((s.coll x.coll).kind = 3 →
           let out := s.gatherTimeout p i x e h.wait ((upFrom 0 e.ncontrib).filter (fun j => !x.covered.has j && !x.gone.has j))
           (∀ t, out = .done t → exec (.ucTmo c) s = .next (t.putHandler p k ended))
           ∧ (∀ t w, out = .wait t w → exec (.ucTmo c) s = .next (t.putHandler p k
               { h' with pc := (h'.pc + 4095) % 4096, count := h'.count - 1, wait := w }))
           ∧ (∀ t va, out = .fail t va → exec (.ucTmo c) s = .next ((t.putHandler p k ended).tileError x.coll x.tile va)))
         ∧ ((s.coll x.coll).kind ≠ 3 →
           let r := fillUp e esite s.pkg (e.ncontrib + 1) x 0
           let s' := if x.backups.any (fun b => r.x.gone.has b.lo) && decide ((s.tile x.coll x.tile).round = x.round)
             then s.updTile x.coll x.tile (fun t => { t with sflags := Nat.lor t.sflags 8 }) else s
           exec (.ucTmo c) s = .next (s'.ucFormed p k i h' r e))
         ∧ exec (.ucBkup c) s = .next ((s.updPort p (fun q => { q with chunks := q.chunks.put i (
               if x.tomb || x.covered.has h.pkt.lo || x.gone.has h.pkt.lo then x else { x with backups := x.backups ++ [h.pkt.node] }) })).putHandler p k done))
       ∧ (∀ r : BitVec 4, exec (.ucFwd r) s = .next ((s.sendColl (h'.reg r.toNat) (h.formed.getD h.pkt)).putHandler p k done))
       ∧ (∀ e, s.handlerEntry p h.pkt = some e →
         exec .ucMcst s = .next ((e.packages.foldl (fun s d => s.sendColl d (h.formed.getD h.pkt)) s).putHandler p k done)))

/-- HOLD moves the packet to the collective's reservation and frees its context, or with no room there acts as DROP with reason 2, and the
handler goes on; DROP disposes of it; GATH and DONE write a payload where it belongs; CNTA adds to a receive counter; END frees the
context and acknowledges a put (R406, R410, R412, R415). More than 256 instructions without a disposal, a word that names no context, and
END before a disposal end the handler: its context is freed, UCERR counts, and the management MSI is raised (R406). Where the spec leaves
a choice here, the model's is in log entries 71, 77, 80 and 141. -/
def Obligations.MicrocodeDisposesOfPacketsOrFaults : Prop :=
  (∀ (s : State) (p k : Nat) (h : Handler), s.who = .handler p k → (s.port p).handlers.look k = some h → h.disposed = true ∨ h.count < 256 →
     let h' : Handler := { h with pc := (h.pc + 1) % 4096, count := h.count + 1 }
     let done : Handler := { h' with disposed := true }
     let free := s.updPort p (fun q => { q with handlers := q.handlers.del k })
     let q := h.pkt
     let x := s.tile q.coll q.tile
     let c := s.coll q.coll
     (∀ m : BitVec 1, s.cbufFull q.coll (32 + q.data.length + (if q.kind = 6 then 64 else 0)) = false →
       exec (.ucHold m) s = .next (free.updSad (fun d => { d with
         held := d.held.put d.nextHeld { pkt := q, fired := m == 1, h5 := h'.reg 5 }, nextHeld := d.nextHeld + 1 })))
     ∧ (∀ m : BitVec 1, s.cbufFull q.coll (32 + q.data.length + (if q.kind = 6 then 64 else 0)) = true →
       exec (.ucHold m) s = .next ((s.putHandler p k done).tileError q.coll q.tile 0))
     ∧ (∀ r : BitVec 4, exec (.ucDrop r) s = .next (
         let t := s.putHandler p k done
         if h'.reg r.toNat = 1 then (if h.timer then t else t.latePacket q) else if h'.reg r.toNat = 2 then t.tileError q.coll q.tile 0 else t))
     ∧ (∀ (a : BitVec 4) t l, q.kind ≠ 10 →
       let bs := if q.kind = 12 then q.written ((x.entry.map (·.out)).getD q.fmt) else withPoison q.data q.poison
       s.reach p c.ctx (h'.reg a.toNat) bs.length true h.wait = .go t l →
       exec (.ucGath a) s = .next ((t.writePieces l bs).putHandler p k { done with wait := none }))
     ∧ (∀ (a : BitVec 4) t l, q.kind = 10 → h.err = false → s.putRefused p q = false →
       s.reach p (s.awl p).ctx (h'.reg a.toNat) q.data.length true h.wait = .go t l →
       exec (.ucGath a) s = .next ((t.writePieces l (withPoison q.data q.poison)).putHandler p k { done with wait := none }))
     ∧ (∀ e, x.entry = some e → e.result = 0 ∨ x.round ≠ q.round →
       exec .ucDone s = .next ((if q.kind = 12 ∨ q.kind = 13 then s.answer q 9 else s).putHandler p k { done with wait := none }))
     ∧ (∀ e t l, x.entry = some e → e.result ≠ 0 → x.round = q.round → q.kind = 12 ∨ q.kind = 13 → 0x1000 ≤ h'.reg 7 →
       let bs := q.written e.out
       let gather := decide (q.kind = 12)
       s.reach p c.ctx (e.result + (if gather then q.lo * e.outTile c else 0) + q.chunk * 256 * elemBytes e.out) bs.length true h.wait = .go t l →
       exec .ucDone s = .next ((((t.writePieces l bs).updTile q.coll q.tile (fun t => { t with
         written := t.written.ins (if gather then q.lo * 64 + q.chunk else q.chunk), missing := Nat.lor t.missing q.missing
         nan := min t.nan (if (widen q.fmt q.data).any nan32 then q.lo else 0xFFFF),
         incomplete := t.incomplete || bit q.flags 0, sflags := if bit q.flags 1 then Nat.lor t.sflags 8 else t.sflags })).answer q 9).putHandler p k
           { done with wait := none }))
     ∧ (∀ e t l, x.entry = some e → e.result ≠ 0 → x.round = q.round → q.kind = 6 →
       s.reach p c.ctx (e.result + q.chunk * 256 * elemBytes e.out) q.data.length true h.wait = .go t l →
       exec .ucDone s = .next (((t.writePieces l (withPoison q.data q.poison)).updTile q.coll q.tile (fun t => { t with
         written := t.written.ins q.chunk, missing := Nat.lor t.missing q.missing, nan := min t.nan (q.addr % 2 ^ 16),
         incomplete := t.incomplete || bit q.flags 0, sflags := if bit q.flags 1 then Nat.lor t.sflags 8 else t.sflags })).putHandler p k
           { done with wait := none }))
     ∧ (∀ n b : BitVec 4, q.kind = 10 → h.err = false → s.putRefused p q = false → h.counted = false → h'.reg n.toNat < 4096 →
       bit q.flags 2 = false →
       let ctr := h'.reg n.toNat
       exec (.ucCnta n b) s = .next (((s.setCtr ctr ((s.ctr ctr).val.toNat + h'.reg b.toNat)).awlEvent (s.ctr ctr).owner 1).putHandler p k
         { done with wait := none }))
     ∧ (h.disposed = true → exec .ucEnd s = .next (if q.kind = 10
         then free.sendPacket q.src { kind := 11, flags := 8 * b2n h.err, job := q.job, src := s.pkg, send := q.send } else free)))
  ∧ (∀ (s : State) (p k : Nat) (h : Handler), s.who = .handler p k → (s.port p).handlers.look k = some h → h.disposed = false →
       let ended := ((s.updPort p (fun q => { q with handlers := q.handlers.del k })).updPort p (fun q =>
         { q with ucerr := satNat (q.ucerr + 1) 0xFFFF })).pkgMsi 1
       (256 ≤ h.count → ∀ (t : BitVec 12) (d : BitVec 4) (i : BitVec 20), exec (.ucJmp t) s = .next ended ∧ exec (.ucSeth d i) s = .next ended)
       ∧ (h.count < 256 → exec .ucEnd s = .next ended
         ∧ ∀ c : BitVec 4, 0x1000 ≤ (h.regs.get 0 c.toNat).toNat → exec (.ucBkup c) s = .next ended
           ∧ ((s.keyOf h.pkt.coll).valid = true → exec (.ucComb c) s = .next ended ∧ exec (.ucTmo c) s = .next ended)))

/-! ## Awls -/

/-- The loads, stores and copies of an Awl reach the memory of its context at a translated, aligned address, and retire: awl.gld writes x[d],
awl.gst writes memory, awl.bget and awl.bput move 64 bytes between memory and local memory. A store to another package retires with its
acknowledgement; an access whose translation is missing, or whose answer is out, waits with the pc at it; one that is refused takes its
access fault, and a load that is poisoned or that the network has lost sets POISON with it (R429, R431 to R433). A misaligned context
access of an Awl takes its address-misaligned exception: mepc, mcause and mtval say where and why, the pc goes to mtvec, and with no
handler the hart halts with FAULT and the management MSI (R427, R432). Where the spec leaves a choice here, the model's is in log entries
89 and 167. -/
def Obligations.AwlContextAccessesMoveBytesOrTrap : Prop :=
  (∀ (st : State) (n : Nat), st.who = .awl n →
     let h := st.awl n
     let reach := fun (va len : Nat) (write : Bool) => st.reach n h.ctx va len write h.wait
     (∀ (s : BitVec 2) (a d : BitVec 5) t l, h.xr a.toNat % 2 ^ s.toNat = 0 → h.xr a.toNat < 2 ^ 52 →
       reach (h.xr a.toNat) (2 ^ s.toNat) false = .go t l → (∀ b ∈ (t.readPieces l).2, b.2 = false) →
       exec (.awlGld s a d) st = .next ((t.readPieces l).1.updAwl n (fun h => (h.setX d.toNat (natOf ((t.readPieces l).2.map (·.1)))).retire 4)))
     ∧ (∀ (s : BitVec 2) (b a : BitVec 5) t l, h.xr a.toNat % 2 ^ s.toNat = 0 → h.xr a.toNat < 2 ^ 52 →
       reach (h.xr a.toNat) (2 ^ s.toNat) true = .go t l →
       (farPieces l = [] → exec (.awlGst s b a) st = .next ((t.writePieces l ((bytesOf (2 ^ s.toNat) (h.xr b.toNat)).map (fun x => (x, false)))).updAwl n
         (fun h => h.retire 4)))
       ∧ (∀ pkg x k rest, farPieces l = (pkg, x, k) :: rest → t.wayTo pkg = true →
         exec (.awlGst s b a) st = .next { t.updAwl n (fun h => { h with access := .sent }) with
           sent := t.sent ++ [.awlStore n pkg x (bytesOf (2 ^ s.toNat) (h.xr b.toNat)) (l.any (·.bad))] }))
     ∧ (st.arg.opt = none → st.arg.d = 5 → st.arg.a = n → h.access = .sent → exec .readResponse st = .next (st.updAwl n (fun h => h.retire 4)))
     ∧ (∀ (s : BitVec 2) (a d : BitVec 5), h.xr a.toNat % 2 ^ s.toNat = 0 → h.xr a.toNat < 2 ^ 52 →
       let r := reach (h.xr a.toNat) (2 ^ s.toNat) false
       let w := reach (h.xr a.toNat) (2 ^ s.toNat) true
       let poisoned := fun (t : State) => (t.updAwl n (fun h => { h with poison := true })).awlTrap n 5 (h.xr a.toNat)
       (∀ t x, r = .wait t x → exec (.awlGld s a d) st = .next (t.updAwl n (fun h => { h with wait := x, access := .begun })))
       ∧ (∀ t x, w = .wait t x → exec (.awlGst s d a) st = .next (t.updAwl n (fun h => { h with wait := x, access := .begun })))
       ∧ (∀ t x y, r = .fail t x y → x ≠ 0x0A → exec (.awlGld s a d) st = .next (t.awlTrap n 5 (h.xr a.toNat)))
       ∧ (∀ t x y, w = .fail t x y → x ≠ 0x0A → exec (.awlGst s d a) st = .next (t.awlTrap n 7 (h.xr a.toNat)))
       ∧ (∀ t y, r = .fail t 0x0A y → exec (.awlGld s a d) st = .next (poisoned t))
       ∧ (∀ t l, r = .go t l → (∃ b ∈ (t.readPieces l).2, b.2 = true) → exec (.awlGld s a d) st = .next (poisoned (t.readPieces l).1)))
     ∧ (∀ (l a : BitVec 5) t ps, h.xr a.toNat % 64 = 0 → h.xr a.toNat < 2 ^ 52 → h.xr l.toNat % 64 = 0 → h.xr l.toNat + 64 ≤ 0x40000 →
       (reach (h.xr a.toNat) 64 false = .go t ps → (∀ b ∈ (t.readPieces ps).2, b.2 = false) →
         exec (.awlBget l a) st = .next ((t.readPieces ps).1.updAwl n (fun x =>
           (x.localWrite (h.xr l.toNat) ((t.readPieces ps).2.map (·.1))).retire 4)))
       ∧ (reach (h.xr a.toNat) 64 true = .go t ps → h.bad (h.xr l.toNat) 64 = false → farPieces ps = [] →
         exec (.awlBput l a) st = .next ((t.writePieces ps ((h.localBytes (h.xr l.toNat) 64).map (fun x => (x, false)))).updAwl n
           (fun h => h.retire 4)))))
  ∧ (∀ (st : State) (n : Nat) (cause tval : Nat),
       let a := st.awl n
       let taken := fun (cause tval : Nat) => if a.mtvec.toNat / 4 = 0
         then (st.updAwl n (fun a => { a with fault := true, cause := cause % 256, wait := none, access := .none })).pkgMsi 1
         else st.updAwl n (fun a => { a with
           mepc := a.pc, mcause := BitVec.ofNat 64 cause, mtval := BitVec.ofNat 64 tval,
           mpie := a.mie, mie := false, pc := BitVec.ofNat 64 (a.mtvec.toNat / 4 * 4), wait := none, access := .none })
       (st.arg.a = n → st.arg.b = cause → st.arg.c = tval → exec .awlException st = .next (taken cause tval))
       ∧ (st.who = .awl n → ∀ (s : BitVec 2) (x y : BitVec 5), a.xr x.toNat % 2 ^ s.toNat ≠ 0 →
         exec (.awlGld s x y) st = .next (taken 4 (a.xr x.toNat)) ∧ exec (.awlGst s y x) st = .next (taken 6 (a.xr x.toNat))))

/-- The custom instructions on sends, counters and events: a triggered send is written from a local image and may fire at once; its state and
the counters of the port are read and written, and an index that the port does not own raises an access fault with the index in mtval;
awl.waitev takes the masked events that are pending, or waits (R434 to R436). -/
def Obligations.AwlCustomInstructionsComplete : Prop :=
  ∀ (st : State) (n : Nat), st.who = .awl n →
    let h := st.awl n
    let x := fun (r : BitVec 5) => h.xr r.toNat
    let gives := fun (t : State) (d : BitVec 5) (v : Nat) => t.updAwl n (fun h => (h.setX d.toNat v).retire 4)
    (∀ e i d : BitVec 5, x i % 64 = 0 → x i + 64 ≤ 0x40000 → h.rangeBase ≤ x e → x e < h.rangeBase + h.rangeCount → x e ≤ 8191 →
      h.bad (x i) 64 = false →
      let r := st.writeSend n (x e) (h.localBytes (x i) 64)
      exec (.awlTswr e i d) st = .next (gives r.1 d r.2))
    ∧ (∀ e d : BitVec 5, h.rangeBase ≤ x e → x e < h.rangeBase + h.rangeCount → x e ≤ 8191 →
      exec (.awlTsrd e d) st = .next (gives st d (st.send (x e)).ctl))
    ∧ (∀ c d : BitVec 5, x c < 4096 → (st.ctr (x c)).owner = n →
      exec (.awlRcrd c d) st = .next (gives st d (st.ctr (x c)).val.toNat)
      ∧ exec (.awlRcwr d c) st = .next ((st.setCtr (x c) (x d)).updAwl n (fun h => h.retire 4))
      ∧ exec (.awlRcadd d c) st = .next ((st.setCtr (x c) ((st.ctr (x c)).val.toNat + x d)).updAwl n (fun h => h.retire 4)))
    ∧ (∀ e i d : BitVec 5, x i % 64 ≠ 0 → exec (.awlTswr e i d) st = .next (st.awlTrap n 4 (x i)))
    ∧ (∀ e i d : BitVec 5, ¬(h.rangeBase ≤ x e ∧ x e < h.rangeBase + h.rangeCount ∧ x e ≤ 8191) →
      (x i % 64 = 0 → exec (.awlTswr e i d) st = .next (st.awlTrap n 7 (x e))) ∧ exec (.awlTsrd e d) st = .next (st.awlTrap n 5 (x e)))
    ∧ (∀ c d : BitVec 5, ¬(x c < 4096 ∧ (st.ctr (x c)).owner = n) →
      exec (.awlRcrd c d) st = .next (st.awlTrap n 5 (x c)) ∧ exec (.awlRcwr d c) st = .next (st.awlTrap n 7 (x c))
      ∧ exec (.awlRcadd d c) st = .next (st.awlTrap n 7 (x c)))
    ∧ (∀ m d : BitVec 5,
      let mask := x m % 32
      let now := Nat.land h.pend mask
      (mask ≠ 0 → now ≠ 0 → exec (.awlWaitev m d) st = .next (st.updAwl n (fun h =>
        (({ h with pend := Nat.land h.pend (31 - mask), waiting := .no } : Awl).setX d.toNat now).retire 4)))
      ∧ (mask ≠ 0 → now = 0 → exec (.awlWaitev m d) st = .next (st.updAwl n (fun h => { h with waiting := .events mask d.toNat })))
      ∧ (mask = 0 → exec (.awlWaitev m d) st = .next (st.updAwl n (fun h => { h with waiting := .halt d.toNat false }))))

/-! ## Steps of the machine: clauses, traps, retirement -/

/-- A fetched clause whose header passes the checks waits at its port with its words; a bad header raises 0x02 at index 31 (R46). Threads held
at a meeting header are released when every thread that expects the meeting is held, parked or gone (R181), or when one has been held for
65,536 clocks (R183); a reforming wait ends when every participant waits (R185). A suspended clause goes on when its condition has
cleared, and a suspended push then takes effect (R63, R110, R235). The first queued trap enters the handler as soon as the lead thread can
take it, or kills the launch if there is no handler any more (R81, R82, R84). An expired timer disarms itself, sets FIRED, and ends the
wait of its parties with CUT (R126, R127). A push stalled for 2^20 clocks raises 0x15 (R110). A halting lead thread ends when its counters
are empty; a team whose threads have all ended gives up its place, its quantum, its pins and its keep marks, and the cores that it held
offer their room (R97, R120, R214, R376, R381). Where the spec leaves a choice here, the model's is in log entries 15, 17, 40 and 134. -/
def Obligations.ClausesAreFetchedReleasedAndEnded : Prop :=
  (∀ (s : State) (t : Team), s.teams.look s.arg.a = some t →
     let tid := s.arg.a
     let fetched := fun (s : State) (e : Env) (h : DWord) (ws : List DWord) => (s.keepClause e.core e.t.ctx e.pc ws.length).setClause tid e.fid h ws
     (∀ r e h ws, s.arg.opt = none → s.mayIssue t = true → t.lead.run = .running .unfetched → s.codeSent t.core t.ctx t.lead.pc = (r, true) →
       r.partyEnv tid none = some e → r.readClause e.core e.t.ctx e.pc true = .ok h ws →
       (headerOk true h = true → (∀ c, Cls.ofCode (getHeader h).cls = some c → classOk true c = true) →
         exec .clauseFetch s = .next (fetched r e h ws))
       ∧ (headerOk true h = false → exec .clauseFetch s = .next (r.raise { e with header := h } 14 31 { code := 0x02 })))
     ∧ (∀ r q pc fid w e h ws, s.arg.opt = some q → s.arg.b = pc → s.mayIssue t = true → s.codeSent (t.coreOf q) t.ctx pc = (r, true) →
       r.teams.look tid = some t → r.mayIssue t = true → t.standing q pc .ready = [] → t.unfetched q pc = [(fid, w)] →
       (w.reformed = true ∨ ∀ th ∈ w.threads, (t.thread th).mustMeet pc = false) → r.partyEnv tid (some fid) = some e → e.core = t.coreOf q → e.pc = pc →
       r.readClause (t.coreOf q) t.ctx pc false = .ok h ws → reformMsel h ws = none → headerOk false h = true →
       (∀ c, Cls.ofCode (getHeader h).cls = some c → classOk false c = true) →
       exec .clauseFetch s = .next (fetched r e h ws))
     ∧ (∀ r q pc ths, s.arg.opt = some q → s.arg.b = pc → s.mayIssue t = true → s.codeSent (t.coreOf q) t.ctx pc = (r, true) →
       r.teams.look tid = some t → t.unfetched q pc = [] → t.standing q pc .ready = ths →
       r.holdCheck tid q pc = if r.laneHeader (t.coreOf q) t.ctx pc = true then
         ths.foldl (fun r th => r.updThread tid th (fun x => if x.mustMeet pc then { x with run := .held, holdcnt := 0 } else x)) r else r)
     ∧ (∀ core pc, s.codeNeeds core t.ctx pc = [] → s.ms.asks = [] → s.tainted (.fetch core) = false → s.ms.retry.look (Requester.fetch core).key = none →
       s.codeSent core t.ctx pc = (s, true))
     ∧ (let hw := s.arg.b
        let meet := s.arg.c
        let released := (t.heldAt hw meet).foldl (fun s th => s.updThread tid th (fun x =>
          { x with done := true, holdcnt := 0, run := .ready, since := (s.core t.core).clock })) s
        ((∀ p ∈ t.threads, t.hwOf p.1 = hw → p.2.live = true → p.2.meet = meet → p.2.done = false →
           (p.2.run = .held ∧ p.2.pc = meet) ∨ s.parked tid t p.1 = true) → exec .meetRelease s = .next released)
        ∧ ((∃ th ∈ t.heldAt hw meet, 65536 ≤ (t.thread th).holdcnt) → exec .holdcntExpiry s = .next released))
     ∧ (let hw := s.arg.b
        let q := (t.warps.get {} hw).quarter
        exec .reformRelease s = .next ((t.reformingAt hw).foldl (fun s pc => s.reformAt tid hw pc) s)
        ∧ ∀ pc h ws m, s.readClause (t.coreOf q) t.ctx pc false = .ok h ws → reformMsel h ws = some m →
         let ended := ∀ th ∈ t.participants m hw, (t.thread th).run = .reforming ∧ (t.thread th).pc = pc
         (ended → s.reformAt tid hw pc = s.formReformed tid t
           ((t.standing q pc .reforming ++ t.standing q pc .ready).filter (fun th => t.hwOf th == hw)) (t.participants m hw) q pc)
         ∧ (¬ended → s.reformAt tid hw pc = s))
     ∧ (let fid := s.arg.opt
        ∀ id o, s.blockedBy tid fid = some (.access id) → s.liveOp id = some o → o.tid = tid → o.kind = .spawn →
         s.agentsQuiet tid id (if o.fid.isNone then [leadThread] else o.party) = true →
         let r := s.spawnAt t.ctx (o.args.getD 0 0) (o.args.getD 1 0)
         let written := if o.fid.isNone then r.1.setS tid o.data r.2 else r.1.setV tid (o.lanes.map (fun a => (a.thread, [(o.data, r.2)])))
         exec .clauseResume s = .next ((written.unpark id).endOp id))
     ∧ (t.place = .resident →
        let fid := s.arg.opt
        (∀ q ths, t.whyOf fid = some (.queueEmpty q ths) → (∀ th ∈ ths, (s.entryFor t q th).isSome = true) →
           exec .clauseResume s = .next (s.wakeParty tid fid))
        ∧ (∀ q v r, t.whyOf fid = some (.queueFull q v r) → t.occupancy q < queueDepth q →
           let pushed := match r with
             | some x => (s.pushTo tid q v).setS tid x.1 x.2
             | none => s.pushTo tid q v
           exec .clauseResume s = .next (pushed.passOver tid fid))
        ∧ (∀ c hws, t.whyOf fid = some (.counterFull c hws) → t.countLe hws fid.isNone c 62 = true →
           exec .clauseResume s = .next (s.wakeParty tid fid))
        ∧ (∀ c n hws, t.whyOf fid = some (.counterWait c n hws) → t.countLe hws fid.isNone c n = true →
           exec .clauseResume s = .next (s.wakeParty tid fid))))
  ∧ (∀ (s : State) (t : Team), s.teams.look s.arg.a = some t →
       let tid := s.arg.a
       (∀ tr rest, t.lead.queue = tr :: rest → t.lead.canEnter = true →
           let s' := s.updLead tid (fun l => { l with queue := rest })
           let base := (s.ctx t.ctx).trapBase
           (base ≠ 0 → exec .trapEntry s = .next (((s'.abandonLead tid).freePort t.core 4 tid none).updLead tid (fun l => l.enterHandler tr base)))
           ∧ (base = 0 → exec .trapEntry s = .next (s'.killLaunch t.launch (if tr.kind = 2 then 0x14 else tr.code))))
       ∧ (s.arg.opt = none → t.lead.timer.armed = true → t.lead.timer.remain = 0 →
           let off := fun (cut : Bool) (m : Timer) => ({ m with armed := false, fired := true, cut := m.cut || cut } : Timer)
           (t.whyOf none = none → exec .timerExpiry s = .next (s.updLead tid (fun l => { l with timer := off false l.timer })))
           ∧ (∀ q v r, t.whyOf none = some (.queueFull q v r) →
               exec .timerExpiry s = .next ((s.passOver tid none).updLead tid (fun l => { l with timer := off true l.timer })))
           ∧ (∀ id o, t.whyOf none = some (.access id) → s.ops.look id = some o → o.cuttable = true →
               exec .timerExpiry s = .next ((s.timeoutOp id).updLead tid (fun l => { l with timer := off true l.timer }))))
       ∧ (let fire := fun (cut : Nat → Bool) (s : State) => (t.warps.filter (fun h => h.2.timer.due)).foldl (fun s h => s.updHw tid h.1 (fun w =>
           { w with timer := { w.timer with armed := false, fired := true, cut := w.timer.cut || cut h.1 } })) s
         ∀ hw, s.arg.opt = some hw → (t.warps.get {} hw).timer.armed = true → (t.warps.get {} hw).timer.remain = 0 →
          (t.formed = [] → exec .timerExpiry s = .next (fire (fun _ => false) s))
          ∧ (∀ fid w q ths, t.formed = [(fid, w)] → (∃ th ∈ w.threads, t.hwOf th = hw) → w.run = .blocked (.queueEmpty q ths) →
           exec .timerExpiry s = .next (fire (fun h => w.threads.any (fun th => t.hwOf th == h)) (s.passOver tid (some fid)))))
       ∧ (∀ q v r e, t.whyOf none = some (.queueFull q v r) → s.partyEnv tid none = some e → 2 ^ 20 ≤ t.lead.stall →
           exec .queueDisciplineTimeout s = .next (s.raise { e with pclass := bits (t.lead.words.getD e.idx 0).toNat 11 10 }
             (getHeader e.header).cls e.idx { code := 0x15 }))
       ∧ (t.lead.run = .halting → t.lead.queue = [] → (∀ c ∈ t.lead.oc, c.2 = []) →
           exec .haltComplete s = .next ((s.updLead tid (fun l => { l with run := .ended })).boundaryDue t))
       ∧ (t.resident = true → t.finished = true → s.mayIssue t = true → s.copies.any (fun p => p.2.tid == tid) = true →
           exec .teamRetire s = .next ((s.coresHeld [tid]).foldl State.offer
             (((s.updTeam tid (fun t => { t with place := .retired, formed := [], expired := false })).updMs
               (fun m => { m with pins := m.pins.filter (fun p => p.tid != tid) })).unkeepTeam tid)))
       ∧ (t.place = .retired → (s.launchOf t).killing = none → s.teamSpent tid = true → exec .teamRetire s = .next (s.dropTeam tid)))

/-! ## Steps of the machine: accesses in flight -/

/-- An access that its home may take is performed there at once: a load reads, a store writes, an atomic reads and writes indivisibly, a
barrier update applies the rule of R232 (R219, R224, R246); a request that the package network turns back is sent again (R354), and one to
another package goes there (R421). The lanes of an instruction on chip are performed only when every line they touch is present; otherwise
its party parks until PRESENCE_PARK_RELEASE (R219). Where the spec leaves a choice here, the model's is in log entries 21, 22, 100, 130,
155 and 170. -/
def Obligations.AccessesArePerformedAtTheirHomes : Prop :=
  (∀ (s : State) (id lane mask : Nat) (o : Op) (a : Acc) (h : Home) (x : Nat), s.ops.look id = some o →
    o.lanes.find? (fun a => a.lane == lane) = some a → a.home = some (h, x) → s.mixed id o a = [] → s.snapDrops o a = false →
    a.poisoned = false → o.bytesNow a mask = upFrom 0 o.bytes →
    let n := 8 * o.bytes
    let u := s.through a.prot
    let m := u.touchL2 h x o.bytes (evictOf o.evict a.cache)
    let got := fun (t : State) (v : Nat) (p : Bool) => (t.setAcc id lane .applied v p).through none
    let load := u.readFor o a h x o.bytes
    let stored := (m.writeFor o a h x (bytesOf o.bytes a.data)).setPart id o a (upFrom 0 o.bytes) 0 false
    let upd := fun (f : Nat → Option Nat) => got (m.atomicAt o h x f).1 (m.atomicAt o h x f).2.1 (m.atomicAt o h x f).2.2
    let bar := fun (b : BarUpd) =>
      let r := (m.flushOwn h o.core x).barUpdate h x b
      got (if h = .glob then r.1.dropLine o.core x else r.1) (b2n r.2.1) r.2.2
    (o.kind = .ld ∨ o.kind = .ldq → u.contested h x o.bytes = [] →
      s.performLane id lane mask = (load.1.setPart id o a (upFrom 0 o.bytes) (natOf load.2.1) load.2.2).through none)
    ∧ (o.kind = .st ∨ o.kind = .stq → s.performLane id lane mask = (stored.clearCovered id h x).through none)
    ∧ (o.kind = .atom → s.performLane id lane mask = upd (fun old => some (atomNew o.aop (o.atype == 1) n old a.data)))
    ∧ (o.kind = .acas → s.performLane id lane mask = upd (fun old => if old = a.data then some a.data2 else none))
    ∧ (o.kind = .red → s.performLane id lane mask =
        got (m.atomicAt o h x (fun old => some (o.deltaKind.combine old (o.redWord a.data)))).1 0 false)
    ∧ (∀ p ∈ ([(.binit, .init (a.data % 4096) o.scope), (.barr, .arrive), (.barrx, .expectArrive a.data), (.bexp, .expect a.data),
        (.bdrop, .drop)] : List (OpKind × BarUpd)), o.kind = p.1 → s.performLane id lane mask = bar p.2))
  ∧ (∀ (s : State) (o : Op) (a : Acc), s.liveOp s.arg.a = some o → o.lanes.find? (fun a => a.lane == s.arg.b) = some a → a.alias_ = 0 →
    let id := s.arg.a
    let lane := s.arg.b
    let free := s.canPerform id o a = true ∧ o.lanesAhead a = true
    let whole := ∀ b ∈ o.lanes, b.onChip = true → b.performed = true
    let gone := if o.begun then [] else o.lanes.filter (fun b => b.onChip && s.absentFor o b)
    let after := fun (t : State) => Host.Outcome.next (φ := Fault) (ρ := Refusal) ((t.unparkPresent id).closeRed id)
    (∀ h x t, a.home = some (h, x) → (∀ p, h ≠ .remote p) → a.onChip = false → free → whole → o.updateOnly a = false →
      s.sendLane id o a = (t, true) →
      (o.kind.byAccess = true → exec .homeAccessApply s = .next ((t.performLane id lane s.arg.c).closeRed id))
      ∧ (o.kind.byBarrier = true → exec .barrierUpdateApply s = .next ((t.performLane id lane 0).closeRed id)))
    ∧ (∀ h x t, a.home = some (h, x) → a.onChip = false → free → whole → o.updateOnly a = false → s.sendLane id o a = (t, false) →
      (o.kind.byAccess = true → exec .homeAccessApply s = .next t) ∧ (o.kind.byBarrier = true → exec .barrierUpdateApply s = .next t))
    ∧ (∀ pkg x t, a.home = some (.remote pkg, x) → free → whole → a.phase = .ready → s.sendLane id o a = (t, true) →
      (o.kind.byAccess = true → exec .homeAccessApply s = .next (t.sendRemote pkg id lane))
      ∧ (o.kind.byBarrier = true → exec .barrierUpdateApply s = .next (t.sendRemote pkg id lane)))
    ∧ (a.onChip = true → gone = [] → free →
      (o.kind.byAccess = true → exec .homeAccessApply s = after (s.performLane id lane s.arg.c))
      ∧ (o.kind.byBarrier = true → exec .barrierUpdateApply s = after (s.performLane id lane 0)))
    ∧ (a.onChip = true → gone ≠ [] → o.kind.byAccess = true ∨ o.kind.byBarrier = true →
      exec (if o.kind.byAccess then .homeAccessApply else .barrierUpdateApply) s =
        after ((gone.foldl (fun s b => s.updAcc id b.lane (fun b => { b with phase := .absent })) s).parkOp id))
    ∧ ((∃ b ∈ o.lanes, b.phase = .absent) → (∀ b ∈ o.lanes, b.onChip = true → s.absentFor o b = false) →
      let t := (o.heldLanes.filter (fun l => s.arg.opt.all (· == l))).foldl (fun s l => s.performRest id l) s
      let waits := ∃ q, t.ops.look id = some q ∧ ∃ b ∈ q.lanes, b.phase = .absent
      (waits → exec .presenceParkRelease s = .next (t.closeRed id)) ∧ (¬waits → exec .presenceParkRelease s = after t)))

/-- A RED to global memory is combined into the delta line of its core's L1; the first one of a core registers it in the holder set, which
takes 16 cores; a full set sends it to the home as an atomic; a RED of another kind than its core's delta line flushes that line and is
performed at the home, and one of another kind than another core's line has that line recalled first (R314, R315, R318). A recall combines
the holder's words at the home and ends the holder's registration (R316, R317). A far operation is applied by the controller of its
address: RACC adds, RACCX adds to a slot, RCLR clears one; a poisoned slot is left alone, and a delta that arrives poisoned poisons its
slot; RFOLD folds a slot (R320 to R323). The operation ends when its lanes are applied, an RFOLD with its result (R324). Where the spec
leaves a choice here, the model's is in log entries 45, 100 and 178. -/
def Obligations.DeltasAndFarOperationsAreApplied : Prop :=
  ((∀ (s : State) (o : Op) (a : Acc) (x : Nat), s.liveOp s.arg.a = some o → o.lanes.find? (fun a => a.lane == s.arg.b) = some a →
     a.home = some (.glob, x) → o.kind = .red → a.space = 0 → s.canPerform s.arg.a o a = true → o.lanesAhead a = true →
     let at_ := fun (t : State) => Host.Outcome.next (φ := Fault) (ρ := Refusal) (t.registerAt s.arg.a s.arg.b o a x)
     (o.core ∈ s.ms.holders.get [] (x / 128) → exec .updateOnlyRegistration s = at_ s)
     ∧ (o.core ∉ s.ms.holders.get [] (x / 128) → ∀ t, (s.sendLane s.arg.a o a = (t, true) → exec .updateOnlyRegistration s = at_ t)
       ∧ (s.sendLane s.arg.a o a = (t, false) → exec .updateOnlyRegistration s = .next t)))
   ∧ (∀ (s : State) (id lane : Nat) (o : Op) (a : Acc) (x : Nat), s.snapDrops o a = false →
     let line := x / 128
     let other := fun (c : Nat) => ∃ d, (s.core c).deltas.look line = some d ∧ d.kind ≠ o.deltaKind
     let taken := fun (t : State) => ((t.combineDelta o.core line o a x).setAcc id lane .done 0 false).closeRed id
     let holders := fun (t : State) => t.ms.holders.get [] line
     let enter := fun (t : State) => if o.core ∈ holders t then taken t else if 16 ≤ (holders t).length then t.performLane id lane 0
       else taken (t.updMs (fun m => { m with holders := m.holders.put line (holders t ++ [o.core]) }))
     (other o.core → s.registerAt id lane o a x = (s.recallOne line o.core).performLane id lane 0)
     ∧ (¬other o.core → (∃ c ∈ holders s, other c) → s.registerAt id lane o a x = enter (s.recallLine line))
     ∧ (¬other o.core → (∀ c ∈ holders s, ¬other c) → s.registerAt id lane o a x = enter s))
   ∧ (∀ (s : State) (core : Nat) (d : Delta), s.ms.holders.get [] s.arg.a = [core] → (s.core core).deltas.look s.arg.a = some d →
     let line := s.arg.a
     let t := ((d.words.foldl (fun s p => s.redAtHome d.tid .glob (128 * line + p.1) d.kind p.2) (s.through d.mode)).through s.via).updCore core
       (fun k => { k with deltas := k.deltas.del s.arg.a })
     exec .updateOnlyRecall s = .next (t.updMs (fun m => { m with
       holders := m.holders.set [] s.arg.a ((m.holders.get [] s.arg.a).filter (· != core)) })))
   ∧ (∀ (s : State) (line : Nat), s.recallLine line = (s.ms.holders.get [] line).foldl (fun s c => s.recallOne line c) s))
  ∧ (∀ (s : State) (o : Op) (a : Acc), s.liveOp s.arg.a = some o → o.lanes.find? (fun a => a.lane == s.arg.b) = some a → o.kind.far = true →
       let id := s.arg.a
       let lane := s.arg.b
       let gave := fun (t : State) => if o.kind = .rfold then o.lanes.foldl (fun s a => s.giveReg id o a.thread a.result) t else t
       let poison := fun (t : State) => (∃ a ∈ o.lanes, a.poisoned = true) ∨ ∃ q, t.ops.look id = some q ∧ ∃ a ∈ q.lanes, a.poisoned = true
       (o.allPerformed = true → ∀ t, s.answersIn id o = (t, true) → ¬poison t → exec .farOperationApply s = .next (((gave t).unpark id).endOp id))
       ∧ (o.allPerformed = true → ∀ t, s.answersIn id o = (t, true) → poison t → exec .farOperationApply s = .next (t.poisonOp id))
       ∧ (o.allPerformed = true → ∀ t, s.answersIn id o = (t, false) → exec .farOperationApply s = .next t)
       ∧ (∀ x v, o.allPerformed = false → a.home = some (.glob, x) → s.canPerform id o a = true → o.lanesAhead a = true →
         s.sendLane id o a = (v, true) → s.snapDrops o a = false → s.mixed id o a = [] →
         let done := fun (u : State) (v : Nat) (p : Bool) => Host.Outcome.next (φ := Fault) (ρ := Refusal) ((u.setAcc id lane .applied v p).farAnswered id)
         let t := (((v.through a.prot).flushOwn .glob o.core x).recall .glob x o.bytes).intoAdder x
         let old := natOf (t.readHome .glob x o.bytes)
         let held := t.poisonAt .glob x o.bytes = true
         let u := t.afterRead .glob x o.bytes
         let wrote := fun (v : Nat) => Host.Outcome.next (φ := Fault) (ρ := Refusal)
           (((((u.writeHome .glob x (bytesOf o.bytes v)).dropLine o.core x).setAcc id lane .applied 0 false).through none).farAnswered id)
         let kept := fun (v : Nat) (p : Bool) => Host.Outcome.next (φ := Fault) (ρ := Refusal)
           (((u.setAcc id lane .applied v p).through none).farAnswered id)
         let delta := toX128 (f32.val a.data) (sext o.e 7)
         (o.kind = .rfold → exec .farOperationApply s =
             kept (foldX128 old (sext o.e 7) (if o.size = 2 then f32 else b16)) (t.poisonAt .glob x o.bytes))
         ∧ (o.kind = .rclr → exec .farOperationApply s = wrote 0)
         ∧ (o.kind.delta = true → a.poisoned = true → exec .farOperationApply s =
             done ((v.recall .glob x o.bytes).updSpace .glob (fun m => m.markPoison x o.bytes)) 0 true)
         ∧ (o.kind.delta = true → a.poisoned = false → held → exec .farOperationApply s = kept 0 false)
         ∧ (a.poisoned = false → ¬held →
           (o.kind = .racc → o.atype ≠ 2 → o.atype ≠ 3 → exec .farOperationApply s = wrote ((old + a.data) % 2 ^ (8 * o.bytes)))
           ∧ (o.kind = .racc → o.atype = 2 → exec .farOperationApply s = wrote (addF32 old a.data))
           ∧ (o.kind = .racc → o.atype = 3 → exec .farOperationApply s = wrote (addF32 old (a.data % 2 ^ 16 * 2 ^ 16)))
           ∧ (o.kind = .raccx → exec .farOperationApply s = wrote (addX128 old delta.1 delta.2.1 delta.2.2))))
       ∧ (∀ pkg x v, o.allPerformed = false → a.home = some (.remote pkg, x) → a.phase = .ready → s.canPerform id o a = true →
         o.lanesAhead a = true → s.sendLane id o a = (v, true) → exec .farOperationApply s = .next (v.sendRemote pkg id lane))
       ∧ (∀ h x v, o.allPerformed = false → a.home = some (h, x) → h = .glob ∨ (∃ pkg, h = .remote pkg) ∧ a.phase = .ready →
         s.canPerform id o a = true → o.lanesAhead a = true → s.sendLane id o a = (v, false) → exec .farOperationApply s = .next v))

/-- The update rule of R232 on a barrier object: an arrival takes one pending arrival, expected bytes add, a credit subtracts, BDROP takes one
pending arrival and one participant; when no arrival is pending and no byte is missing the phase flips, the arrivals are rearmed and the
byte count is cleared, with an error if too many bytes came. BINIT sets every field. The home applies an update to the object's two words
at once, answers the phase from before it, keeps the scope of BINIT and whether an engine has credited it (R259), and changes no other
byte; a poisoned object stays as it is (R220, R230, R232). -/
def Obligations.BarrierObjectsFollowTheirRule : Prop :=
  (∀ (x : Bar),
     let done := fun (y : Bar) => if y.pending = 0 ∧ y.tx ≤ 0 then
       { y with err := y.err || decide (y.tx < 0), phase := !y.phase, pending := y.parts, tx := 0 } else y
     let expected := fun (b : Nat) => if x.tx + b > 2 ^ 31 - 1 then { x with tx := 2 ^ 31 - 1, err := true } else { x with tx := x.tx + b }
     let arrived := fun (y : Bar) => if y.pending = 0 then { y with err := true } else { y with pending := y.pending - 1 }
     (∀ n k, x.apply (.init n k) = { phase := false, err := false, poison := false, abandon := false, pending := n, parts := n, tx := 0 })
     ∧ x.apply .arrive = done (arrived x)
     ∧ (∀ b : Nat, x.apply (.expect b) = done (expected b))
     ∧ (∀ b : Nat, x.apply (.expectArrive b) = done (arrived (expected b)))
     ∧ (∀ k p e, x.apply (.credit k p e) = done { x with tx := x.tx - k, poison := x.poison || p, err := x.err || e })
     ∧ (0 < x.pending → 0 < x.parts → x.apply .drop = done { x with pending := x.pending - 1, parts := x.parts - 1 })
     ∧ (x.pending = 0 ∨ x.parts = 0 → x.apply .drop = done { x with err := true })
     ∧ x.apply .abandon = { x with abandon := true } ∧ x.apply .error = { x with err := true })
  ∧ (∀ (s : State) (h : Home) (a : Nat) (u : BarUpd),
       let t := s.recall h a 16
       let x := t.barAt h a
       let r := s.barUpdate h a u
       (t.poisonAt h a 16 = true → r = (t, false, true))
       ∧ (t.poisonAt h a 16 = false → (t.space h).wf = true → (∀ f, (t.updSpace h f).space h = f (t.space h)) →
         r.2 = (x.phase, false)
         ∧ (∀ i b, (x.apply u).bytes[i]? = some b → (r.1.space h).byte (a + i) = b)
         ∧ (∀ y, y < a ∨ a + 8 ≤ y → (r.1.space h).byte y = (t.space h).byte y)
         ∧ (∀ n k, u = .init n k → (r.1.space h).scopes.look a = some k)
         ∧ (∀ k p e, u = .credit k p e → (r.1.space h).credited.has a = true)))

/-- An operation whose lanes are all performed ends: a load, an atomic and a counted barrier update write their values, a store is
acknowledged once its answers have come over the package network (R351); its acquire drops the L1 lines at cluster scope or wider, and
always where an engine has credited the object (R259), a BTEST only when its phase is over; its party goes on, and it leaves its counter.
Poison ends it and kills its launch (R26, R220, R255). A fence ends when the earlier accesses it orders have got so far; CCTL takes
effect, .IINV once the earlier stores are acknowledged (R238, R239). A waiting lane reads its location again when its monitor has seen a
write, or, with no monitor, every 256 clocks: a BWAIT ends with the status of R233 when the phase it waits for is over, a WAITA with the
value that meets its condition; a WAITA whose re-read fails goes on watching, and WAITA_REREAD counts it (R233, R236, R237). A line on
chip that has become absent parks the lane (R219). Where the spec leaves a choice here, the model's is in log entries 27, 132, 152, 154
and 160. -/
def Obligations.OperationsCompleteAndWaitersWake : Prop :=
  (∀ (s : State) (o : Op), s.liveOp s.arg.a = some o →
     let id := s.arg.a
     let gave := fun (t : State) => o.lanes.foldl (fun s a => s.giveReg id o a.thread a.result) t
     let out := fun (t : State) => Host.Outcome.next (φ := Fault) (ρ := Refusal) ((t.unpark id).endOp id)
     let poison := fun (t : State) => (∃ a ∈ o.lanes, a.poisoned = true) ∨ ∃ q, t.ops.look id = some q ∧ ∃ a ∈ q.lanes, a.poisoned = true
     let acq := fun (t : State) => ∃ a ∈ o.lanes, t.acquiresWide o a = true ∧ (o.kind = .btest → a.result % 2 = 0)
     let done := fun (i : Instr) => (∀ t, s.answersIn id o = (t, true) →
         (¬poison t → ¬acq t → exec i s = out (gave t)) ∧ (¬poison t → acq t → exec i s = out ((gave t).dropL1 o.core))
         ∧ (poison t → exec i s = .next (t.poisonOp id)))
       ∧ (∀ t, s.answersIn id o = (t, false) → exec i s = .next t)
     ((∀ a ∈ o.lanes, a.net ≠ 1) → s.answersIn id o = (s, true))
     ∧ (∀ a ∈ o.lanes, ∀ h x, o.kind.barrier = true → o.acquires = true → a.home = some (h, x) → (s.space h).credited.has x = true →
       s.acquiresWide o a = true)
     ∧ ((∀ a ∈ o.lanes, a.phase = .applied) →
       (o.kind = .ld ∨ o.kind = .ldq ∨ o.kind = .prsq ∨ o.kind = .btest → done .loadComplete)
       ∧ (o.kind = .atom ∨ o.kind = .acas ∨ o.kind = .barr ∨ o.kind = .barrx ∨ o.kind = .bdrop → done .atomicComplete)
       ∧ (o.kind = .bexp → ∀ t, s.answersIn id o = (t, true) →
         (¬poison t → exec .atomicComplete s = out t) ∧ (poison t → exec .atomicComplete s = .next (t.poisonOp id))))
     ∧ ((∀ a ∈ o.lanes, a.phase = .applied ∨ a.phase = .done) → o.kind = .st ∨ o.kind = .stq ∨ o.kind = .binit ∨ o.kind = .red →
       (∀ t, s.answersIn id o = (t, true) →
         (o.kind ≠ .binit ∨ (∀ a ∈ o.lanes, a.poisoned = false) → exec .storeAck s = out t)
         ∧ (o.kind = .binit → (∃ a ∈ o.lanes, a.poisoned = true) → exec .storeAck s = .next (t.poisonOp id)))
       ∧ (∀ t, s.answersIn id o = (t, false) → exec .storeAck s = .next t))
     ∧ (o.kind = .fence →
       let acquire := o.ord = 1 ∨ o.ord = 3
       let release := o.ord = 2 ∨ o.ord = 3
       s.earlierDone id (decide release) (decide release) (decide acquire) = true →
       (acquire → s.wide o o.scope = true → exec .fenceComplete s = out (s.dropL1 o.core))
       ∧ (¬acquire ∨ s.wide o o.scope = false → exec .fenceComplete s = out s))
     ∧ (o.kind = .cctl →
       (o.data = 0 → s.earlierDone id true false false = true → exec .cctlComplete s = .next ((s.updCore o.core (fun k => { k with icache := [], ipoison := [] })).endOp id))
       ∧ (o.data = 1 → exec .cctlComplete s = .next ((s.dropL1 o.core).endOp id))
       ∧ (∀ t a l, o.data = 2 → s.teams.look o.tid = some t → o.lanes = [a] → s.held o.core t.ctx a.addr = some l →
         exec .cctlComplete s = .next ((s.dropLine o.core (s.place l a.addr).2).endOp id))
       ∧ (3 ≤ o.data → exec .cctlComplete s = .next ((s.unkeepTeam o.tid).endOp id))))
  ∧ (∀ (s : State) (o : Op) (a : Acc), s.liveOp s.arg.a = some o → o.lanes.find? (fun a => a.lane == s.arg.b) = some a → a.phase = .watching →
       let id := s.arg.a
       let lane := s.arg.b
       (∀ (i : Instr), (i = .bwaitWake ∧ o.kind = .bwait ∧ a.monitor = true ∧ a.seen = true)
           ∨ (i = .waitaMonitorWake ∧ o.kind = .waita ∧ a.monitor = true ∧ a.seen = true)
           ∨ (i = .waitaPollReread ∧ (o.kind = .waita ∨ o.kind = .bwait) ∧ a.monitor = false ∧ a.poll ≤ (s.core o.core).clock) →
         (s.absentFor o a = true → exec i s = .next (s.updAcc id lane (fun a => { a with phase := .absent, monitor := false, seen := false })))
         ∧ ∀ t, s.absentFor o a = false → (s.sendLane id o a = (t, true) → exec i s = .next (t.pollLane id lane true))
         ∧ (s.sendLane id o a = (t, false) → exec i s = .next t))
       ∧ (∀ h x, a.home = some (h, x) → (∀ p, h ≠ .remote p) →
         (o.kind = .waita →
           let n := 2 ^ o.size
           let t := s.recall h x n
           let v := natOf (t.readHome h x n)
           let met := if o.evict = 0 then v = a.data else v ≠ a.data
           let w := (if h = .glob then t.dropLine o.core x else t).afterRead h x n
           t.poisonAt h x n = false → t.contested h x n = [] →
           (met → s.pollLane id lane true = w.endLane id lane o a v)
           ∧ (¬met → a.monitor = true → s.pollLane id lane true =
             (w.updCore o.core (fun c => { c with reread := satNat (c.reread + 1) 0xFFFF })).updAcc id lane
               (fun a => { a with result := v, read := true, seen := false, retries := 0, net := 0, poll := 0 })))
         ∧ (o.kind = .bwait →
           let t := s.recall h x 16
           let b := t.barAt h x
           t.poisonAt h x 16 = false → b.phase ≠ (a.data % 2 == 1) ∨ b.err = true ∨ b.abandon = true →
           s.pollLane id lane true = t.endLane id lane o a (4 * b2n b.err + 8 * b2n b.poison + 16 * b2n b.abandon))))

/-! ## Steps of the machine: translation, registers -/

/-- A walk reads its tables over the package network; one that finds a leaf releases every access that waits for it, one that reads a poisoned
entry is logged for the package (R353, R354); tables in another package are asked for there (R421); one that fails posts one record of 32
bytes for its context and page, with the translation MSI, or fails at once where no records are posted (R327 to R330). A retry reply walks
again, a fail reply fails every access that waits (R331). CONTEXT and PAGES of an invalidation are written at any time, START only where
none runs (R332, R333). An invalidation drops its range from every cache, and is done when no access or copy request that uses an old
entry is left (R332, R333). Where the spec leaves a choice here, the model's is in log entries 42 to 44, 139, 147 and 163. -/
def Obligations.TranslationsAreWalkedAnsweredAndInvalidated : Prop :=
  ∀ (s : State),
    let req := s.arg.a
    (∀ w, s.ms.walks.look req = some w →
      (let far := s.farEntry (s.walkPath w.ctx w.va)
       w.failed = none → far ≠ [] → s.ms.asks = [] → ∀ t, s.request (.walk req) w.router
            (((s.walkPath w.ctx w.va).map s.physPlace).filterMap (fun p => s.routerOf p.1 p.2)) (s.ms.clocks.get 0 w.router) = (t, .go) →
          exec .translationWalk s = .next (t.ask (.walk req) far).1)
      ∧ (w.failed = none → s.farEntry (s.walkPath w.ctx w.va) = [] →
        let path := (s.walkPath w.ctx w.va).map s.physPlace
        let sent := s.request (.walk req) w.router (path.filterMap (fun p => s.routerOf p.1 p.2)) (s.ms.clocks.get 0 w.router)
        let v := path.foldl (fun s p => s.touchL2 p.1 p.2 8) sent.1
        let u := v.untaint (.walk req)
        let any := (Config.freeWord u.free).toNat
        let failed := fun (s : State) (cause entry : Nat) => Host.Outcome.next (φ := Fault) (ρ := Refusal)
          (s.drawn.updMs (fun m => { m with walks := m.walks.upd req (fun w => { w with failed := some (cause, entry) }) }))
        (sent.2 = .wait → exec .translationWalk s = .next sent.1)
        ∧ (sent.2 = .lost → v.tainted (.walk req) = false → exec .translationWalk s = failed (u.lostRecord w.launch 0) 4 any)
        ∧ (sent.2 = .go → v.tainted (.walk req) = false →
          (∀ l, u.walk w.ctx w.va = .ok l → exec .translationWalk s = .next ((u.drawn.finishWalk req w l).forget (.walk req)))
          ∧ (∀ cause entry, u.walk w.ctx w.va = .miss cause entry → exec .translationWalk s = failed (u.forget (.walk req)) cause entry)
          ∧ (∀ a, u.walk w.ctx w.va = .bad a → exec .translationWalk s =
            failed ((u.forget (.walk req)).pkgLog { type := 4, severity := 3, engine := 10, address := u.pkg * 2 ^ 43 + a }) 4 any)))
      ∧ (∀ cause entry, w.failed = some (cause, entry) → s.copiesDrained req = true → w.tag = none →
        (bit s.ms.xfqBase 4 = false → exec .faultRecordPost s = .next (s.failWalk req))
        ∧ (bit s.ms.xfqBase 4 = true → (s.ms.xfqHead + 2 ^ 32 - s.ms.xfqTail) % 2 ^ 32 ≠ s.ms.xfqSize →
          let tag := s.ms.nextTag
          let record := bytesOf 8 w.va ++ bytesOf 2 w.ctx ++ bytesOf 1 w.agent ++ bytesOf 1 w.access ++ bytesOf 1 cause ++ bytesOf 1 0
            ++ bytesOf 2 w.vdie ++ bytesOf 4 tag ++ bytesOf 4 w.launch ++ bytesOf 8 entry
          let t := s.physPut (bits s.ms.xfqBase 51 12 * 2 ^ 12 + s.ms.xfqHead % s.ms.xfqSize * 32) record
          exec .faultRecordPost s = .next (((t.updMs (fun m => { m with
            xfqHead := (m.xfqHead + 1) % 2 ^ 32, nextTag := (tag + 1) % 2 ^ 32
            walks := m.walks.upd req (fun w => { w with tag := some tag }) })).stopCopies req).pkgMsi 0))
        ∧ (bit s.ms.xfqBase 4 = true → (s.ms.xfqHead + 2 ^ 32 - s.ms.xfqTail) % 2 ^ 32 = s.ms.xfqSize → exec .faultRecordPost s = .next s)))
    ∧ (∀ r, s.tagged s.arg.a = some r →
      exec .xlatReplyRetry s = .next (s.updMs (fun m => { m with walks := m.walks.upd r (fun w => { w with failed := none, tag := none }) }))
        ∧ exec .xlatReplyFail s = .next (s.failWalk r))
    ∧ (s.ms.invalBusy = true ∨ bit s.arg.a 28 = false → exec .invalStart s = .next (s.updMs (fun m => { m with
        invalDone := m.invalDone && !bit s.arg.a 30, invalMsien := bit s.arg.a 31, invalCtx := s.arg.a % 2 ^ 12, invalPages := bits s.arg.a 27 12 })))
    ∧ (s.ms.invalBusy = false → bit s.arg.a 28 = true → ∃ t, exec .invalStart s = .next t ∧ t.ms.invalBusy = true
        ∧ t.ms.invalCtx = s.arg.a % 2 ^ 12 ∧ t.ms.invalPages = bits s.arg.a 27 12 ∧ t.ms.invalVa = s.ms.invalVa
        ∧ t.ms.runCtx = t.ms.invalCtx ∧ t.ms.runPages = t.ms.invalPages ∧ t.ms.runVa = t.ms.invalVa
        ∧ ∀ c k, t.ms.keyInRange k = true → (t.core c).xlat.look k = none ∧ (t.ms.xlat.get [] c).look k = none)
    ∧ (s.ms.invalBusy = true → (∀ id ∈ s.ms.invalOps, s.holdsInval id = false) →
      (∀ p ∈ s.copies, s.copyHoldsInval p.2 = false) →
      let t := s.recallAll.updMs (fun m => { m with invalBusy := false, invalDone := true, invalOps := [] })
      (t.ms.invalMsien = false → exec .invalDone s = .next t) ∧ (t.ms.invalMsien = true → exec .invalDone s = .next (t.pkgMsi 0)))

/-- The registers with a rule of their own: a tail is not moved so far that its queue would exceed its size; CLR clears what it names and no
other field; a die table entry never names the harvested die; WRITE of a launch queue neither goes back nor passes DONE by more than the
queue holds; CTX_KILL names live launches (R79, R80, R121, R241, R282, R309, R333, R337, R350, R356, R359, R391). Where the spec leaves a
choice here, the model's is in log entries 44 and 52. -/
def Obligations.RegisterWritesFollowTheirRules : Prop :=
  ∀ (s : State),
    let a := s.arg.a
    let b := s.arg.b
    let v := s.arg.b % 2 ^ 32
    let k := s.ctx a
    (((k.elogHead + 2 ^ 32 - v) % 2 ^ 32 ≤ 4096 → exec .ctxElogTailWrite s = .next (s.updCtx a (fun k => { k with elogTail := v })))
      ∧ (4096 < (k.elogHead + 2 ^ 32 - v) % 2 ^ 32 → exec .ctxElogTailWrite s = .next s)
      ∧ ((k.svcHead + 2 ^ 32 - v) % 2 ^ 32 ≤ 2 ^ (k.svcBase % 16) → exec .ctxSvcTailWrite s = .next (s.updCtx a (fun k => { k with svcTail := v })))
      ∧ (2 ^ (k.svcBase % 16) < (k.svcHead + 2 ^ 32 - v) % 2 ^ 32 → exec .ctxSvcTailWrite s = .next s)
      ∧ ((s.ms.xfqHead + 2 ^ 32 - a % 2 ^ 32) % 2 ^ 32 ≤ s.ms.xfqSize →
          exec .msideXfqTailWrite s = .next (s.updMs (fun m => { m with xfqTail := a % 2 ^ 32 })))
      ∧ (s.ms.xfqSize < (s.ms.xfqHead + 2 ^ 32 - a % 2 ^ 32) % 2 ^ 32 → exec .msideXfqTailWrite s = .next s))
    ∧ exec .ctxElogStatClr s = .next (s.updCtx a (fun k => { k with elogLost := 0 }))
    ∧ exec .coreLsStatClr s = .next (s.updCore a (fun k => { k with reread := 0, polled := 0 }))
    ∧ exec .coreKickStatusClr s = .next (s.updTeam a (fun t => { t with kick := { addr := t.kick.addr } }))
    ∧ exec .coreMtxStallClr s = .next (s.updCore a (fun k => { k with stall := 0 }))
    ∧ exec .ctxSnapStatClr s = .next (s.updCtx a (fun k => { k with snapCopied := 0, snapRestored := 0 }))
    ∧ exec .ctxSchedStatClr s = .next (s.updCtx a (fun k => { k with saves := 0, moves := 0, kills := 0 }))
    ∧ exec .msideNetStatClr s = .next (s.updMs (fun m => { m with rerouted := m.rerouted.set 0 a 0, retried := m.retried.set 0 a 0 }))
    ∧ exec .saddleCollStatClr s = .next (s.updColl a (fun c => { c with late := 0, errs := 0 }))
    ∧ exec .saddlePortStatClr s = .next (s.updPort a (fun p => { p with unmatched := 0, ucerr := 0, dup := 0 }))
    ∧ exec .hostMsiStatClr s = .next { s with msiDropped := 0 }
    ∧ exec .rctrWrite s = .next (s.setCtr a b)
    ∧ (∃ t, exec .msideRegionWrite s = .next t ∧ t = { s with ms := { s.ms with regions := t.ms.regions } }
        ∧ (∀ i, i ≠ a % 64 → t.ms.regions.look i = s.ms.regions.look i)
        ∧ t.ms.regions.look (a % 64) = some (if b = 0
          then { s.ms.regions.get {} (a % 64) with a := putBits (s.arg.c % 2 ^ 64) 62 61 0 }
          else { s.ms.regions.get {} (a % 64) with b := s.arg.c % 2 ^ 15 }))
    ∧ (s.hdie = some (s.arg.c % 8) → exec .ctxVdieMapWrite s = .next s)
    ∧ (s.hdie ≠ some (s.arg.c % 8) →
        exec .ctxVdieMapWrite s = .next (s.updCtx a (fun k => { k with vdieMap := k.vdieMap.set 0 b (s.arg.c % 16) })))
    ∧ (let d := s.doneAhead a b
       let r := d.queueRegs a b
       let new := (s.arg.c % 2 ^ 32 + 2 ^ 32 - r.done) % 2 ^ 32
       ((r.write + 2 ^ 32 - r.done) % 2 ^ 32 ≤ new → new ≤ r.slots →
          exec .queueWrite s = .next (d.updQueue a b (fun r => { r with write := s.arg.c % 2 ^ 32 })))
        ∧ (new < (r.write + 2 ^ 32 - r.done) % 2 ^ 32 ∨ r.slots < new → exec .queueWrite s = .next d))
    ∧ (∀ lid l, s.launches.filter (fun p => p.2.ctx == a && p.2.ident == v) = [(lid, l)] →
        exec .ctxKillLaunch s = .next (s.killLaunch lid 0x14))
    ∧ ((∀ p ∈ s.launches, p.2.ctx = a → p.2.ident ≠ v) → exec .ctxKillLaunch s = .next s)
    ∧ exec .ctxKillAll s = .next ((s.launches.filter (fun p => p.2.ctx == a)).foldl (fun s p => s.killLaunch p.1 0x14) s)

/-! ## Steps of the machine: the work scheduler -/

/-- The record at DISP is accepted, with the next launch identifier, or invalid with its cause; a launch becomes ready when its enabled waits
hold, and ends, with its signal, when every team has retired (R360, R361, R363, R364, R381). A step boundary is complete when every team
that is neither finished nor withdrawn has arrived; it keeps, adds or withdraws dies (R380). A launch whose next team is the first in the
scheduler's order among those that fit at a core is dispatched there; a tile with no rows is skipped, and one that cannot be read kills
the launch (R366 to R371). The first dispatch binds the launch's dies and its teams (R365, R368). What a team starts with: s0 to s6 hold
the argument, the team number, the team count, the virtual die, the dies, the tile record and the launch identifier, every other register
of the lead thread and of the threads is 0, memory is 0, and each stream stands at its first clause (R96, R133, R370). Where the spec
leaves a choice here, the model's is in log entries 54, 57, 60, 144 and 163. -/
def Obligations.LaunchesAndTeamsStart : Prop :=
  (∀ (s : State),
     (let c := s.arg.a
      let q := s.arg.b
      let k := s.ctx c
      let d := s.doneAhead c q
      let r := d.queueRegs c q
      let va := r.slotAt r.disp
      k.schedEn = true → bit (s.queueRegs c q).cfg 0 = true → r.disp ≠ r.write → d.prevAllows c q r.disp = true →
       let w := d.schedSent c (d.enginePieces c va 256 false) false
       let u := (w.1.engineTouch c va 256).forget (.sched c)
       (w.2 = .wait → exec .launchAccept s = .next w.1)
       ∧ (w.2 = .lost → exec .launchAccept s = .next ((((w.1.lostRecord 0 0).untaint (.sched c)).forget (.sched c)).rejectLaunch c q va 10))
       ∧ (∀ x, w.2 = .go → w.1.engineRead c va 256 = .error x → exec .launchAccept s = .next (u.rejectLaunch c q va 10))
       ∧ (∀ bs, w.2 = .go → w.1.engineRead c va 256 = .ok bs →
         let l : Launch := { ctx := c, queue := q, slot := r.disp, image := bs, ident := k.nextIdent }
         (∀ cause, u.invalidCause l = some cause → exec .launchAccept s = .next (u.rejectLaunch c q va cause))
         ∧ (u.invalidCause l = none → u.readSync l = none → exec .launchAccept s = .next (u.rejectLaunch c q va 10))
         ∧ (∀ sync, u.invalidCause l = none → u.readSync l = some sync →
           let e := (u.updCtx c (fun k => { k with nextIdent := if (k.nextIdent + 1) % 2 ^ 32 = 0 then 1 else k.nextIdent + 1 })).updQueue c q
             (fun r => { r with disp := (r.disp + 1) % 2 ^ 32 })
           exec .launchAccept s = .next (({ e with
             launches := e.launches.put e.nextId { l with sync := sync }, nextId := e.nextId + 1 } : State).markLaunch e.nextId 1))))
     ∧ (∀ l, s.launches.look s.arg.a = some l → l.killing = none →
       let lid := s.arg.a
       let value := fun i => ((s.ctx l.ctx).evt.get 0 (l.waitIdx i)).toNat
       (s.processed l.ctx l.queue = false → exec .launchReady s = .next s)
       ∧ (l.state = 1 → l.restoring = false → s.processed l.ctx l.queue = true → (∀ i ∈ setBits l.waitEn 4, l.thresh i ≤ value i) → exec .launchReady s = .next (s.markLaunch lid 2))
       ∧ ((∃ i ∈ setBits l.waitEn 4, value i < l.thresh i) → exec .launchReady s = .next s)
       ∧ (l.state = 3 → l.allSent = true → (∀ p ∈ s.teams, p.2.launch ≠ lid) →
         let t := s.markLaunch lid 4
         (l.sigEn = false → exec .launchRetire s = .next (t.endLaunch lid l))
         ∧ (l.sigEn = true → exec .launchRetire s = .next ((t.updCtx l.ctx (fun k => { k with
             evt := k.evt.set 0 l.sigIdx (k.evt.get 0 l.sigIdx + BitVec.ofNat 64 l.sigVal) })).endLaunch lid l)))
       ∧ (let live := s.teams.filter (fun p => p.2.launch == lid && !p.2.withdrawn && !p.2.finished)
          let d := s.targetDies l
          let t := s.updLaunch lid (fun l => { l with boundaries := l.boundaries + 1, dies := d, teams := l.teamCount * d })
          l.elastic = true → l.dies ≠ 0 → l.allSent = true → live ≠ [] → (∀ p ∈ live, l.boundaries + 1 ≤ p.2.arrived) → d ≤ l.dies →
          exec .stepBoundaryComplete s = .next (({ t with teams := t.teams.map (fun p =>
            (p.1, if p.2.launch = lid && l.teamCount * d ≤ p.2.number then { p.2 with withdrawn := true } else p.2)) } : State).endSteps lid))))
  ∧ ((∀ (s : State) (x l : Launch) (w : Waiting) (n : Nat), s.bestAt s.arg.b [] = some w → w.lid = s.arg.a → w.saved = none →
       s.launches.look s.arg.a = some x →
       let lid := s.arg.a
       let q := if x.counted || !x.listed then (s, Sending.go) else s.schedSent x.ctx (s.enginePieces x.ctx x.list 4 false) false
       let t := (q.1.bindLaunch lid).forget (.sched x.ctx)
       let on := fun (u : State) => Host.Outcome.next (φ := Fault) (ρ := Refusal)
         ((u.updLaunch lid (fun l => { l with next := l.next.put w.vdie (w.gang + 1) })).markSent lid)
       let rows := if l.listed then t.rowsOf l n else some 1
       (q.2 = .wait → exec .teamDispatch s = .next q.1)
       ∧ (q.2 = .lost → exec .teamDispatch s =
           .next ((((q.1.lostRecord x.ident 0).untaint (.sched x.ctx)).forget (.sched x.ctx)).killLaunch lid 0x0A))
       ∧ (q.2 = .go → t.launches.look lid = some l → l.killing = none → l.membersOf w.gang = [n] →
       (rows = none → exec .teamDispatch s = .next (t.killLaunch lid 0x14))
       ∧ (rows = some 0 → exec .teamDispatch s = on t)
       ∧ (∀ r p, rows = some (r + 1) → l.gang ≤ 1 → l.cluster = 0 → t.spots l w.vdie s.arg.b [none] [] = some [p] →
         exec .teamDispatch s = on (t.dispatchTeam lid 0 n w.vdie p))))
     ∧ (∀ (s : State) (lid : Nat) (l : Launch), s.launches.look lid = some l → l.counted = false →
       let most := min l.maxDies (s.ctx l.ctx).dieCount
       let dies := if l.elastic then min most (s.ctx l.ctx).target else most
       let start := fun (teams : Nat) => s.updLaunch lid (fun l => { l with counted := true, dies := dies, teams := teams, next := [] })
       (l.listed = false → s.bindLaunch lid = start (if l.elastic then l.teamCount * dies else l.teamCount))
       ∧ (∀ bs, l.listed = true → s.engineRead l.ctx l.list 4 = .ok bs → natOf bs ≤ 2 ^ 24 → s.bindLaunch lid = start (natOf bs))
       ∧ (∀ bs, l.listed = true → s.engineRead l.ctx l.list 4 = .ok bs → 2 ^ 24 < natOf bs → s.bindLaunch lid = s.killLaunch lid 0x14)
       ∧ (∀ e, l.listed = true → s.engineRead l.ctx l.list 4 = .error e → s.bindLaunch lid = s.killLaunch lid 0x14))
     ∧ (∀ (l : Launch) (lid gang number vdie clock k quantum : Nat) (p : Place),
       let t := newTeam l lid gang number vdie clock k quantum p
       (∀ x ∈ [(0, l.argp), (1, number), (2, l.teams), (3, vdie), (4, l.dies),
           (5, if l.listed then (l.list + 32 + 32 * number) % 2 ^ 64 else 0), (6, l.ident)], t.lead.regs.get 0 x.1 = BitVec.ofNat 64 x.2)
       ∧ (∀ n, 6 < n → t.lead.regs.get 0 n = 0) ∧ t.lead.pc = l.leadPc ∧ t.lead.hmode = false ∧ t.lead.oc = [] ∧ t.scratch = {}
       ∧ (∀ i < l.teamSize, ∃ x, t.threads.look i = some x ∧ x.pc = l.lanePc ∧ x.regs = [] ∧ x.meet = 0 ∧ x.done = false ∧ x.priv = {}
           ∧ x.run = .ready)
       ∧ (∀ i, l.teamSize ≤ i → t.threads.look i = none) ∧ t.formed = [] ∧ t.queues = []))

/-- At the end of its quantum a team loses its place to a waiting team that wins it, or its quantum starts again (R371, R372). At its
preemption point it is saved where a slot is free, else it goes on; a saved team that is first among those that fit is restored; a team
that stands in the way of a larger one moves (R373, R374, R378, R379). The cores that it leaves are offered to the teams that wait (R376).
A launch to be killed stops at once, and its kill ends in a later step, when every access on its way has completed (R382, R383). Before
the first write of a tracked granule its bytes are copied to the snapshot area, and a replay puts every copied granule back and readies
the launch again (R347 to R350). Where the spec leaves a choice here, the model's is in log entries 24, 46, 51, 61, 62, 139, 143, 162 and
163. -/
def Obligations.TeamsLeaveAndLaunchesEnd : Prop :=
  (∀ (s : State) (t : Team), s.teams.look s.arg.a = some t →
     let tid := s.arg.a
     let own := s.eprioOf (s.launchOf t)
     let again := (s.ctx t.ctx).quantumClocks
     let cores := s.coresHeld [tid]
     (t.quantum = 0 → t.expired = false → t.finished = false → s.mayIssue t = true → s.gangMates tid = [tid] →
       let best := s.bestOf (s.coresFreed [tid]) [tid]
       let wins := fun (w : Waiting) => best = some w ∧ own ≤ w.eprio ∧ (s.freeSlots t.ctx 1).isSome = true
         ∧ s.forwardFree (s.survivorsOn tid) = true
       let lost := s.countBypasses cores [tid] none
       ((∀ w, ¬wins w) → exec .quantumExpiry s =
           .next (lost.updTeam tid (fun x => { x with quantum := (lost.ctx x.ctx).quantumClocks, declined := false })))
       ∧ (∀ w, wins w →
           let won := s.countBypasses cores [tid] best
           exec .quantumExpiry s = .next { won with teams := won.teams.map (fun p =>
             (p.1, if [tid].contains p.1 then { p.2 with expired := true, declined := false, behind := some (w.lid, w.number) } else p.2)) }))
     ∧ (s.gangMates tid = [tid] → t.resident = true → t.expired = true → s.preemptible tid t = true → s.mayIssue t = true → t.clusterBytes = 0 →
         let goesOn := Host.Outcome.next (φ := Fault) (ρ := Refusal) { s.untaint (.sched t.ctx) with teams := s.teams.map (fun p =>
             (p.1, if [tid].contains p.1 then { p.2 with expired := false, quantum := again } else p.2)) }
         (∀ k, s.freeSlots t.ctx 1 = some [k] →
           let room := s.forwardFree (s.survivorsOn tid) = true
             ∧ (s.slotParts t.ctx ((s.ctx t.ctx).saveSlot k) (256 + State.imageBytes t false) 8).isSome = true
           (∀ parts, room → s.slotParts t.ctx ((s.ctx t.ctx).saveSlot k) (256 + State.imageBytes t false) 8 = some parts →
             let q := s.schedSent t.ctx parts true
             let u := q.1.untaint (.sched t.ctx)
             (q.2 = .go → exec .teamSave s = .next ((u.coresFreed [tid]).foldl State.offer (u.saveTeam tid k false)))
             ∧ (q.2 = .wait → exec .teamSave s = .next q.1)
             ∧ (q.2 = .lost → exec .teamSave s = .next ((q.1.lostRecord (s.identOf t) t.number).killLaunch t.launch 0x0A)))
           ∧ (¬room → exec .teamSave s = goesOn))
         ∧ (s.freeSlots t.ctx 1 = none → exec .teamSave s = goesOn))
     ∧ (∀ w p k, s.bestAt s.arg.b [] = some w → w.saved = some [tid] → s.fitsAt w s.arg.b [] = some [p] → t.clusterBytes = 0 → t.place = .saved k →
         let q := s.schedSent t.ctx ((s.slotParts t.ctx ((s.ctx t.ctx).saveSlot k) t.slotBytes.length 8).getD []) false
         let back := fun (u : State) (lost : Bool) => Host.Outcome.next (φ := Fault) (ρ := Refusal)
           ((({ u with gangs := u.gangs.upd t.gang (fun g => g) } : State).restoreTeam tid p lost).forget (.sched t.ctx))
         (q.2 = .go → exec .teamRestore s = back q.1 false) ∧ (q.2 = .wait → exec .teamRestore s = .next q.1)
         ∧ (q.2 = .lost → exec .teamRestore s = back ((q.1.lostRecord (s.identOf t) t.number).untaint (.sched t.ctx)) true))
     ∧ (∀ p, let to_ := if t.paired then s.arg.b / 2 * 2 else s.arg.b
         t.resident = true → t.declined = false → t.finished = false → s.mayIssue t = true → to_ ≠ t.core →
         s.preemptible tid t = true → s.bigWaits t.core own [tid] to_ = true → s.moveSpot (s.launchOf t) tid t to_ = some p →
         (s.forwardFree cores = false → exec .teamMove s = .next (s.updTeam tid (fun t => { t with declined := true })))
         ∧ (s.forwardFree cores = true →
           let u := ((s.takeKicks cores tid).takePlace tid p.core p.slot p.quarters).forward tid false cores
           let v := ((u.teamAcquires p.core t.paired).giveKicks tid).updTeam tid (fun t => { t with expired := false })
           exec .teamMove s = .next (cores.foldl State.offer (v.updCtx t.ctx (fun k => { k with moves := satNat (k.moves + 1) 0xFFFF }))).releaseForwards)))
  ∧ (∀ (s : State) (l : Launch), s.launches.look s.arg.a = some l →
       let lid := s.arg.a
       (∀ code, l.killing = some code →
         let t := s.stopLaunch lid
         let going := (∃ p ∈ s.teams, p.2.launch = lid ∧ p.2.place ≠ .retired) ∨ ∃ p ∈ t.ops, p.2.tid ∈ t.teamsOf lid
         (going → exec .launchKill s = .next t) ∧ (¬going → exec .launchKill s = .next (t.finishKill lid l code)))
       ∧ (l.snapWait = none → l.copied.has s.arg.b = false → l.lost.has s.arg.b = false → s.granuleWanted lid s.arg.b ≠ none →
         ∀ ps n mode, s.granuleHome l s.arg.b = some (ps, n, mode) →
           (∀ qs, s.areaHome l s.arg.b n = .ok qs →
             let w := s.snapSent lid s.arg.b ps qs
             let passes := ∀ q ∈ qs, ∀ d, s.routerOf q.1 q.2.1 = some d → (s.packet (s.arg.b % 4) d).2 = true
             let b := w.1.blockRead mode ps
             let c := b.1.snapBytes lid w.2 b.2
             let t := (c.1.blockWrite (s.areaMode l s.arg.b) qs c.2).forget (.snap lid)
             (w.2 = .wait → exec .snapshotCopy s = .next w.1)
             ∧ (w.2 = .lost → ¬passes → exec .snapshotCopy s = .next ((w.1.lostRecord l.ident 0).killLaunch lid 0x0A))
             ∧ (w.2 = .go ∨ w.2 = .lost ∧ passes → exec .snapshotCopy s = .next
               ((t.updLaunch lid (fun l => { l with copied := l.copied.ins s.arg.b })).updCtx l.ctx
                 (fun c => { c with snapCopied := satNat (c.snapCopied + 1) (2 ^ 32 - 1) }))))
           ∧ (s.areaHome l s.arg.b n = .error 0x08 → exec .snapshotCopy s = .next (s.snapWalk lid l s.arg.b true))
           ∧ (∀ c, c ≠ 0x08 → s.areaHome l s.arg.b n = .error c → exec .snapshotCopy s = .next (s.loseGranule lid s.arg.b)))
       ∧ (l.restoring = true → l.snapWait = none → l.killing = none → s.areaFault l = none →
         let w := s.restoreSent lid l
         let put := (l.copied.foldl (fun s g => match s.granuleHome l g with
           | some (ps, n, mode) => match s.areaHome l g n with
             | .ok qs =>
               let c := (s.blockRead (s.areaMode l g) qs).1.snapBytes lid w.2 (s.blockRead (s.areaMode l g) qs).2
               c.1.blockWrite mode ps c.2
             | .error _ => s
           | none => s) w.1).forget (.snap lid)
         (w.2 = .wait → exec .snapshotRestore s = .next w.1) ∧ (w.2 ≠ .wait → exec .snapshotRestore s = .next (((put.updCtx l.ctx (fun c => { c with snapRestored := satNat (c.snapRestored + 1) 0xFFFF })).updLaunch lid
           (fun l => { l with restoring := false })).markLaunch lid 1))))

/-! ## Steps of the machine: the engines -/

/-- The copy engine decides the first kick of its core's queue: a seal that does not match rejects it (code 0x0E), a record that fails a check
rejects it with the cause (0x0F), else it becomes an active request, once the core's limits allow it (R270, R271), one kick in a clock at
most. A piece whose two sides can be reached is read and written, its lines and STATUS advance, and its bytes are credited to the barrier
object; a multicast reads into a slot of the holding buffer, which drains to one target after the other (R260, R266, R273 to R276). Where
the spec leaves a choice here, the model's is in log entries 29, 31, 32, 38, 135, 159 and 171. -/
def Obligations.KicksAreAcceptedAndCopied : Prop :=
  (∀ (s : State),
    let core := s.arg.a
    let u := (s.acceptInputs core).handKicks core
    ((u.core core).kicks = [] → exec .acceptance s = .next u)
    ∧ (∀ k rest, (u.core core).kicks = k :: rest →
      let popped := u.updCore core (fun c => { c with kicks := rest, decided := c.clock + 1 })
      let free := (u.core core).decided ≠ (u.core core).clock + 1
      (¬free → exec .acceptance s = .next u)
      ∧ (free → u.teams.look k.tid = none → exec .acceptance s = .next (popped.kickDone k.op))
      ∧ (∀ t, free → u.teams.look k.tid = some t →
        let b := t.scratch.bytes k.off 128
        let c := u.kickRequest t core k
        let d := { c with lines := u.copyLines t c }
        (fieldAt b 0 1 ≠ k.sealByte → exec .acceptance s = .next (popped.rejectKick core t k b 1))
        ∧ (fieldAt b 0 1 = k.sealByte →
          (∀ cause, u.kickCause t c k = some cause → exec .acceptance s = .next (popped.rejectKick core t k b cause))
          ∧ (u.kickCause t c k = none →
            (u.withinLimits core d.lines = true → exec .acceptance s = .next ((popped.enterCopy d).kickDone k.op))
            ∧ (u.withinLimits core d.lines = false → exec .acceptance s = .next u))))))
  ∧ (∀ (s : State) (c : Copy) (t : Team) (g : Nat × Nat), s.copies.look s.arg.a = some c → s.teams.look c.tid = some t → t.place = .resident →
    c.state = 1 → c.closed = false → c.wait = none → c.doomed = none → c.owed = [] →
    c.credit = false ∨ c.mode = 4 ∨ (∃ l z, s.barPlace t c c.tid = .ok l z) →
    c.gaps.find? (fun g => decide (g.1 ≤ s.arg.b) && decide (s.arg.b < g.2)) = some g → s.arg.b = c.progress →
    let id := s.arg.a
    let off := s.arg.b
    let r := c.runAt off
    let n := min (s.clip t c r (min s.arg.c (g.2 - off))) (if c.mode = 4 then 32768 else 2 ^ 21)
    n ≠ 0 → ∀ l x m z, s.sides t c r n = (.ok l x, .ok m z) →
      (c.mode ≠ 4 ∧ s.copyHeld t c r n z = false ∨ c.mode = 4 ∧ s.slotFree id c = true →
        exec .copyPiece s = .next (s.sendPiece id c t off n r (.ok l x) (.ok m z)))
      ∧ (c.mode ≠ 4 → s.copyHeld t c r n z = true → exec .copyPiece s = .next s)
      ∧ (c.mode = 4 → s.slotFree id c = false →
        exec .copyPiece s = .next { s with copies := s.copies.upd id (fun c => { c with queued := true }) }))
  ∧ (∀ (s : State) (id off n : Nat) (c : Copy) (t : Team) (r : Run) (src dst : Placed),
    let sent := s.request (.copy id) (baseOf (dieOf c.core)) (s.routersOf src ++ s.routersOf dst) (s.core c.core).clock
    ((∀ x ∈ s.ms.asks, x.who ≠ (Requester.copy id).key) →
      (sent.2 = .wait → s.sendPiece id c t off n r src dst = sent.1)
      ∧ (sent.2 = .go →
        (∀ u far, sent.1.ask (.copy id) src.far = (u, some far) →
          s.sendPiece id c t off n r src dst = (u.unask (.copy id) src.far).movePiece id c t off n r src dst far)
        ∧ (∀ u, sent.1.ask (.copy id) src.far = (u, none) → s.sendPiece id c t off n r src dst = u)))
    ∧ (∀ far, let f := s.fetchRun t c off r src n far
       let g := f.1.untaint (.copy id)
       let m := f.2.length
       let bad := f.2.any (·.2)
       let took := fun (u : State) => ({ u with copies := u.copies.upd id (fun c =>
         { c with gaps := cutGaps off (off + m) c.gaps, poison := c.poison || bad, queued := false }) } : State)
       f.1.tainted (.copy id) = false → m ≠ 0 →
       (∀ l, c.mode ≠ 4 → (∀ p ∈ l, ∀ pkg, p.1 ≠ .remote pkg) → 
         let k := g.keepLeaves t id c off
         s.movePiece id c t off n r src (.ok l false) far =
         (took (((k.through (k.copyMode t c c.dstSpace r.dst)).putRun c r.dst.toNat (k.copyEvict t c c.dstSpace r.dst (c.evict / 16 % 8)) l
           (k.eitherWrite t c off l f.2)).through none)).wrotePiece id l m bad)
       ∧ (c.mode = 4 → s.movePiece id c t off n r src dst far = (let u := took g
          { u with slots := u.slots.put u.nextId { cluster := clusterOf c.core, req := id, off := off, data := f.2, targets := c.targets }
                   nextId := u.nextId + 1 }))))
  ∧ (∀ (s : State) (x : Slot) (c : Copy) (tid next : Nat) (rest : List (Option Nat)), s.slots.look s.arg.a = some x →
    s.copies.look x.req = some c → x.targets = some tid :: some next :: rest → s.holder tid = some tid → s.holder next = some next →
    let u := ({ s with slots := s.slots.upd s.arg.a (fun x => { x with targets := some next :: rest }) } : State)
    exec .holdingBufferDrain s = .next (((u.putPart c (c.dst + x.off) 0 (.scratch tid) (c.dst + x.off) x.data).landSpan x.req (.scratch tid) (c.dst + x.off)
      x.data.length).credit x.req c tid x.data.length (x.data.any (·.2)) false))

/-- The tile fetch unit checks the operand pages and reads each granule of 32 bytes whole; a run starts at the head of a free array when its
operands are read and the issue budget allows it, and occupies the array, lower quarters first; after the last run the copies are compared
and the results are ready, and a further step writes them, as it does the status of MPIN and MUNPIN; every 256 clocks a window of the
budget ends (R68, R296 to R302, R283, R292, R306, R308). Where the spec leaves a choice here, the model's is in log entries 18, 39, 159
and 172. -/
def Obligations.MatrixRunsReadStartAndWriteBack : Prop :=
  (∀ (s : State),
    let id := s.arg.a
    let core := s.arg.a
    (∀ o, s.liveOp id = some o → o.kind.multiplies = true → o.walking = false →
      (o.mtx.checked = false → exec .tileFetchRead s = .next (s.mtxPages id o))
      ∧ (o.mtx.checked = true → exec .tileFetchRead s = .next (s.readGran id s.arg.b)))
    ∧ exec .matrixRunStart s = .next ((upFrom 0 (s.arg.b + 1)).foldl (fun s q => s.startOne core q) (s.boundary core))
    ∧ (∀ o, s.liveOp id = some o → o.walking = false → o.kind.multiplies = true ∨ o.kind = .mzero →
      let u := o.upset.getD {}
      (o.outs ≠ [] → exec .matrixWriteback s = .next (s.mtxLand id o))
      ∧ (∀ e t, o.outs = [] → o.runs = 0 → o.started = true → s.firstInOrder id o = true → s.opEnv o = some e → s.teams.look o.tid = some t →
        (∀ p ∈ (s.core o.core).arrays, p.2.head? = some id → (s.core o.core).busy.get 0 p.1 = 0) →
        let poisoned := ∃ g ∈ o.mtx.grans, (g.2.data.map (·.2)) = some true
        let words := fun th => (((s.mtxOuts o t).lookup th).getD []).map (·.2)
        (∀ r, u.compare e (fun _ _ => 0) words = some r → exec .matrixWriteback s = .next (s.mtxFault id o r))
        ∧ (u.compare e (fun _ _ => 0) words = none →
          (poisoned → exec .matrixWriteback s = .next ((s.dequeue o.core id).poisonOp id))
          ∧ (¬poisoned → exec .matrixWriteback s =
              .next ((s.logVoted e o.cls (fun _ _ => 0) words u).drawn.updOp id (fun x => { x with outs := s.mtxOuts o t }))))))
    ∧ (∀ o e, s.liveOp id = some o → o.walking = false → o.kind = .mpin ∨ o.kind = .munpin → s.opEnv o = some e →
      (o.allPerformed = true → exec .matrixWriteback s =
        .next (((o.lanes.foldl (fun s a => s.giveReg id o a.thread a.result) s).unpark id).endOp id))
      ∧ (o.allPerformed = false → o.args.getD 1 0 = 0 → exec .matrixWriteback s = .next (s.pinStatus id 3)))
    ∧ ((s.core core).clock % 256 = 0 → (s.core core).window ≠ (s.core core).clock / 256 → exec .governorWindowBoundary s =
        .next (s.updCore core (fun c => { c with
          used := c.used - c.budget, budget := if c.next = 0 then 1 else min c.next 1024, window := c.clock / 256 })))
    ∧ ((s.core core).clock % 256 ≠ 0 ∨ (s.core core).window = (s.core core).clock / 256 → exec .governorWindowBoundary s = .next s))
  ∧ (∀ (s : State) (core quarter : Nat), (s.runReady core quarter = none → s.startOne core quarter = s)
    ∧ (∀ id o, s.runReady core quarter = some (id, o) →
      ((s.core core).allows o.kind = false → s.startOne core quarter = s)
      ∧ ((s.core core).allows o.kind = true → s.startOne core quarter =
        (s.updCore core (fun c => { c with
          busy := c.busy.set 0 quarter o.occupancy, used := c.used + (if o.kind = .mzero then 0 else o.occupancy) })).updOp id
          (fun o => { o with runs := o.runs - 1, started := true }))))
  ∧ (∀ (s : State) (id k : Nat) (o : Op) (g : Gran) (t : Team) (u : State), s.ops.look id = some o → o.mtx.grans.look k = some g →
    s.teams.look o.tid = some t → g.data = none → s.storesDone id o g = true → (s.space g.home).isAbsent g.addr 32 = false →
    (∀ pkg, g.home ≠ .remote pkg) → s.tainted (.tile id) = false → o.mtx.src ≠ 2 → (∃ p ∈ o.mtx.grans, p.1 ≠ k ∧ p.2.data = none) →
    s.request (.tile id) (baseOf (dieOf o.core)) (s.routerOf g.home g.addr).toList (s.core o.core).clock = (u, .go) →
    let a := (u.untaint (.tile id)).unask (.tile id) []
    let v := ((a.recall g.home g.addr 32).mixEngine (some o.tid) none g.home g.addr 32 (32 * k) (evictOf 0 g.cache)).through g.prot
    let w := (v.through none).noteEngine (some o.tid) g.home g.addr 32 (32 * k)
    s.readGran id k = (w.drawn.updOp id (fun o => { o with mtx := { o.mtx with grans := o.mtx.grans.upd k (fun g =>
      { g with data := some (v.wholeStores g.home g.addr 32 (v.readHome g.home g.addr 32), v.poisonAt g.home g.addr 32) }) } })).checkMeta id)

/-- Scrubbing reads the next line of a stack, skips one that the base die holds, and counts and records what it met: what the page's mode
corrects, or poison (R338, R343). Setting VALID carves a free slice, or is refused with CONFLICT; a carved granule is ready once its bytes
are zero; clearing VALID gives the slice back once no access to it is in flight (R344, R345). A failed transfer of a flit counts; the
sixteenth in a row fails the link at both ends, and its packet takes an escape route, or arrives poisoned, or gets a retry answer (R352 to
R354). After 1,024 clocks a refused request is sent again; after 64 retry answers it is lost (R354). An operation of another package acts
on this package's memory and is answered (R421). An answer reaches the lane, the code fetch, the copy piece or the engine that waits for
it (R421). Sixteen failed retransmissions in a row take the link of an external port down (R420). Where the spec leaves a choice here, the
model's is in log entries 48, 100, 101, 105, 138, 146, 147 and 173. -/
def Obligations.MemorySideAndNetworksWork : Prop :=
  (∀ (s : State),
     (let stack := s.arg.a
      let die := stack / 3
      let line := s.ms.scrubPos.get 0 stack
      let at_ := stack * 2 ^ 29 + line
      let t := s.updMs (fun m => { m with scrubPos := m.scrubPos.set 0 stack ((line + 1) % 2 ^ 29) })
      let fixed := t.drawn.updMs (fun m => { m with corr := m.corr.set 0 die (satNat (m.corr.get 0 die + 1) 0xFFFF) })
      let lost := t.drawn.updMs (fun m => { m with uncorr := m.uncorr.set 0 die (satNat (m.uncorr.get 0 die + 1) 0xFFFF) })
      (s.ms.gap die = 0 → exec .scrubRead s = .next s)
      ∧ (s.ms.gap die ≠ 0 →
        (s.arg.b = 0 ∨ s.ms.holdsLine at_ = true → exec .scrubRead s = .next t)
        ∧ (s.arg.b ≠ 0 → s.ms.holdsLine at_ = false →
          (t.fixes .glob (128 * at_) (s.arg.b - 1) = true → exec .scrubRead s =
            .next (fixed.pkgLog { type := 3, severity := 1, engine := 10, address := t.physOf (128 * at_) }))
          ∧ (t.fixes .glob (128 * at_) (s.arg.b - 1) = false → exec .scrubRead s = .next ((lost.spoil .glob (128 * at_) 128).pkgLog
            { type := 4, severity := 3, engine := 10, address := lost.physOf (128 * at_) })))))
     ∧ (let c := s.arg.a
        let g := s.arg.b
        let v := s.arg.c
        let key := v % 4 * 64 + bits v 7 2
        let old := (s.ctx c).chip g
        let full := s.carved key = true ∨ 16 ≤ (s.chips.filter (fun p => p.1 / 64 == v % 4)).length
        let named := fun (u : State) => u.updChip c g (fun m => { m with die := v % 4, slice := bits v 7 2 })
        let taken := fun (u : State) => ({ u.emptySlice key with chips := u.chips.put key {} } : State).updChip c g (fun _ =>
             { die := v % 4, slice := bits v 7 2, valid := true, conflict := old.conflict })
        bit v 10 = false →
         (bit v 8 = false → exec .carve s = .next (named (if old.valid then s.uncarve c g else s)))
         ∧ (bit v 8 = true → old.valid = true → old.key = key → exec .carve s = .next s)
         ∧ (bit v 8 = true → old.valid = false ∨ old.key ≠ key →
           (full → exec .carve s = .next (s.updChip c g (fun m => { m with conflict := true })))
           ∧ (¬full → exec .carve s = .next (taken (if old.valid then s.uncarve c g else s)))))
     ∧ (let c := s.arg.a
        let g := s.arg.b
        let m := (s.ctx c).chip g
        let closed := s.updChip c g (fun m => { m with valid := false, ready := false })
        exec .uncarve s = .next { closed with chips := closed.chips.filter (fun p =>
           closed.sliceBusy p.1 || closed.ctxs.any (fun c => c.2.chipMap.any (fun e => e.2.valid && e.2.key == p.1))) }
        ∧ (m.valid = false ∨ m.ready = true → exec .carveComplete s = .next s)
        ∧ (m.valid = true → m.ready = false → ∃ t, exec .carveComplete s = .next t ∧ ((t.ctx c).chip g).ready = true
           ∧ t.space (.chip m.key) = {} ∧ ∀ p ∈ t.ms.pins, p.slice ≠ m.key)))
  ∧ (∀ (s : State),
       (let k := s.arg.a
        let b := k / 4
        let how := s.arg.c
        let fails := s.ms.fails.get 0 k + 1
        let down := s.failLink k
        let counted := fun (n : Nat) => Host.Outcome.next (φ := Fault) (ρ := Refusal) (s.updMs (fun m => { m with fails := m.fails.set 0 k n }))
        let asker := requesterOf (how / 4) s.arg.d
        let crosses := fun (e : Nat × Nat) => (linksBetween e.1 e.2).any (fun l => (linkEnds l).contains k)
        ∀ diag, (∃ x y lane, asker = none ∧ s.arg.opt = some lane ∧ s.laneEnds s.arg.d lane = some (x, y) ∧ diag = diagonal x y ∧ crosses (x, y) = true)
           ∨ (∃ q, asker = some q ∧ (s.requesterEnds q).filter crosses ≠ []
             ∧ diag = if ((s.requesterEnds q).filter crosses).all (fun e => diagonal e.1 e.2) then true
               else bit how 1 && ((s.requesterEnds q).filter crosses).any (fun e => diagonal e.1 e.2)) →
         k < 16 → k % 4 ≠ 0 → s.ms.down.has k = false →
         (s.arg.b = 0 → exec .linkRetransmit s = counted 0)
         ∧ (s.arg.b ≠ 0 → fails < 16 → exec .linkRetransmit s = counted fails)
         ∧ (s.arg.b ≠ 0 → 16 ≤ fails →
           (down.ms.escape k diag = true → exec .linkRetransmit s =
             .next (down.updMs (fun m => { m with rerouted := m.rerouted.set 0 b (satNat (m.rerouted.get 0 b + 1) 0xFFFF) })))
           ∧ (∀ q, down.ms.escape k diag = false → asker = some q →
             exec .linkRetransmit s = .next (down.failPacket b q (bit how 0) (s.arg.opt.getD 0)))
           ∧ (∀ lane, s.arg.opt = some lane → down.ms.escape k diag = false → asker = none →
             exec .linkRetransmit s = .next (if bit how 0 then down.poisonPacket s.arg.d lane else down.retryPacket b s.arg.d lane))))
       ∧ (∀ o a, s.ops.look s.arg.a = some o → o.lanes.find? (fun a => a.lane == s.arg.b && a.phase == .away && a.retries != 0) = some a →
         (64 ≤ a.retries → exec .retryResend s = .next (s.loseRemote s.arg.a s.arg.b))
         ∧ (a.retries < 64 → (s.core o.core).clock < a.poll → exec .retryResend s = .next s)
         ∧ (a.retries < 64 → a.poll ≤ (s.core o.core).clock →
           exec .retryResend s = .next (s.updAcc s.arg.a s.arg.b (fun a => { a with phase := .ready, poll := 0, net := 0 }))))
       ∧ (let x := s.arg
          let q : RemoteReq := {
            addr := x.a, code := x.b, size := x.c % 16, aop := x.c / 16 % 16, atype := x.c / 256 % 16, e := x.c / 4096,
            data := natOf (x.data.take 16), data2 := natOf ((x.data.drop 16).take 16), bytes := x.data, bad := x.poison }
          let n := q.len
          let y := s.loc x.a
          let at_ := fun (evict : Nat) => (s.recall .glob y n).mixEngine none none .glob y n 0 evict
          let t := at_ 0
          let slot := ((at_ 5).intoAdder y).afterRead .glob y n
          let old := natOf (t.readHome .glob y n)
          let u := t.afterRead .glob y n
          let answered := fun (u : State) (data : List Byte) (p : Nat) =>
            exec .remoteOperation s = .next { u with sent := u.sent ++ [.response x.d (x.opt.getD 0) data p] }
          inWindows x.a = false → inWindows (x.a + n - 1) = false → x.b = 0 ∨ s.host.inDump (s.pkg * 2 ^ 43 + x.a) n = false →
           (x.b = 0 → answered (s.remoteRead q).1 ((s.remoteRead q).2.map (·.1)) (poisonOf (s.remoteRead q).2))
           ∧ (x.b = 1 → answered (s.remoteWrite q x.data) [] 0)
           ∧ (x.b = 2 → x.poison = 0 → t.poisonAt .glob y n = false →
             answered (u.writeHome .glob y (bytesOf n (atomNew q.aop (q.atype == 1) (8 * n) old q.data))) (bytesOf n old) 0)
           ∧ (x.b = 3 → x.poison = 0 → t.poisonAt .glob y n = false →
             answered (if old = q.data then u.writeHome .glob y (bytesOf n q.data2) else u) (bytesOf n old) 0)
           ∧ (x.b = 8 → answered (slot.writeHome .glob y (bytesOf 16 0)) [] 0)
           ∧ (x.b = 9 → x.poison = 0 → answered (u.barUpdate .glob y q.upd).1 (bytesOf 4 (b2n (u.barUpdate .glob y q.upd).2.1))
             (b2n (u.barUpdate .glob y q.upd).2.2)))
       ∧ (∀ o a, s.ops.look s.arg.a = some o → o.lanes.find? (fun a => a.lane == s.arg.b && a.phase == .away) = some a → s.arg.opt = none →
         s.arg.d = 0 → o.kind = .ld →
         exec .readResponse s = .next (s.setAcc s.arg.a s.arg.b .applied (natOf s.arg.data) (s.arg.c == 1)))
       ∧ (∀ pa, s.arg.opt = some pa → exec .readResponse s = .next (s.updCore s.arg.a (fun k =>
           if s.arg.c = 1 then { k with icache := k.icache.del pa, ipoison := k.ipoison.ins pa }
           else { k with icache := k.icache.put pa (BitVec.ofNat 64 (natOf (s.arg.data.take 8))), ipoison := k.ipoison.rem pa })))
       ∧ (s.arg.opt = none → s.arg.d = 1 → exec .readResponse s = .next (s.pieceLanded s.arg.a s.arg.b))
       ∧ (s.arg.opt = none → s.arg.d = 2 → exec .readResponse s = .next (s.updMs (fun m => { m with asks := m.asks.zipIdx.map (fun x =>
           if x.2 = s.arg.a ∧ x.1.answer = none then { x.1 with answer := some ((upFrom 0 x.1.len).map (fun i => s.arg.data.getD i 0), s.arg.c) }
           else x.1) })))
       ∧ (let p := s.arg.a - 16
          let fails := s.sad.extFails.get 0 p + 1
          16 ≤ s.arg.a → p < 18 → s.sad.extDown.has p = false →
           (s.arg.b = 0 → exec .linkRetransmit s = .next (s.updSad (fun d => { d with extFails := d.extFails.set 0 p 0 })))
           ∧ (s.arg.b ≠ 0 → fails < 16 → exec .linkRetransmit s = .next (s.updSad (fun d => { d with extFails := d.extFails.set 0 p fails })))
           ∧ (s.arg.b ≠ 0 → 16 ≤ fails → exec .linkRetransmit s =
             .next (s.updSad (fun d => { d with extFails := d.extFails.set 0 p 0, extDown := d.extDown.ins p }))))
       ∧ (s.arg.a = 0 → exec .transportExhausted s = .next (s.loseRemote s.arg.b s.arg.c))
       ∧ (s.arg.a = 3 → exec .transportExhausted s = .next (s.ackPut s.arg.b true))
       ∧ (∀ t, s.arg.a = 1 ∨ s.arg.a = 4 → s.teams.look s.arg.b = some t → exec .transportExhausted s = .next (s.killLaunch t.launch 0x0A)))

/-! ## Steps of the machine: service records and interrupts -/

/-! ## Steps of the machine: the Saddle -/

/-- A tile whose backups are sent (R409) fires when its entry says READY, or AUTO with every byte accepted: STATUS becomes 1 and its
contribution goes out (R398). It completes when its result is written and its contributions are answered, or the wait for answers has
expired: the status fields, which are free values, as the result and the credit are, where software has written to bytes 0x38 to 0x7F
(R445), then its round, then the credit (R412). Both write the entry as Saddle accesses, which wait for a translation that is missing
(R414). Where the spec leaves a choice here, the model's is in log entries 67 to 69, 142 and 177. -/
def Obligations.TilesFireAndComplete : Prop :=
  ∀ (s : State),
    let n := s.arg.a
    let t := s.arg.b
    let c := s.coll n
    let x := s.tile n t
    let v := s.moreBackups n t
    let read := v.watchCtl n t
    let due := bit read.2 0 = true ∨ (bit read.2 1 = true ∧ (v.tile n t).full (v.coll n) = true)
    let idle := (v.coll n).enabled = false ∨ (v.coll n).ntiles ≤ t ∨ (v.tile n t).fired = true ∨ (v.tile n t).erring ≠ none
    let begun := fun (u : State) (p : Option Piece) => (u.entryPut n t p 0x38 (bytesOf 1 1)).updTile n t (fun x =>
      { x with wait := none, fired := true, firedAt := (u.port (homePort n t 0)).clock })
    (¬idle → due → ∀ u e, read.1.openTile n t (homePort n t 0) = .ready u e → exec .tileFire s = .next (u.fire n t e))
    ∧ (∀ (a u : State) l e, a.reach (homePort n t 0) (a.coll n).ctx (a.entryVa n t) 128 true (a.tile n t).wait = .go u l →
      (((begun u l.head?).keyOf n).valid = true → e.bkfor = 0xFFFF → a.fire n t e = ((begun u l.head?).sendTile n t e).drawn)
      ∧ (((begun u l.head?).keyOf n).valid = false → a.fire n t e = (begun u l.head?).collError n t ((begun u l.head?).entryVa n t) e))
    ∧ (∀ (a u : State) e w, a.reach (homePort n t 0) (a.coll n).ctx (a.entryVa n t) 128 true (a.tile n t).wait = .wait u w →
      a.fire n t e = u.updTile n t (fun x => { x with wait := w }))
    ∧ (¬idle → ¬due → (v.tile n t).wait = none → exec .tileFire s = .next read.1)
    ∧ (idle → exec .tileFire s = .next v)
    ∧ (∀ e u l, s.sad.credits = [] → x.entry = some e → x.erring = none → x.fired = true ∨ s.mustFire n e = false → s.chunksIn n t e = true →
      x.answers = 0 ∨ x.expired = true → s.reach (homePort n t 0) c.ctx (s.entryVa n t) 128 true x.wait = .go u l →
      let status := bytesOf 1 (if x.missing ≠ 0 ∨ x.incomplete = true then 3 else 2)
      let flags := bytesOf 1 (if x.nan = 0xFFFF then x.sflags else Nat.lor x.sflags 4)
      let found := if x.touched = true then (upFrom 0 68).map u.freeByte else status ++ flags ++ bytesOf 2 x.nan ++ bytesOf 64 x.missing
      let held := if x.touched = true then u.spoilResult n e else u
      let at_ := l.head?
      let written := ((held.drawn.entryPut n t at_ 0x38 (found.take 1)).entryPut n t at_ 0x39 ((found.drop 1).take 3)).entryPut n t at_ 0x40 (found.drop 4)
      let ended := written.advanceRound n t false at_
      (e.barrier = 0 → exec .tileComplete s = .next ended)
      ∧ (e.barrier ≠ 0 → exec .tileComplete s = .next (ended.tryCredit
          { coll := n, tile := t, ctx := c.ctx, va := e.barrier
            bytes := if x.touched = true then (u.freeByte 68).toNat + 256 * (u.freeByte 69).toNat else e.outTile c
            err := x.touched && u.freeBit 70, sflags := if x.nan = 0xFFFF then x.sflags else Nat.lor x.sflags 4 })))
    ∧ (∀ e, x.entry = some e →
      let late := x.fired = true ∧ e.timeout ≠ 0
        ∧ x.firedAt + e.timeout * (heightOf treeFuel 0 e.ncontrib + 1) ≤ (s.port (homePort n t 0)).clock
      (late → exec .answerWaitExpiry s = .next (s.updTile n t (fun x => { x with expired := true })))
      ∧ (¬late → exec .answerWaitExpiry s = .next s))

/-- The home port takes a store to an alias window whole: its bytes and elements stand in the tile, and the access is done. One that is
misaligned, repeats an element, comes after the firing or finds no room is a collective error; one outside its window is only recorded
(R396). It comes over the package network (R351). A write to SADDLE_COLLn_CFG stores the fields it has, unless it would enable the
collective without the feature or reserve more than 32 MiB in all (R424, R464). Where the spec leaves a choice here, the model's is in log
entries 30, 79 and 81. -/
def Obligations.CollectivesTakeStoresAndConfiguration : Prop :=
  (∀ (s : State) (o : Op) (a : Acc) (tm : Team), s.liveOp s.arg.a = some o → o.lanes.find? (fun a => a.lane == s.arg.b) = some a →
     s.teams.look o.tid = some tm → a.alias_ ≠ 0 → a.phase = .ready → s.clearAhead s.arg.a o a = true → o.lanesAhead a = true →
     let id := s.arg.a
     let lane := s.arg.b
     let n := a.coll
     let g := if a.net = 1 then (s, true) else s.roundTrip (baseOf (dieOf o.core)) [4]
     let s' := g.1
     let c := s'.coll n
     let off := a.addr - bits c.win 51 21 * 2 ^ 21
     let t := off / c.tileBytes
     let i := off % c.tileBytes
     let es := elemBytes c.ifmt
     let els := upFrom (i / es) (o.bytes / es)
     let k := i / (256 * es)
     let logged := fun (u : State) => (u.collRecord tm.ctx (t % 2 ^ 32) a.addr).aliasDone id lane
     (g.2 = false → exec .aliasStoreAccept s = .next (s'.retryLane id lane))
     ∧ (g.2 = true → c.enabled = true → a.alias_ ≠ c.kind ∨ tm.ctx ≠ c.ctx → exec .aliasStoreAccept s = .next (logged s'))
     ∧ (g.2 = true → c.enabled = false → exec .aliasStoreAccept s = .next (logged (s'.countErr n)))
     ∧ (g.2 = true → c.enabled = true → a.alias_ = c.kind → tm.ctx = c.ctx → s'.aliasTile a = none →
       exec .aliasStoreAccept s = .next (logged (s'.countErr n)))
     ∧ (∀ u e, g.2 = true → c.enabled = true → a.alias_ = c.kind → tm.ctx = c.ctx → s'.aliasTile a = some (n, t) →
       s'.openTile n t (homePort n t k) = .ready u e → (u.tile n t).erring = none →
       let bad := i % es ≠ 0 ∨ o.bytes % es ≠ 0 ∨ (u.tile n t).fired = true ∨ (∃ j ∈ els, (u.tile n t).got.has j = true)
         ∨ (c.kind = 1 ∧ e.myidx ≠ 0) ∨ u.cbufFull n o.bytes = true
       (bad → exec .aliasStoreAccept s = .next ((u.tileError n t a.addr).aliasDone id lane))
       ∧ (∀ v j, ¬bad → u.openChunk (homePort n t k) n t k (u.tile n t).round e = (v, some j) →
         exec .aliasStoreAccept s = .next ((v.updTile n t (fun x =>
           { x with bytes := writeCells x.bytes i (bytesOf o.bytes a.data), got := els.foldl NatSet.ins x.got,
                     bad := if a.poisoned then (upFrom (i / 32) ((i + o.bytes + 31) / 32 - i / 32)).foldl NatSet.ins x.bad else x.bad })).aliasDone id lane))))
  ∧ (∀ (s : State) (v : Nat), s.arg.a < 1024 → v = Nat.land s.arg.b 0x00FFFFFF7FFFF3FF →
       let n := s.arg.a
       let others := s.sad.colls.foldl (fun a p => if p.1 = n then a else a + p.2.cbuf) 0
       let u := s.updColl n (fun c => { c with cfg := v })
       let refused := 512 < others + bits v 55 48 ∨ (bit v 0 = true ∧ bit s.host.ack0.toNat 3 = false)
       (refused → exec .saddleCollCfgWrite s = .next s)
       ∧ (¬refused → (u.coll n).enabled = true → exec .saddleCollCfgWrite s = .next u)
       ∧ (¬refused → (u.coll n).enabled = false →
         exec .saddleCollCfgWrite s = .next (u.updSad (fun d => { d with
           tiles := d.tiles.filter (fun p => p.1 / 2 ^ 16 != n), backups := d.backups.filter (fun b => b.coll != n) }))))

/-- A packet is matched by the lowest entry of its port's table: its handler enters at that entry's word with its registers, or it is only
counted (R404, R405); a put that no key decrypts is answered with an error (R418), and a frame of another delivery mode is dropped and
counted (R420). The deadline of a chunk raises a timer event once what has arrived for the chunk is handled (R408, R423); a held packet is
presented again when its condition holds (R410); acceptances and late notices reach the tile (R411); a packet for another package is
forwarded (R393). Where the spec leaves a choice here, the model's is in log entries 70, 73, 74, 76 and 177. -/
def Obligations.PacketsEnterTheirHandlers : Prop :=
  ∀ (s : State),
    (∀ pkt i, s.arg.data = [] → (s.port s.arg.a).run = true → (s.port s.arg.a).inbox.find? Packet.handled = some pkt →
      (s.port s.arg.a).freeCtx false = some i →
      let p := s.arg.a
      let u := s.updPort p (fun k => { k with inbox := takeFirst (fun q => q == pkt) k.inbox })
      let enters := fun (pc : Nat) => Host.Outcome.next (φ := Fault) (ρ := Refusal) (u.updPort p (fun k =>
        { k with handlers := k.handlers.put i { pc := pc, regs := entryRegs pkt.kind pkt 0x1002, pkt := pkt, timer := false } }))
      (∀ pc, pkt.kind = 10 → (u.port p).matching pkt.kind pkt.coll = some pc →
        (s.jobKey pkt.job = true → exec .packetMatch s = enters pc)
        ∧ (s.jobKey pkt.job = false → pkt.src ≠ s.pkg → exec .packetMatch s =
          .next (u.sendPacket pkt.src { kind := 11, flags := 8, job := pkt.job, src := s.pkg, send := pkt.send })))
      ∧ (∀ pc, pkt.kind = 11 → (u.port p).matching pkt.kind pkt.coll = some pc → exec .packetMatch s = enters pc)
      ∧ ((u.port p).matching pkt.kind pkt.coll = none → exec .packetMatch s = .next (u.updPort p (fun k =>
        { k with unmatched := min (k.unmatched + 1) 0xFFFF }))))
    ∧ (s.arg.data ≠ [] → 2 ≤ s.arg.c → (s.port s.arg.a).run = false → exec .packetMatch s = .next (s.updPort s.arg.a (fun q =>
        { q with badFrames := min (q.badFrames + 1) 0xFFFF })))
    ∧ ((s.port s.arg.a).run = false → s.arg.data = [] → exec .packetMatch s = .next s)
    ∧ (∀ c k d, (s.port s.arg.a).chunks.look s.arg.b = some c → (s.port s.arg.a).freeCtx true = some k → c.tomb = false → c.raised = false →
      (s.port s.arg.a).run = true → (s.port s.arg.a).arriving c = false → c.deadline = some d →
      let p := s.arg.a
      let free := (Config.freeWord s.free).toNat
      let pkt : Packet := { kind := 0, src := s.pkg, coll := c.coll, tile := c.tile, chunk := c.chunk, round := c.round,
                            lo := bits free 15 0, hi := bits free 31 16 }
      ((s.port p).clock < d → exec .chunkDeadline s = .next s)
      ∧ (d ≤ (s.port p).clock → exec .chunkDeadline s = .next ((s.drawn.updPort p (fun q =>
        { q with chunks := q.chunks.put s.arg.b { c with raised := true } })).startHandler p k 0 pkt true s.arg.b)))
    ∧ (∀ h, s.sad.held.look s.arg.a = some h →
      (s.holdOver h = true → exec .heldPacketRelease s = .next ((s.updSad (fun d => { d with held := d.held.del s.arg.a })).deliver h.pkt))
      ∧ (s.holdOver h = false → exec .heldPacketRelease s = .next s))
    ∧ (s.arg.data = [] → ∀ k, ∀ late : Bool,
      (s.port s.arg.a).inbox.find? (fun q => q.kind == if late then 8 else 9) = some k →
      let u := s.updPort s.arg.a (fun q => { q with inbox := takeFirst (fun x => x == k) q.inbox })
      let x := s.tile k.coll k.tile
      let ev := if late then Instr.lateNotice else Instr.leafAcceptance
      (x.fired = true → x.round = k.round → exec ev s = .next (u.updTile k.coll k.tile (fun x =>
        { x with answers := x.answers - 1, sflags := if late then Nat.lor x.sflags 2 else x.sflags })))
      ∧ (x.fired = false ∨ x.round ≠ k.round → exec ev s = .next u))
    ∧ (s.arg.b ≠ s.pkg → s.arg.c < 2 → s.wayTo s.arg.b = true →
      exec .packetForward s = .next { s with sent := s.sent ++ [.forward s.arg.b s.arg.data] })

/-- Writing an entry of the triggered sends is refused while the send is going on, for a bad image and for a package that it may not send to
(R416, R439). A send whose counter meets its threshold fires; its source is read and cut into puts of 4,096 bytes (R417); a put leaves its
port within the rate (R440), and fails where there is no way to its package or no key for it (R418, R422); the last acknowledgement ends
the send (R417). Where the spec leaves a choice here, the model's is in log entries 70, 80, 82 and 148. -/
def Obligations.SendsAreWrittenFiredAndAcknowledged : Prop :=
  (∀ (s : State) (n e : Nat) (img : List Byte),
    let old := s.send e
    let new : Send := { image := img, arm := bit (natOf ((img.drop 2).take 1)) 0, credit := bit (natOf ((img.drop 2).take 1)) 1 }
    let busy := old.fired = true ∧ old.done = false
    (busy → s.writeSend n e img = (s, 1))
    ∧ (¬busy → s.imageOk n new = false → s.writeSend n e img = (s, 3))
    ∧ (¬busy → s.imageOk n new = true → s.sendAllowed n new.dpkg = false → s.writeSend n e img = (s, 2))
    ∧ (¬busy → s.imageOk n new = true → s.sendAllowed n new.dpkg = true →
      let t := s.updSend e (fun _ => new)
      (t.sendDue e = false → s.writeSend n e img = (t, 0)) ∧ (t.sendDue e = true → s.writeSend n e img = (t.fireSend e, 0))))
  ∧ (∀ (s u : State) (l : List Piece), (s.send s.arg.a).arm = true → (s.send s.arg.a).thresh ≤ (s.ctr (s.send s.arg.a).counter).val.toNat →
      let e := s.arg.a
      let x := s.send e
      let f := s.updSend e (fun y => { y with arm := false, fired := true, stamp := (s.port x.owner).clock })
      let g := f.updSend e (fun x => { x with reading := true, left := 0, failed := false })
      (f.sendAllowed x.owner x.dpkg = false → (∃ t, exec .triggeredSendFire s = .next t ∧ (t.send e).done = true ∧ (t.send e).err = true))
      ∧ (f.sendAllowed x.owner x.dpkg = true →
        (∀ q ∈ g.sad.sends, q.1 < e → q.2.reading = true → q.2.owner = x.owner → q.2.stamp ≠ (g.send e).stamp) → g.reach x.owner (g.awl x.owner).ctx x.src x.length false x.wait = .go u l →
        let r := u.readPieces l
        let ps := putsOf u.pkg e (g.send e) r.2 256 0
        exec .triggeredSendFire s = .next ((r.1.updSend e (fun x => { x with reading := false, wait := none, left := ps.length })).updPort x.owner
          (fun k => { k with puts := k.puts ++ ps.map (fun p => (x.dpkg, p)) }))))
  ∧ (∀ (s : State) (dst : Nat) (p : Packet) (rest : List (Nat × Packet)), (s.port s.arg.a).puts = (dst, p) :: rest →
      let n := s.arg.a
      let rate := if (s.awl n).rate = 0 then 0 else max (s.awl n).rate 4096
      (rate < (s.port n).used + p.data.length → exec .putInject s = .next s)
      ∧ ((s.port n).used + p.data.length ≤ rate →
        let u := s.updPort n (fun k => { k with puts := rest, used := k.used + p.data.length })
        (dst = s.pkg ∨ u.wayTo dst = true → u.jobKey p.job = true → exec .putInject s = .next (u.sendPacket dst p))
        ∧ (dst ≠ s.pkg ∧ u.wayTo dst = false ∨ u.jobKey p.job = false → exec .putInject s = .next (u.ackPut p.send true))))
  ∧ (∀ (s : State) (k : Packet), s.arg.data = [] → (s.port s.arg.a).inbox.find? (fun k => k.kind == 11 && !k.seen) = some k → (s.send k.send).fired = true →
      (s.send k.send).done = false → (s.send k.send).left ≠ 0 →
      let e := k.send
      let x := s.send e
      let u := s.updPort s.arg.a (fun q => { q with inbox := takeFirst (fun x => x == k) q.inbox ++ [{ k with seen := true }] })
      let v := u.updSend e (fun x => { x with left := x.left - 1, failed := x.failed || bit k.flags 3 })
      (x.left ≠ 1 → exec .putAcknowledgement s = .next v)
      ∧ (x.left = 1 → exec .putAcknowledgement s = .next (v.endSend e (x.failed || bit k.flags 3))))

/-! ## Steps of the machine: the Awls -/

/-- A standard instruction executes on the hart of its Awl: addition and the branch on equality, a load and a store of local memory, `ECALL`
and `MRET`; a word that is no instruction raises the illegal-instruction exception (R425 to R428). Where the spec leaves a choice here,
the model's is in log entries 33 and 34. -/
def Obligations.AwlStandardInstructionsComplete : Prop :=
  ∀ (s : State) (n : Nat), s.who = .awl n →
    let h := s.awl n
    let d := s.drawn
    let runs := fun (w : Nat) (t : State) => s.arg.a = w → exec .awlStandardInstruction s = .next t
    let rForm := fun (f7 f3 op : Nat) (rd x y : BitVec 5) =>
      f7 * 2 ^ 25 + y.toNat * 2 ^ 20 + x.toNat * 2 ^ 15 + f3 * 2 ^ 12 + rd.toNat * 2 ^ 7 + op
    let iForm := fun (f3 op : Nat) (rd x : BitVec 5) (imm : BitVec 12) =>
      imm.toNat * 2 ^ 20 + x.toNat * 2 ^ 15 + f3 * 2 ^ 12 + rd.toNat * 2 ^ 7 + op
    let reg := fun (r : BitVec 5) => h.xr r.toNat
    let ext := fun (imm : BitVec 12) => (imm.signExtend 64).toNat
    (∀ rd x y : BitVec 5, runs (rForm 0 0 0x33 rd x y) (d.updAwl n (fun _ => (h.setX rd.toNat ((reg x + reg y) % 2 ^ 64)).retire 4)))
    ∧ (∀ rd x y : BitVec 5, runs (rForm 0x20 0 0x33 rd x y)
        (d.updAwl n (fun _ => (h.setX rd.toNat ((reg x + 2 ^ 64 - reg y) % 2 ^ 64)).retire 4)))
    ∧ (∀ (rd x : BitVec 5) (imm : BitVec 12), runs (iForm 0 0x13 rd x imm)
        (d.updAwl n (fun _ => (h.setX rd.toNat ((reg x + ext imm) % 2 ^ 64)).retire 4)))
    ∧ (∀ (rd x : BitVec 5) (imm : BitVec 12), let at' := (reg x + ext imm) % 2 ^ 64
        at' % 8 = 0 → at' + 8 ≤ 0x40000 → h.bad at' 8 = false → runs (iForm 3 0x03 rd x imm)
          (d.updAwl n (fun _ => (h.setX rd.toNat (natOf (h.localBytes at' 8))).retire 4)))
    ∧ (∀ (rd x : BitVec 5) (imm : BitVec 12), let at' := (reg x + ext imm) % 2 ^ 64
        at' % 8 ≠ 0 → runs (iForm 3 0x03 rd x imm) ((d.updAwl n (fun _ => h)).awlTrap n 4 at'))
    ∧ runs 0x00000073 ((d.updAwl n (fun _ => h)).awlTrap n 11 0)
    ∧ runs 0x30200073 (d.updAwl n (fun _ => { ({ h with mie := h.mpie, mpie := true } : Awl).retire 4 with pc := BitVec.ofNat 64 h.mepc.toNat }))
    ∧ runs 0x00000000 (d.awlTrap n 2 0)
    ∧ (∀ w, (h.standard (2 ^ 70 + s.free * 16) n w = none → runs w (d.awlTrap n 2 w))
      ∧ (∀ a, h.standard (2 ^ 70 + s.free * 16) n w = some (.next a) → runs w (d.updAwl n (fun _ => a.retire (if w % 4 = 3 then 4 else 2)))))

/-- System software runs, resets and loads an Awl, sets its context and rings its doorbell; its timer and its doorbell are events that end
`awl.waitev` (R429, R436, R442 to R444). Where the spec leaves a choice here, the model's is in log entries 88, 90 and 91. -/
def Obligations.AwlsAreRunLoadedAndWoken : Prop :=
  ∀ (s : State) (n v : Nat), s.arg.a = n → s.arg.b = v →
    let a := s.awl n
    let raised := fun (t : State) (b : Nat) => t.updAwl n (fun a => { a with pend := Nat.lor a.pend (2 ^ b) })
    (a.waiting = .no → exec .awlRun s = .next (s.updAwl n (fun a => { a with run := v % 2 == 1 })))
    ∧ (∀ d, a.waiting = .halt d true → v % 2 = 1 →
      exec .awlRun s = .next (s.updAwl n (fun a => (({ a with run := true, waiting := .no } : Awl).setX d 0).retire 4)))
    ∧ (a.run = true → exec .awlReset s = .next s)
    ∧ (a.run = false → exec .awlReset s = .next ((s.changeAwl n (fun a => { a.resetHart n s.pkg with lock := false })).updSad (fun d =>
        { d with sends := d.sends.map (fun p => (p.1, if a.ownsSend p.1 && !p.2.fired then { p.2 with arm := false } else p.2)) })))
    ∧ (let x := a.resetHart n s.pkg
       x.xr 2 = 0x40000 ∧ x.xr 10 = n % 2 ^ 64 ∧ x.xr 11 = s.pkg % 2 ^ 64 ∧ x.xr 1 = 0 ∧ x.pc = BitVec.ofNat 64 a.entry ∧ x.mtvec = 0 ∧ x.fault = false
        ∧ x.pend = 0 ∧ x.waiting = .no ∧ x.mem = a.mem)
    ∧ ((bit v 0 = true ∧ a.run = false ∧ a.loadStatus ≠ 1 ∧ s.feature 8 = true) →
      exec .awlLoadGo s = .next (s.updAwl n (fun a => { a with loadAddr := bits v 51 6 * 64, loadStatus := 1 })))
    ∧ (¬(bit v 0 = true ∧ a.run = false ∧ a.loadStatus ≠ 1 ∧ s.feature 8 = true) →
      exec .awlLoadGo s = .next (s.updAwl n (fun a => { a with loadAddr := bits v 51 6 * 64 })))
    ∧ (a.loadStatus = 1 →
      let head := imageOf (s.physBytes a.loadAddr 0x80)
      let whole := imageOf (s.physBytes a.loadAddr (0x200 + head.codeSize + 16224))
      (head.headOk 0x4C574154 0 = false → exec .awlLoadComplete s = .next (s.drawn.updAwl n (fun a => { a with loadStatus := 3 })))
      ∧ (head.headOk 0x4C574154 0 = true → head.codeSize ≤ 0x40000 → s.physBytes a.loadAddr (0x200 + head.codeSize + 16224) ≠ [] →
        (s.loadCheck n whole ≠ 2 → exec .awlLoadComplete s = .next (s.drawn.updAwl n (fun a => { a with loadStatus := s.loadCheck n whole })))
        ∧ (s.loadCheck n whole = 2 → exec .awlLoadComplete s = .next (s.drawn.changeAwl n (fun a =>
            { ({ a with entry := whole.entry } : Awl).resetHart n s.pkg with
              mem := writeCells [] whole.loadAddr whole.payload, stale := [], ecc := [], image := whole.head ++ whole.payload, loadStatus := 2 })))))
    ∧ (a.loadStatus ≠ 1 → exec .awlLoadComplete s = .next s)
    ∧ exec .awlCtxLock s = .next (s.changeAwl n (fun a => { a with ctx := if a.lock then a.ctx else v % 4096, lock := a.lock || bit v 12 }))
    ∧ exec .awlDoorbell s = .next (raised (s.updAwl n (fun a => { a with doorbell := BitVec.ofNat 64 v })) 2)
    ∧ (a.timer = 1 → exec .awlTimerExpiry s = .next (raised (s.updAwl n (fun a => { a with timer := 0 })) 3))
    ∧ (a.timer ≠ 1 → exec .awlTimerExpiry s = .next s)
    ∧ (∀ m d, a.waiting = .events m d →
      (Nat.land a.pend m ≠ 0 → exec .awlWaitevWake s = .next (s.updAwl n (fun a =>
        (({ a with pend := Nat.land a.pend (31 - m), waiting := .no } : Awl).setX d (Nat.land a.pend m)).retire 4)))
      ∧ (Nat.land a.pend m = 0 → exec .awlWaitevWake s = .next s))

/-! ## Steps of the machine: the host complex -/

/-- A fatal error stops the package with its first cause and raises the management MSI: on request, when the watchdog reaches 0, and when a
compute die is at or above 110 °C; only management firmware sets DUMPED, once it has written the dump at HOST_DUMP_BASE (R468), and serves
the watchdog. 10,000 ticks more than 5 % over the power limit set every core's budget to FLOOR (R452, R466, R467). Package reset leaves
the reset state but for what is fused, the bytes of device memory (the model's choice, log entry 35) and the model's own bookkeeping; the
steps of bring-up come one after the other, and one that fails stops it (R453, R454). Where the spec leaves a choice here, the model's is
in log entries 35, 95, 96, 101, 102 and 165. -/
def Obligations.ThePackageResetsBootsAndStops : Prop :=
  (∀ (s : State),
     let h := s.host
     let mgmt := s.arg.b = 8 ∨ s.arg.b = 9
     let stops := fun (u : State) (cause : Nat) =>
       if u.host.stopped = true then u else ({ u with host := { u.host with stopped := true, fatalCause := cause, fatalTime := u.host.mtime.toNat } } : State).pkgMsi 1
     (bit s.arg.a 0 = true → exec .hostFatalReq s = .next (stops s 5))
     ∧ (bit s.arg.a 0 = false → exec .hostFatalReq s = .next s)
     ∧ (mgmt → bit s.arg.a 2 = true →
       let w := if h.stopped = true ∧ h.dumped = false then s.writeDump else s
       exec .hostFatalDumped s = .next { w with host := { w.host with dumped := true } })
     ∧ s.writeDump = s.writePieces (s.physPieces h.dumpBase s.dumpBytes.length) (s.dumpBytes.map (fun b => (b, false)))
     ∧ (¬mgmt ∨ bit s.arg.a 2 = false → exec .hostFatalDumped s = .next s)
     ∧ (mgmt → bit s.arg.a 63 = true → exec .watchdogService s = .next { s with host := { h with wdog := 2 ^ 28 } })
     ∧ (¬mgmt ∨ bit s.arg.a 63 = false → exec .watchdogService s = .next s)
     ∧ (h.started = true → h.wdog = 1 → exec .watchdogExpiry s = .next (stops { s with host := { h with wdog := 0 } } 3))
     ∧ (h.started = false ∨ h.wdog ≠ 1 → exec .watchdogExpiry s = .next s)
     ∧ (880 ≤ s.arg.b → exec .thermalTrip s = .next (stops { s with host := { h with tmax := max h.tmax (s.arg.b % 2 ^ 16) } } 1))
     ∧ (s.arg.b < 880 → exec .thermalTrip s = .next s)
     ∧ (h.hotTicks < 10000 → exec .powerClamp s = .next s)
     ∧ (10000 ≤ h.hotTicks → ∃ t, exec .powerClamp s = .next t ∧ t.host = { h with clamp := true, hotTicks := 0 }
       ∧ (∀ c, t.core c = if c < 160 then { s.core c with next := h.floor } else s.core c)))
  ∧ (∀ (s : State),
       let x := s.arg
       let h := s.host
       (x.a = 0 → exec .packageReset s = .next { State.reset with
         agenda := s.agenda, free := s.free, nextId := s.nextId, sent := s.sent, hdie := s.hdie, glob := { cells := s.glob.cells },
         host := { State.reset.host with fuses := h.fuses } })
       ∧ (1 ≤ x.a → x.a ≤ 5 → h.fail = true ∨ h.stage + 1 ≠ x.a → exec .packageReset s = .next s)
       ∧ (1 ≤ x.a → x.a ≤ 5 → h.fail = false → h.stage + 1 = x.a → x.b = 1 →
         exec .packageReset s = .next { s with host := { h with stage := x.a, fail := true } })
       ∧ (x.a = 1 → h.fail = false → h.stage = 0 → x.b ≠ 1 →
         let i := imageOf x.data
         let h' := { h with stage := 1 }
         (h'.imageGood 1 (2 ^ 20) i = false → exec .packageReset s = .next { s with host := { h' with fail := true } })
         ∧ (h'.imageGood 1 (2 ^ 20) i = true → exec .packageReset s = .next { s with host := { h' with
             sram := writeCells h.sram i.loadAddr (i.payload ++ (upFrom 0 i.zeroSize).map (fun _ => 0)), started := true,
             measured := [Config.romDigest, Config.sha384 (i.head ++ i.payload)] } }))
       ∧ (x.a = 2 → h.fail = false → h.stage = 1 → x.b ≠ 1 → x.opt = none → exec .packageReset s = .next { s with host := { h with stage := 2 } })
       ∧ (x.a = 3 → h.fail = false → h.stage = 2 → x.b ≠ 1 → x.data = [] →
         exec .packageReset s = .next { s with host := { h with stage := 3, lock := true } })
       ∧ (x.a = 5 → h.fail = false → h.stage = 4 → x.b ≠ 1 →
         let i := imageOf h.app
         let bytes := i.payload ++ (upFrom 0 i.zeroSize).map (fun _ => 0)
         ∃ t, exec .packageReset s = .next t ∧ t.host.released = [0] ∧ t.host.stage = 6
           ∧ (t.hart 0).mode = .m ∧ (t.hart 0).pc = BitVec.ofNat 64 (h.bootDest + i.entry) ∧ (t.hart 0).regs.get 0 10 = 0
           ∧ (t.hart 0).regs.get 0 11 = BitVec.ofNat 64 x.c
           ∧ t.glob = (({ s with host := { h with stage := 5 } } : State).writePieces (s.physPieces (h.bootDest + i.loadAddr) bytes.length)
             (bytes.map (fun b => (b, false)))).glob)
       ∧ (x.a = 7 → h.released.has 0 = true → 1 ≤ x.b → x.b < 8 → h.released.has x.b = false → ∃ t, exec .packageReset s = .next t
         ∧ t.host.released.has x.b = true ∧ (t.hart x.b).mode = .m ∧ (t.hart x.b).pc = BitVec.ofNat 64 (h.bootDest + (imageOf h.app).entry)
         ∧ (t.hart x.b).regs.get 0 10 = BitVec.ofNat 64 x.b ∧ (t.hart x.b).regs.get 0 11 = BitVec.ofNat 64 h.devDesc))

/-- LOCK is set once by management firmware (R454); the features that the device offers are acknowledged until COMMIT, which is refused with
bit 0 clear (R464). A host credit is captured at GO and applied at the object's home; a misaligned or untranslated address, and poison,
set FAILED; it follows the hart's earlier stores, and one for another package stays BUSY until that has answered (R463). Where the spec
leaves a choice here, the model's is in log entries 65, 92 and 179. -/
def Obligations.HostCreditsFeaturesAndLocks : Prop :=
  ∀ (s : State),
    let h := s.host
    let hart := s.arg.a
    let v := s.arg.b
    let c := s.hostCredit hart
    let mgmt := s.arg.b = 8 ∨ s.arg.b = 9
    let ended := fun (u : State) (failed : Bool) => u.updCredit hart (fun x => { x with going := none, failed := x.failed || failed, away := false })
    (mgmt → bit s.arg.a 0 = true → exec .hostLockWrite s = .next { s with host := { h with lock := true } })
    ∧ (¬mgmt ∨ bit s.arg.a 0 = false → exec .hostLockWrite s = .next s)
    ∧ (h.featStatus ≠ 1 → s.arg.b = 0 → exec .hostFeatAckWrite s = .next { s with host := { h with ack0 := BitVec.ofNat 64 (s.arg.a % 2 ^ 11) } })
    ∧ (h.featStatus = 1 ∨ s.arg.b ≠ 0 → exec .hostFeatAckWrite s = .next s)
    ∧ (h.featStatus ≠ 1 → exec .hostFeatCommit s = .next { s with host := { h with featStatus := if bit h.ack0.toNat 0 = true then 1 else 2 } })
    ∧ (h.featStatus = 1 → exec .hostFeatCommit s = .next s)
    ∧ (let new := fun (g : Option CreditReq) =>
         { c with ctx := bits v 11 0, bytes := bits v 27 12, err := bit v 28, failed := c.failed && !bit v 31, going := g }
       (bit v 29 = true → c.going = none → exec .hostCreditGo s = .next (s.updCredit hart (fun _ =>
          new (some { va := c.va.toNat, ctx := bits v 11 0, bytes := bits v 27 12, err := bit v 28 }))))
       ∧ (bit v 29 = false ∨ c.going ≠ none → exec .hostCreditGo s = .next (s.updCredit hart (fun _ => new c.going))))
    ∧ (∀ g, c.going = some g →
      let behind := c.away = true ∨ (∃ x ∈ h.waits, x.c % 16 = hart ∧ x.data ≠ []) ∨ (h.harts.get {} hart).unacked ≠ 0
      (behind → exec .hostCreditApply s = .next s)
      ∧ (¬behind → g.va % 16 ≠ 0 → exec .hostCreditApply s = .next (ended s true))
      ∧ (¬behind → g.va % 16 = 0 → ∀ e, s.engineXlat g.ctx g.va 16 true = .error e → exec .hostCreditApply s = .next (ended s true))
      ∧ (¬behind → g.va % 16 = 0 → ∀ home a, s.engineXlat g.ctx g.va 16 true = .ok (home, a) →
        let q := s.request (.hostCredit hart) 4 (s.routerOf home a).toList (s.ms.clocks.get 0 0)
        let bad := q.1.tainted (.hostCredit hart)
        let t := q.1.untaint (.hostCredit hart)
        (q.2 = .wait → exec .hostCreditApply s = .next q.1)
        ∧ (q.2 = .lost → exec .hostCreditApply s = .next (ended (t.lostRecord 0 0) true))
        ∧ (q.2 = .go → bad = true → exec .hostCreditApply s = .next (ended t true))
        ∧ (q.2 = .go → bad = false → home = .glob →
          let r := ((t.mixEngine none none .glob a 16 0).through (t.engineMode g.ctx g.va)).barUpdate .glob a (.credit g.bytes false g.err)
          exec .hostCreditApply s = .next (ended (r.1.through none) r.2.2))
        ∧ (∀ p, q.2 = .go → bad = false → home = .remote p → exec .hostCreditApply s =
          .next (({ t with sent := t.sent ++ [Sent.hostCredit hart p a g.bytes g.err] } : State).updCredit hart (fun x => { x with away := true })))))
    ∧ (c.going = none → exec .hostCreditApply s = .next s)

/-- A request from the root port is allowed or refused by the lowest-numbered window that contains its address; what is refused, a range that
would lead back to the link among it, is completed as an unsupported request and counted (R458, R459). It waits for the package network
(R353, R421). An INTx message is dropped and counted; an error is logged, raises the port's MSI (R461), and with containment on shuts the
link (R458). A host access in the outbound range reaches the link, a read with a tag whose completion gives the hart its bytes (R459). A
hart reads and writes the registers of its package through the windows, eight aligned bytes at a time; a register of the windows that is
not there reads 0 and ignores writes (R449, R450). A management hart has its private memory, where an uncorrectable error is fatal (R448,
R467), and stores elsewhere only through HOST_MGMT_WIN (R465); an application hart that its PMP lets pass (R465) loads, stores and does
atomics on the memory of the package's regions (R448). A load gives its register the bytes; an access that may not be made, an environment
call and an interrupt are taken as traps (R447, R460). Where the spec leaves a choice here, the model's is in log entries 94, 95, 99, 124,
130, 163, 164, 174, 175 and 180. -/
def Obligations.HostAccessesGoThroughTheirWindows : Prop :=
  (∀ (s : State),
     let x := s.arg
     let h := s.host
     let refused := ({ s with host := { h with ur := min (h.ur + 1) 0xFFFF }, sent := s.sent ++ [.pcieUr] } : State)
     let n := if x.b = 1 then x.data.length else x.c
     let at_ := fun (t : State) => exec .pcieInboundRequest s = .next t
     (h.dpc = false →
       (x.b = 2 → at_ refused)
       ∧ (x.b < 2 → h.inWaits ≠ [] → at_ { s with host := { h with inWaits := h.inWaits ++ [x] } })
       ∧ (x.b < 2 → h.inWaits = [] → h.windowOf x.a = none → at_ refused)
       ∧ (∀ w, x.b < 2 → h.inWaits = [] → h.windowOf x.a = some w →
         let phys := (w.phys * 4096 + (x.a - w.bus * 4096)) % 2 ^ 52
         let away := phys / 2 ^ 43 ≠ s.pkg
         let bad := (w.bus + w.pages) * 4096 < x.a + n ∨ (x.b = 1 ∧ w.wr = false) ∨ (x.b = 0 ∧ w.rd = false)
           ∨ inWindows phys = true ∨ inWindows (phys + n - 1) = true ∨ s.reachable (phys / 2 ^ 43) = false ∨ (away ∧ s.feature 7 = false)
           ∨ (¬away ∧ s.inRegion (phys % 2 ^ 43) n = false) ∨ h.outbounds phys = true ∨ h.outbounds (phys + n - 1) = true
           ∨ (x.b = 1 ∧ h.inDump phys n = true)
         let go := s.piecesSent .root 4 (s.ms.clocks.get 0 0) (x.b == 1) (s.physPieces phys n)
         let r := go.1.readPieces go.2.2
         (bad → at_ refused)
         ∧ (¬bad → go.2.1 = .go → x.b = 1 → at_ (go.1.writePieces go.2.2 (withPoison x.data x.poison)))
         ∧ (¬bad → go.2.1 = .go → x.b = 0 → at_ { r.1 with sent := r.1.sent ++ [.pcieData (r.2.map (·.1)) (poisonOf r.2)] })
         ∧ (¬bad → go.2.1 = .wait → at_ { go.1 with host := { go.1.host with inWaits := x :: go.1.host.inWaits } })
         ∧ (¬bad → go.2.1 = .lost → x.b = 1 → at_ (go.1.lostRecord 0 0)))
       ∧ (x.b = 3 → at_ (s.deliverMsi (x.a / 8 % 8) (x.a % 8) (x.c % 2048))))
     ∧ (x.b < 4 → h.dpc = true → at_ s)
     ∧ (x.b = 4 → at_ (({ s with host := { h with aer := h.aer.ins (x.a % 3), dpc := h.dpc || (h.dpcOn && x.a % 3 != 0) } } : State).pkgMsi 3))
     ∧ (∀ r, x.b = 6 → h.outReads.find? (fun r => r.tag == x.a) = some r →
       at_ (({ s with host := { h with outReads := h.outReads.filter (fun r => r.tag != x.a) } } : State).hartGive r.who
         ((upFrom 0 r.len).map (fun i => if x.c = 1 then 0xFF else x.data.getD i 0))))
     ∧ exec .pcieIntx s = .next { s with host := { h with intx := min (h.intx + 1) 0xFFFF } }
     ∧ (let config := decide (x.a < h.pcieBase + 2 ^ 28)
        h.outbounds x.a = true → h.dpc = false →
         (x.data ≠ [] → exec .pcieOutbound s = .next { s with sent := s.sent ++ [.pcieOut config x.a x.data] })
         ∧ (∀ tag, x.data = [] → h.freeTag = some tag → exec .pcieOutbound s =
           .next { s with host := { h with outReads := h.outReads ++ [{ tag := tag, who := x.c, len := x.b }] }
                          sent := s.sent ++ [.pcieRead config x.a x.b tag] }))
     ∧ (h.outbounds x.a = true → h.dpc = true → x.data ≠ [] → exec .pcieOutbound s = .next s)
     ∧ (h.outbounds x.a = false → exec .pcieOutbound s = .next s))
  ∧ ((∀ (s : State),
       let x := s.arg
       let a := x.a
       let hart := hartOf x.c
       let h := s.hart hart
       let n := if x.data = [] then x.b else x.data.length
       let here := a / 2 ^ 43 % 512 = s.pkg
       let at_ := fun (t : State) => exec .hostHartAccess s = .next t
       let faults := fun (u : State) => at_ (u.hartFault hart (!x.data.isEmpty) a)
       let mgmt := hart = 8 ∨ hart = 9
       let windows := inWindows a = true ∨ inWindows (a + n - 1) = true
       (inWindows a = true → a % 8 = 0 → s.hartRuns x.c = true → exec .registerWrite s = .next (s.windowWrite x.c (a % 2 ^ 43 - 0x7F000000000) x.b))
       ∧ (inWindows a = false ∨ a % 8 ≠ 0 ∨ s.hartRuns x.c = false → exec .registerWrite s = .next s)
       ∧ (s.hartRuns hart = true ↔ mgmt ∨ hart < 8 ∧ s.host.released.has hart = true)
       ∧ (s.hartRuns hart = false → x.d < 10 → at_ s)
       ∧ (s.hartRuns hart = true → x.opt = none → x.d = 0 → (∀ y ∈ s.host.waits, hartOf y.c ≠ hart) → a + n ≤ 2 ^ 52 →
         (¬mgmt → h.pmpAllows a n (!x.data.isEmpty) = false → faults s)
         ∧ (mgmt → a + n ≤ 2 ^ 20 → s.host.sramEcc = [] →
           (x.data = [] → at_ (s.hartGive x.c ((upFrom a n).map (fun k => s.host.sram.get 0 k))))
           ∧ (x.data ≠ [] → at_ { s with host := { s.host with sram := writeCells s.host.sram a x.data } }))
         ∧ (mgmt ∧ ¬(a < 2 ^ 20) ∨ ¬mgmt ∧ h.pmpAllows a n (!x.data.isEmpty) = true →
           (here → inWindows a = true → n = 8 → a % 8 = 0 →
             let o := a % 2 ^ 43 - 0x7F000000000
             (x.data = [] → at_ (s.hartGive x.c (bytesOf 8 (s.windowRead o))))
             ∧ (x.data ≠ [] → at_ (s.windowWrite hart o (natOf x.data))))
           ∧ (here → windows → n ≠ 8 ∨ a % 8 ≠ 0 → faults s)
           ∧ (mgmt → ¬(here ∧ windows) → x.data ≠ [] → s.host.inMgmtWin a n = false →
             faults (s.pkgLog { type := 5, severity := 2, engine := 13, address := a }))
           ∧ (¬mgmt → here → ¬windows → a / 2 ^ 43 = (a + n - 1) / 2 ^ 43 → s.host.outbounds a = false → s.host.outbounds (a + n - 1) = false →
             (s.host.inDump a n = true → x.data ≠ [] → faults s)
             ∧ (s.host.inDump a n = false ∨ x.data = [] →
               (s.inRegion (a % 2 ^ 43) n = false → faults s)
               ∧ (s.inRegion (a % 2 ^ 43) n = true →
                 let go := s.piecesSent (.hart hart) 4 (s.ms.clocks.get 0 0) (!x.data.isEmpty) (s.physPieces a n)
                 let r := go.1.readPieces go.2.2
                 (go.2.1 = .go → x.data ≠ [] → at_ (go.1.writePieces go.2.2 (x.data.map (fun b => (b, false)))))
                 ∧ (go.2.1 = .go → x.data = [] → at_ (r.1.drawn.hartGive x.c (r.1.hartBytes r.2)))
                 ∧ (go.2.1 = .wait → at_ { go.1 with host := { go.1.host with waits := x :: go.1.host.waits } }))))))
       ∧ (s.hartRuns hart = true → x.opt = none → x.d = 2 → (∀ y ∈ s.host.waits, hartOf y.c ≠ hart) → a + n ≤ 2 ^ 52 → x.data = [] →
         n = 4 ∨ n = 8 → a % n = 0 → ¬mgmt → h.pmpAllows a n false = true → here → ¬windows → a / 2 ^ 43 = (a + n - 1) / 2 ^ 43 →
         s.host.outbounds a = false → s.host.outbounds (a + n - 1) = false → s.inRegion (a % 2 ^ 43) n = true →
         let go := s.piecesSent (.hart hart) 4 (s.ms.clocks.get 0 0) false (s.physPieces a n)
         let r := go.1.readPieces go.2.2
         let old := r.1.hartBytes r.2
         go.2.1 = .go → at_ ((r.1.updHart hart (fun h => { h with reserved := some (a, old) })).hartGive x.c old))
       ∧ (s.hartRuns hart = true → x.d = 5 → at_ (s.updHart hart (fun h => h.exception (ecallCause h.mode) 0)))
       ∧ (s.hartRuns hart = true → x.d = 6 → a = 3 → h.mode = .m → at_ (s.updHart hart Hart.mret))
       ∧ (s.hartRuns hart = true → x.d = 7 → at_ (s.takeInterrupt hart)))
     ∧ (∀ (s : State) (c : Nat) (data : List Byte),
       let r := c / 16 % 32
       let t := if r = 0 then s else s.updHart (hartOf c) (fun h => { h with regs := h.regs.set 0 r (BitVec.ofNat 64 (natOf data)) })
       s.hartGive c data = { t with sent := t.sent ++ [.hartData (hartOf c) data] })
     ∧ (∀ (h : Hart) (cause tval : Nat), h.mode = .m ∨ bit (h.csr 0x302) cause = false → cause < 2 ^ 63 → tval < 2 ^ 64 → h.csrs.wf 0 = true →
       let t := h.exception cause tval
       t.mode = .m ∧ t.regs = h.regs ∧ t.pc = BitVec.ofNat 64 (h.csr 0x305 / 4 * 4) ∧ t.csr 0x341 = h.pc.toNat ∧ t.csr 0x342 = cause
         ∧ t.csr 0x343 = tval ∧ t.reserved = none))

/-- Once management firmware runs, the responder answers each SPDM request in its place with the response's code, and else with ERROR; the
version, the measurements, the digest and both signatures are as R455 gives them, and what SPDM leaves open in a body is free. A job key
is written in a secured message of a session when the requester's digest of the measurements matches, and not over another job's (R455 to
R457). A secured message is answered in the next one of its session. Where the spec leaves a choice here, the model's is in log entries
11, 97, 98 and 166. -/
def Obligations.AttestationRequestsAreAnswered : Prop :=
  ∀ (s : State),
    let i := s.arg.a
    let b := s.arg.b
    let d := s.arg.data
    let c := s.conn i
    let safe := s.arg.opt = some c.seqIn ∧ c.exchanged = true
    let now := if s.arg.opt = some c.seqIn ∧ c.exchanged = true then { c with seqIn := c.seqIn + 1, seqOut := c.seqOut + 1 } else c
    let answers := fun (ev : Instr) (request code : Nat) (c' : Spdm) (body : List Byte) =>
      exec ev s = .next ((s.reply code (body ++ Config.spdmBody request s.free d)).setConn i c').drawn
    let errs := fun (ev : Instr) => exec ev s = .next (s.reply 0x7F [])
    let digest := bytesOf 48 s.measureDigest.toNat
    let report := (if b = 0xFF then s.measurements else (s.measurements.drop (b - 1)).take 1).flatMap (fun d => bytesOf 48 d.toNat)
    let all := [Instr.getVersion, .getCapabilities, .negotiateAlgorithms, .getDigests, .getCertificate, .challenge, .getMeasurements, .keyExchange,
      .finish, .endSession, .vendorDefinedRequest, .erase]
    (s.host.started = false ∨ (s.arg.opt ≠ none ∧ ¬safe) → ∀ ev ∈ all, exec ev s = .next s)
    ∧ (∀ (code : Nat) (data : List Byte),
      (safe → s.reply code data = { s.setConn i { c with seqIn := c.seqIn + 1, seqOut := c.seqOut + 1 } with
        sent := s.sent ++ [.spdmSecured i c.seqOut code data] })
      ∧ (¬safe → s.reply code data = { s with sent := s.sent ++ [.spdm code data] }))
    ∧ (s.host.started = true → s.arg.opt = none ∨ safe →
      answers .getVersion 0x84 0x04 { stage := 1 } (bytesOf 1 0x13)
      ∧ (c.stage = 1 → answers .getCapabilities 0xE1 0x61 { now with stage := 2 } spdmFlags)
      ∧ (c.stage ≠ 1 → errs .getCapabilities)
      ∧ (c.stage = 2 → answers .negotiateAlgorithms 0xE3 0x63 { now with stage := 3 } spdmAlgorithms)
      ∧ (c.stage ≠ 2 → errs .negotiateAlgorithms)
      ∧ (c.stage = 3 → answers .getDigests 0x81 0x01 now [] ∧ answers .getCertificate 0x82 0x02 now []
        ∧ answers .challenge 0x83 0x03 now (digest ++ bothSign (d ++ digest))
        ∧ answers .keyExchange 0xE4 0x64 { now with exchanged := true, secured := false, seqIn := 0, seqOut := 0 } (bothSign d)
        ∧ (b = 0xFF ∨ (1 ≤ b ∧ b ≤ 6) → answers .getMeasurements 0xE0 0x60 now (report ++ bothSign (d ++ report)))
        ∧ (¬(b = 0xFF ∨ (1 ≤ b ∧ b ≤ 6)) → errs .getMeasurements))
      ∧ (c.stage ≠ 3 → errs .getDigests ∧ errs .getCertificate ∧ errs .challenge ∧ errs .getMeasurements ∧ errs .keyExchange)
      ∧ (safe → c.secured = false → answers .finish 0xE5 0x65 { now with secured := true } [])
      ∧ (¬safe ∨ c.secured = true → errs .finish)
      ∧ (safe → c.secured = true → answers .endSession 0xEC 0x6C { now with exchanged := false, secured := false } []
        ∧ (b < 64 → exec .erase s = .next ((s.clearKey b).reply 0x7E [0])) ∧ (64 ≤ b → errs .erase))
      ∧ (¬safe ∨ c.secured = false → errs .endSession ∧ errs .erase ∧ errs .vendorDefinedRequest)
      ∧ (safe → c.secured = true → s.arg.d ≠ 0 ∨ 64 ≤ b ∨ d.length ≠ 80 → errs .vendorDefinedRequest)
      ∧ (safe → c.secured = true → s.arg.d = 0 → b < 64 → d.length = 80 →
        let job := s.arg.c % 2 ^ 16
        let k := s.sad.keys.get {} b
        let other := k.valid = true ∧ k.job ≠ job
        (natOf (d.drop 32) ≠ s.measureDigest.toNat → exec .vendorDefinedRequest s = .next (s.reply 0x7E [1]))
        ∧ (natOf (d.drop 32) = s.measureDigest.toNat → other → exec .vendorDefinedRequest s = .next (s.reply 0x7E [2]))
        ∧ (natOf (d.drop 32) = s.measureDigest.toNat → ¬other → exec .vendorDefinedRequest s = .next
            ((s.updSad (fun x => { x with keys := x.keys.put b { job := job, valid := true, key := d.take 32 } })).reply 0x7E [0]))))
end

