-- ==== Sys2Proof/Laws/Decode.lean ====
section
/-! SUPPORT. The formats of clause words: the fields of a word written from fields are those fields, and the word written from
the fields of a word is that word. -/

namespace Sys2Proof

theorem getA_putA (f : FmtA) (op : BitVec 10) : getA (putA f op) = f := by
  obtain ⟨md, zsel, retain, c, b, a, dst, msel, pclass⟩ := f
  simp only [getA, putA, FmtA.mk.injEq]
  and_intros <;>
  · apply BitVec.eq_of_getLsbD_eq; intro i hi
    simp only [BitVec.getLsbD_extractLsb', BitVec.getLsbD_append, hi, decide_true, Bool.true_and]
    simp (disch := omega) only [if_neg, if_pos]
    try (congr 1; omega)

theorem low_putA (f : FmtA) (op : BitVec 10) : (putA f op).extractLsb' 0 10 = op := by
  simp only [putA]
  apply BitVec.eq_of_getLsbD_eq; intro i hi
  simp only [BitVec.getLsbD_extractLsb', BitVec.getLsbD_append, hi, decide_true, Bool.true_and]
  simp (disch := omega) only [if_pos]
  congr 1; omega

theorem putA_getA (w : BitVec 64) : putA (getA w) (w.extractLsb' 0 10) = w := by
  simp only [getA, putA]
  iterate 9 rw [BitVec.extractLsb'_append_extractLsb'_eq_extractLsb' (by rfl)]
  exact BitVec.extractLsb'_eq_self

theorem getI_putI (f : FmtI) (op : BitVec 10) : getI (putI f op) = f := by
  obtain ⟨imm, a, dst, msel, pclass⟩ := f
  simp only [getI, putI, FmtI.mk.injEq]
  and_intros <;>
  · apply BitVec.eq_of_getLsbD_eq; intro i hi
    simp only [BitVec.getLsbD_extractLsb', BitVec.getLsbD_append, hi, decide_true, Bool.true_and]
    simp (disch := omega) only [if_neg, if_pos]
    try (congr 1; omega)

theorem low_putI (f : FmtI) (op : BitVec 10) : (putI f op).extractLsb' 0 10 = op := by
  simp only [putI]
  apply BitVec.eq_of_getLsbD_eq; intro i hi
  simp only [BitVec.getLsbD_extractLsb', BitVec.getLsbD_append, hi, decide_true, Bool.true_and]
  simp (disch := omega) only [if_pos]
  congr 1; omega

theorem putI_getI (w : BitVec 64) : putI (getI w) (w.extractLsb' 0 10) = w := by
  simp only [getI, putI]
  iterate 5 rw [BitVec.extractLsb'_append_extractLsb'_eq_extractLsb' (by rfl)]
  exact BitVec.extractLsb'_eq_self

theorem getM_putM (f : FmtM) (op : BitVec 10) : getM (putM f op) = f := by
  obtain ⟨offset, size, space, evict, scope, ord, addr, data, msel, pclass⟩ := f
  simp only [getM, putM, FmtM.mk.injEq]
  and_intros <;>
  · apply BitVec.eq_of_getLsbD_eq; intro i hi
    simp only [BitVec.getLsbD_extractLsb', BitVec.getLsbD_append, hi, decide_true, Bool.true_and]
    simp (disch := omega) only [if_neg, if_pos]
    try (congr 1; omega)

theorem low_putM (f : FmtM) (op : BitVec 10) : (putM f op).extractLsb' 0 10 = op := by
  simp only [putM]
  apply BitVec.eq_of_getLsbD_eq; intro i hi
  simp only [BitVec.getLsbD_extractLsb', BitVec.getLsbD_append, hi, decide_true, Bool.true_and]
  simp (disch := omega) only [if_pos]
  congr 1; omega

theorem putM_getM (w : BitVec 64) : putM (getM w) (w.extractLsb' 0 10) = w := by
  simp only [getM, putM]
  iterate 10 rw [BitVec.extractLsb'_append_extractLsb'_eq_extractLsb' (by rfl)]
  exact BitVec.extractLsb'_eq_self

theorem getT_putT (f : FmtT) (op : BitVec 10) : getT (putT f op) = f := by
  obtain ⟨aop, atype, offset, size, space, evict, scope, ord, addr, data, msel, pclass⟩ := f
  simp only [getT, putT, FmtT.mk.injEq]
  and_intros <;>
  · apply BitVec.eq_of_getLsbD_eq; intro i hi
    simp only [BitVec.getLsbD_extractLsb', BitVec.getLsbD_append, hi, decide_true, Bool.true_and]
    simp (disch := omega) only [if_neg, if_pos]
    try (congr 1; omega)

theorem low_putT (f : FmtT) (op : BitVec 10) : (putT f op).extractLsb' 0 10 = op := by
  simp only [putT]
  apply BitVec.eq_of_getLsbD_eq; intro i hi
  simp only [BitVec.getLsbD_extractLsb', BitVec.getLsbD_append, hi, decide_true, Bool.true_and]
  simp (disch := omega) only [if_pos]
  congr 1; omega

theorem putT_getT (w : BitVec 64) : putT (getT w) (w.extractLsb' 0 10) = w := by
  simp only [getT, putT]
  iterate 12 rw [BitVec.extractLsb'_append_extractLsb'_eq_extractLsb' (by rfl)]
  exact BitVec.extractLsb'_eq_self

theorem getB_putB (f : FmtB) (op : BitVec 10) : getB (putB f op) = f := by
  obtain ⟨target, kind, reg, msel, pclass⟩ := f
  simp only [getB, putB, FmtB.mk.injEq]
  and_intros <;>
  · apply BitVec.eq_of_getLsbD_eq; intro i hi
    simp only [BitVec.getLsbD_extractLsb', BitVec.getLsbD_append, hi, decide_true, Bool.true_and]
    simp (disch := omega) only [if_neg, if_pos]
    try (congr 1; omega)

theorem low_putB (f : FmtB) (op : BitVec 10) : (putB f op).extractLsb' 0 10 = op := by
  simp only [putB]
  apply BitVec.eq_of_getLsbD_eq; intro i hi
  simp only [BitVec.getLsbD_extractLsb', BitVec.getLsbD_append, hi, decide_true, Bool.true_and]
  simp (disch := omega) only [if_pos]
  congr 1; omega

theorem putB_getB (w : BitVec 64) : putB (getB w) (w.extractLsb' 0 10) = w := by
  simp only [getB, putB]
  iterate 5 rw [BitVec.extractLsb'_append_extractLsb'_eq_extractLsb' (by rfl)]
  exact BitVec.extractLsb'_eq_self

theorem getX_putX (f : FmtX) (op : BitVec 10) : getX (putX f op) = f := by
  obtain ⟨opsrc, sparse, nobar, fmt, shape, bar, bdesc, arow, acc, msel, pclass⟩ := f
  simp only [getX, putX, FmtX.mk.injEq]
  and_intros <;>
  · apply BitVec.eq_of_getLsbD_eq; intro i hi
    simp only [BitVec.getLsbD_extractLsb', BitVec.getLsbD_append, hi, decide_true, Bool.true_and]
    simp (disch := omega) only [if_neg, if_pos]
    try (congr 1; omega)

theorem low_putX (f : FmtX) (op : BitVec 10) : (putX f op).extractLsb' 0 10 = op := by
  simp only [putX]
  apply BitVec.eq_of_getLsbD_eq; intro i hi
  simp only [BitVec.getLsbD_extractLsb', BitVec.getLsbD_append, hi, decide_true, Bool.true_and]
  simp (disch := omega) only [if_pos]
  congr 1; omega

theorem putX_getX (w : BitVec 64) : putX (getX w) (w.extractLsb' 0 10) = w := by
  simp only [getX, putX]
  iterate 11 rw [BitVec.extractLsb'_append_extractLsb'_eq_extractLsb' (by rfl)]
  exact BitVec.extractLsb'_eq_self

end Sys2Proof
end

