-- ==== Sys2Proof/Laws/Tab.lean ====
section
/-! SUPPORT. The laws of tables and sets: a listed value reads back, other keys are untouched, and every operation keeps the
canonical form. -/

namespace Sys2Proof

namespace Tab

variable {α : Type}

@[simp] theorem look_nil (q : Nat) : look ([] : Tab α) q = none := rfl

theorem look_cons (k : Nat) (v : α) (t : Tab α) (q : Nat) : look ((k, v) :: t) q = if q = k then some v else look t q := rfl

@[simp] theorem look_put_same (t : Tab α) (q : Nat) (x : α) : look (put t q x) q = some x := by
  induction t with
  | nil => simp [put, look]
  | cons p t ih =>
    obtain ⟨k, v⟩ := p
    simp only [put]
    split
    · simp [look]
    · split
      · simp [look]
      · rename_i h; simp [look, h, ih]

theorem look_put_other (t : Tab α) {q r : Nat} (x : α) (h : r ≠ q) : look (put t q x) r = look t r := by
  induction t with
  | nil => simp [put, look, h]
  | cons p t ih =>
    obtain ⟨k, v⟩ := p
    simp only [put]
    split
    · simp [look, h]
    · split
      · rename_i hk; subst hk; simp [look, h]
      · simp [look, ih]

theorem look_put (t : Tab α) (q r : Nat) (x : α) : look (put t q x) r = if r = q then some x else look t r := by
  by_cases h : r = q
  · subst h; simp
  · simp [h, look_put_other]

theorem look_del_other (t : Tab α) {q r : Nat} (h : r ≠ q) : look (del t q) r = look t r := by
  induction t with
  | nil => rfl
  | cons p t ih =>
    obtain ⟨k, v⟩ := p
    simp only [del]
    split
    · rename_i hk; subst hk; simp [look, h]
    · split
      · rfl
      · simp [look, ih]

theorem look_above (t : Tab α) {n q : Nat} (h : above n t = true) (hq : q ≤ n) : look t q = none := by
  induction t with
  | nil => rfl
  | cons p t ih =>
    obtain ⟨k, v⟩ := p
    simp only [above, Bool.and_eq_true, decide_eq_true_eq] at h
    have : q ≠ k := by omega
    simp [look, this, ih h.2]

theorem above_mono (t : Tab α) {m n : Nat} (h : above n t = true) (hm : m ≤ n) : above m t = true := by
  induction t with
  | nil => rfl
  | cons p t ih =>
    obtain ⟨k, v⟩ := p
    simp only [above, Bool.and_eq_true, decide_eq_true_eq] at h ⊢
    exact ⟨by omega, ih h.2⟩

theorem look_del_same (t : Tab α) (q : Nat) (h : rising t = true) : look (del t q) q = none := by
  induction t with
  | nil => rfl
  | cons p t ih =>
    obtain ⟨k, v⟩ := p
    simp only [rising, Bool.and_eq_true] at h
    simp only [del]
    split
    · rename_i hk; subst hk; exact look_above t h.1 (Nat.le_refl _)
    · split
      · rename_i h1 h2
        simp only [look, h1, if_false]
        exact look_above t h.1 (by omega)
      · rename_i h1 h2; simp [look, h1, ih h.2]

theorem above_put (t : Tab α) {n q : Nat} (x : α) (h : above n t = true) (hq : n < q) : above n (put t q x) = true := by
  induction t with
  | nil => simp [put, above, hq]
  | cons p t ih =>
    obtain ⟨k, v⟩ := p
    simp only [above, Bool.and_eq_true, decide_eq_true_eq] at h
    simp only [put]
    split
    · simp [above, hq, h]
    · split
      · simp [above, hq, h]
      · simp [above, h, ih h.2]

theorem rising_put (t : Tab α) (q : Nat) (x : α) (h : rising t = true) : rising (put t q x) = true := by
  induction t with
  | nil => rfl
  | cons p t ih =>
    obtain ⟨k, v⟩ := p
    simp only [rising, Bool.and_eq_true] at h
    simp only [put]
    split
    · rename_i hk
      simp only [rising, above, Bool.and_eq_true, decide_eq_true_eq]
      exact ⟨⟨hk, above_mono t h.1 (Nat.le_of_lt hk)⟩, h.1, h.2⟩
    · split
      · rename_i hk; subst hk; simp [rising, h]
      · simp only [rising, Bool.and_eq_true]
        exact ⟨above_put t x h.1 (by omega), ih h.2⟩

theorem above_del (t : Tab α) {n q : Nat} (h : above n t = true) : above n (del t q) = true := by
  induction t with
  | nil => rfl
  | cons p t ih =>
    obtain ⟨k, v⟩ := p
    simp only [above, Bool.and_eq_true, decide_eq_true_eq] at h
    simp only [del]
    split
    · exact h.2
    · split
      · simp [above, h]
      · simp [above, h, ih h.2]

theorem rising_del (t : Tab α) (q : Nat) (h : rising t = true) : rising (del t q) = true := by
  induction t with
  | nil => rfl
  | cons p t ih =>
    obtain ⟨k, v⟩ := p
    simp only [rising, Bool.and_eq_true] at h
    simp only [del]
    split
    · exact h.2
    · split
      · simp [rising, h]
      · simp only [rising, Bool.and_eq_true]
        exact ⟨above_del t h.1, ih h.2⟩

theorem noDefault_put [DecidableEq α] (d : α) (t : Tab α) (q : Nat) {x : α} (hx : x ≠ d) (h : noDefault d t = true) :
    noDefault d (put t q x) = true := by
  induction t with
  | nil => simp [put, noDefault, hx]
  | cons p t ih =>
    obtain ⟨k, v⟩ := p
    simp only [noDefault, Bool.and_eq_true] at h
    simp only [put]
    split
    · simp [noDefault, hx]; simpa using h
    · split
      · simp [noDefault, hx, h.2]
      · simp only [noDefault, Bool.and_eq_true]; exact ⟨h.1, ih h.2⟩

theorem noDefault_del [DecidableEq α] (d : α) (t : Tab α) (q : Nat) (h : noDefault d t = true) : noDefault d (del t q) = true := by
  induction t with
  | nil => rfl
  | cons p t ih =>
    obtain ⟨k, v⟩ := p
    have h' := h
    simp only [noDefault, Bool.and_eq_true] at h
    simp only [del]
    split
    · exact h.2
    · split
      · exact h'
      · simp only [noDefault, Bool.and_eq_true]; exact ⟨h.1, ih h.2⟩

/-- Setting a value keeps the canonical form. -/
theorem wf_set [DecidableEq α] (d : α) (t : Tab α) (q : Nat) (x : α) (h : wf d t = true) : wf d (t.set d q x) = true := by
  simp only [wf, Bool.and_eq_true] at h ⊢
  unfold set
  split
  · exact ⟨rising_del t q h.1, noDefault_del d t q h.2⟩
  · rename_i hx; exact ⟨rising_put t q x h.1, noDefault_put d t q hx h.2⟩

theorem get_set_other [DecidableEq α] (d : α) (t : Tab α) {q r : Nat} (x : α) (h : r ≠ q) : (t.set d q x).get d r = t.get d r := by
  unfold set get
  split
  · rw [look_del_other t h]
  · rw [look_put_other t x h]

theorem get_set_same [DecidableEq α] (d : α) (t : Tab α) (q : Nat) (x : α) (h : rising t = true) : (t.set d q x).get d q = x := by
  unfold set get
  split
  · rename_i hx; simp [look_del_same t q h, hx]
  · simp

theorem look_upd_same (t : Tab α) (q : Nat) (f : α → α) : look (upd t q f) q = (look t q).map f := by
  induction t with
  | nil => rfl
  | cons p t ih =>
    obtain ⟨k, v⟩ := p
    simp only [upd]
    split
    · rename_i hk; subst hk; simp [look]
    · rename_i hk; simp [look, hk, ih]

theorem look_upd_other (t : Tab α) {q r : Nat} (f : α → α) (h : r ≠ q) : look (upd t q f) r = look t r := by
  induction t with
  | nil => rfl
  | cons p t ih =>
    obtain ⟨k, v⟩ := p
    simp only [upd]
    split
    · rename_i hk; subst hk; simp [look, h]
    · simp [look, ih]

@[simp] theorem get_put_same (t : Tab α) (d : α) (q : Nat) (x : α) : (t.put q x).get d q = x := by simp [get]

theorem get_put_other (t : Tab α) (d : α) {q r : Nat} (x : α) (h : r ≠ q) : (t.put q x).get d r = t.get d r := by
  simp [get, look_put_other t x h]

end Tab

namespace NatSet

theorem has_ins (t : NatSet) (q r : Nat) : has (ins t q) r = (decide (r = q) || has t r) := by
  induction t with
  | nil => simp [ins, has]
  | cons k t ih =>
    simp only [ins]
    split
    · simp [has]
    · split
      · rename_i h; subst h; by_cases hr : r = q <;> simp [has, hr]
      · simp [has, ih, Bool.or_left_comm]

end NatSet

end Sys2Proof
end

