-- ==== Sys2Proof/Laws/Devices.lean ====
section
/-! SUPPORT. What each update of the Saddle, of an Awl and of the host complex leaves alone, one lemma a field, and how it is read back. -/

namespace Sys2Proof.Machine

/-! ## updSad -/

@[simp] theorem State.updSad_who (s : State) (f : Saddle → Saddle) : (s.updSad f).who = s.who := rfl
@[simp] theorem State.updSad_arg (s : State) (f : Saddle → Saddle) : (s.updSad f).arg = s.arg := rfl
@[simp] theorem State.updSad_agenda (s : State) (f : Saddle → Saddle) : (s.updSad f).agenda = s.agenda := rfl
@[simp] theorem State.updSad_upset (s : State) (f : Saddle → Saddle) : (s.updSad f).upset = s.upset := rfl
@[simp] theorem State.updSad_free (s : State) (f : Saddle → Saddle) : (s.updSad f).free = s.free := rfl
@[simp] theorem State.updSad_nextId (s : State) (f : Saddle → Saddle) : (s.updSad f).nextId = s.nextId := rfl
@[simp] theorem State.updSad_teams (s : State) (f : Saddle → Saddle) : (s.updSad f).teams = s.teams := rfl
@[simp] theorem State.updSad_launches (s : State) (f : Saddle → Saddle) : (s.updSad f).launches = s.launches := rfl
@[simp] theorem State.updSad_gangs (s : State) (f : Saddle → Saddle) : (s.updSad f).gangs = s.gangs := rfl
@[simp] theorem State.updSad_ctxs (s : State) (f : Saddle → Saddle) : (s.updSad f).ctxs = s.ctxs := rfl
@[simp] theorem State.updSad_cores (s : State) (f : Saddle → Saddle) : (s.updSad f).cores = s.cores := rfl
@[simp] theorem State.updSad_ops (s : State) (f : Saddle → Saddle) : (s.updSad f).ops = s.ops := rfl
@[simp] theorem State.updSad_copies (s : State) (f : Saddle → Saddle) : (s.updSad f).copies = s.copies := rfl
@[simp] theorem State.updSad_forwards (s : State) (f : Saddle → Saddle) : (s.updSad f).forwards = s.forwards := rfl
@[simp] theorem State.updSad_slots (s : State) (f : Saddle → Saddle) : (s.updSad f).slots = s.slots := rfl
@[simp] theorem State.updSad_glob (s : State) (f : Saddle → Saddle) : (s.updSad f).glob = s.glob := rfl
@[simp] theorem State.updSad_modes (s : State) (f : Saddle → Saddle) : (s.updSad f).modes = s.modes := rfl
@[simp] theorem State.updSad_via (s : State) (f : Saddle → Saddle) : (s.updSad f).via = s.via := rfl
@[simp] theorem State.updSad_rounds (s : State) (f : Saddle → Saddle) : (s.updSad f).rounds = s.rounds := rfl
@[simp] theorem State.updSad_farScopes (s : State) (f : Saddle → Saddle) : (s.updSad f).farScopes = s.farScopes := rfl
@[simp] theorem State.updSad_chips (s : State) (f : Saddle → Saddle) : (s.updSad f).chips = s.chips := rfl
@[simp] theorem State.updSad_ms (s : State) (f : Saddle → Saddle) : (s.updSad f).ms = s.ms := rfl
@[simp] theorem State.updSad_routes (s : State) (f : Saddle → Saddle) : (s.updSad f).routes = s.routes := rfl
@[simp] theorem State.updSad_pkg (s : State) (f : Saddle → Saddle) : (s.updSad f).pkg = s.pkg := rfl
@[simp] theorem State.updSad_hdie (s : State) (f : Saddle → Saddle) : (s.updSad f).hdie = s.hdie := rfl
@[simp] theorem State.updSad_elogBase (s : State) (f : Saddle → Saddle) : (s.updSad f).elogBase = s.elogBase := rfl
@[simp] theorem State.updSad_elogHead (s : State) (f : Saddle → Saddle) : (s.updSad f).elogHead = s.elogHead := rfl
@[simp] theorem State.updSad_elogTail (s : State) (f : Saddle → Saddle) : (s.updSad f).elogTail = s.elogTail := rfl
@[simp] theorem State.updSad_elogLost (s : State) (f : Saddle → Saddle) : (s.updSad f).elogLost = s.elogLost := rfl
@[simp] theorem State.updSad_elogThresh (s : State) (f : Saddle → Saddle) : (s.updSad f).elogThresh = s.elogThresh := rfl
@[simp] theorem State.updSad_elogMsien (s : State) (f : Saddle → Saddle) : (s.updSad f).elogMsien = s.elogMsien := rfl
@[simp] theorem State.updSad_msiTab (s : State) (f : Saddle → Saddle) : (s.updSad f).msiTab = s.msiTab := rfl
@[simp] theorem State.updSad_msiDropped (s : State) (f : Saddle → Saddle) : (s.updSad f).msiDropped = s.msiDropped := rfl
@[simp] theorem State.updSad_awls (s : State) (f : Saddle → Saddle) : (s.updSad f).awls = s.awls := rfl
@[simp] theorem State.updSad_host (s : State) (f : Saddle → Saddle) : (s.updSad f).host = s.host := rfl
@[simp] theorem State.updSad_sent (s : State) (f : Saddle → Saddle) : (s.updSad f).sent = s.sent := rfl

/-! ## updPort -/

@[simp] theorem State.updPort_who (s : State) (p : Nat) (f : SadPort → SadPort) : (s.updPort p f).who = s.who := rfl
@[simp] theorem State.updPort_arg (s : State) (p : Nat) (f : SadPort → SadPort) : (s.updPort p f).arg = s.arg := rfl
@[simp] theorem State.updPort_agenda (s : State) (p : Nat) (f : SadPort → SadPort) : (s.updPort p f).agenda = s.agenda := rfl
@[simp] theorem State.updPort_upset (s : State) (p : Nat) (f : SadPort → SadPort) : (s.updPort p f).upset = s.upset := rfl
@[simp] theorem State.updPort_free (s : State) (p : Nat) (f : SadPort → SadPort) : (s.updPort p f).free = s.free := rfl
@[simp] theorem State.updPort_nextId (s : State) (p : Nat) (f : SadPort → SadPort) : (s.updPort p f).nextId = s.nextId := rfl
@[simp] theorem State.updPort_teams (s : State) (p : Nat) (f : SadPort → SadPort) : (s.updPort p f).teams = s.teams := rfl
@[simp] theorem State.updPort_launches (s : State) (p : Nat) (f : SadPort → SadPort) : (s.updPort p f).launches = s.launches := rfl
@[simp] theorem State.updPort_gangs (s : State) (p : Nat) (f : SadPort → SadPort) : (s.updPort p f).gangs = s.gangs := rfl
@[simp] theorem State.updPort_ctxs (s : State) (p : Nat) (f : SadPort → SadPort) : (s.updPort p f).ctxs = s.ctxs := rfl
@[simp] theorem State.updPort_cores (s : State) (p : Nat) (f : SadPort → SadPort) : (s.updPort p f).cores = s.cores := rfl
@[simp] theorem State.updPort_ops (s : State) (p : Nat) (f : SadPort → SadPort) : (s.updPort p f).ops = s.ops := rfl
@[simp] theorem State.updPort_copies (s : State) (p : Nat) (f : SadPort → SadPort) : (s.updPort p f).copies = s.copies := rfl
@[simp] theorem State.updPort_forwards (s : State) (p : Nat) (f : SadPort → SadPort) : (s.updPort p f).forwards = s.forwards := rfl
@[simp] theorem State.updPort_slots (s : State) (p : Nat) (f : SadPort → SadPort) : (s.updPort p f).slots = s.slots := rfl
@[simp] theorem State.updPort_glob (s : State) (p : Nat) (f : SadPort → SadPort) : (s.updPort p f).glob = s.glob := rfl
@[simp] theorem State.updPort_modes (s : State) (p : Nat) (f : SadPort → SadPort) : (s.updPort p f).modes = s.modes := rfl
@[simp] theorem State.updPort_via (s : State) (p : Nat) (f : SadPort → SadPort) : (s.updPort p f).via = s.via := rfl
@[simp] theorem State.updPort_rounds (s : State) (p : Nat) (f : SadPort → SadPort) : (s.updPort p f).rounds = s.rounds := rfl
@[simp] theorem State.updPort_farScopes (s : State) (p : Nat) (f : SadPort → SadPort) : (s.updPort p f).farScopes = s.farScopes := rfl
@[simp] theorem State.updPort_chips (s : State) (p : Nat) (f : SadPort → SadPort) : (s.updPort p f).chips = s.chips := rfl
@[simp] theorem State.updPort_ms (s : State) (p : Nat) (f : SadPort → SadPort) : (s.updPort p f).ms = s.ms := rfl
@[simp] theorem State.updPort_routes (s : State) (p : Nat) (f : SadPort → SadPort) : (s.updPort p f).routes = s.routes := rfl
@[simp] theorem State.updPort_pkg (s : State) (p : Nat) (f : SadPort → SadPort) : (s.updPort p f).pkg = s.pkg := rfl
@[simp] theorem State.updPort_hdie (s : State) (p : Nat) (f : SadPort → SadPort) : (s.updPort p f).hdie = s.hdie := rfl
@[simp] theorem State.updPort_elogBase (s : State) (p : Nat) (f : SadPort → SadPort) : (s.updPort p f).elogBase = s.elogBase := rfl
@[simp] theorem State.updPort_elogHead (s : State) (p : Nat) (f : SadPort → SadPort) : (s.updPort p f).elogHead = s.elogHead := rfl
@[simp] theorem State.updPort_elogTail (s : State) (p : Nat) (f : SadPort → SadPort) : (s.updPort p f).elogTail = s.elogTail := rfl
@[simp] theorem State.updPort_elogLost (s : State) (p : Nat) (f : SadPort → SadPort) : (s.updPort p f).elogLost = s.elogLost := rfl
@[simp] theorem State.updPort_elogThresh (s : State) (p : Nat) (f : SadPort → SadPort) : (s.updPort p f).elogThresh = s.elogThresh := rfl
@[simp] theorem State.updPort_elogMsien (s : State) (p : Nat) (f : SadPort → SadPort) : (s.updPort p f).elogMsien = s.elogMsien := rfl
@[simp] theorem State.updPort_msiTab (s : State) (p : Nat) (f : SadPort → SadPort) : (s.updPort p f).msiTab = s.msiTab := rfl
@[simp] theorem State.updPort_msiDropped (s : State) (p : Nat) (f : SadPort → SadPort) : (s.updPort p f).msiDropped = s.msiDropped := rfl
@[simp] theorem State.updPort_awls (s : State) (p : Nat) (f : SadPort → SadPort) : (s.updPort p f).awls = s.awls := rfl
@[simp] theorem State.updPort_host (s : State) (p : Nat) (f : SadPort → SadPort) : (s.updPort p f).host = s.host := rfl
@[simp] theorem State.updPort_sent (s : State) (p : Nat) (f : SadPort → SadPort) : (s.updPort p f).sent = s.sent := rfl

/-! ## updTile -/

@[simp] theorem State.updTile_who (s : State) (n t : Nat) (f : Tile → Tile) : (s.updTile n t f).who = s.who := rfl
@[simp] theorem State.updTile_arg (s : State) (n t : Nat) (f : Tile → Tile) : (s.updTile n t f).arg = s.arg := rfl
@[simp] theorem State.updTile_agenda (s : State) (n t : Nat) (f : Tile → Tile) : (s.updTile n t f).agenda = s.agenda := rfl
@[simp] theorem State.updTile_upset (s : State) (n t : Nat) (f : Tile → Tile) : (s.updTile n t f).upset = s.upset := rfl
@[simp] theorem State.updTile_free (s : State) (n t : Nat) (f : Tile → Tile) : (s.updTile n t f).free = s.free := rfl
@[simp] theorem State.updTile_nextId (s : State) (n t : Nat) (f : Tile → Tile) : (s.updTile n t f).nextId = s.nextId := rfl
@[simp] theorem State.updTile_teams (s : State) (n t : Nat) (f : Tile → Tile) : (s.updTile n t f).teams = s.teams := rfl
@[simp] theorem State.updTile_launches (s : State) (n t : Nat) (f : Tile → Tile) : (s.updTile n t f).launches = s.launches := rfl
@[simp] theorem State.updTile_gangs (s : State) (n t : Nat) (f : Tile → Tile) : (s.updTile n t f).gangs = s.gangs := rfl
@[simp] theorem State.updTile_ctxs (s : State) (n t : Nat) (f : Tile → Tile) : (s.updTile n t f).ctxs = s.ctxs := rfl
@[simp] theorem State.updTile_cores (s : State) (n t : Nat) (f : Tile → Tile) : (s.updTile n t f).cores = s.cores := rfl
@[simp] theorem State.updTile_ops (s : State) (n t : Nat) (f : Tile → Tile) : (s.updTile n t f).ops = s.ops := rfl
@[simp] theorem State.updTile_copies (s : State) (n t : Nat) (f : Tile → Tile) : (s.updTile n t f).copies = s.copies := rfl
@[simp] theorem State.updTile_forwards (s : State) (n t : Nat) (f : Tile → Tile) : (s.updTile n t f).forwards = s.forwards := rfl
@[simp] theorem State.updTile_slots (s : State) (n t : Nat) (f : Tile → Tile) : (s.updTile n t f).slots = s.slots := rfl
@[simp] theorem State.updTile_glob (s : State) (n t : Nat) (f : Tile → Tile) : (s.updTile n t f).glob = s.glob := rfl
@[simp] theorem State.updTile_modes (s : State) (n t : Nat) (f : Tile → Tile) : (s.updTile n t f).modes = s.modes := rfl
@[simp] theorem State.updTile_via (s : State) (n t : Nat) (f : Tile → Tile) : (s.updTile n t f).via = s.via := rfl
@[simp] theorem State.updTile_rounds (s : State) (n t : Nat) (f : Tile → Tile) : (s.updTile n t f).rounds = s.rounds := rfl
@[simp] theorem State.updTile_farScopes (s : State) (n t : Nat) (f : Tile → Tile) : (s.updTile n t f).farScopes = s.farScopes := rfl
@[simp] theorem State.updTile_chips (s : State) (n t : Nat) (f : Tile → Tile) : (s.updTile n t f).chips = s.chips := rfl
@[simp] theorem State.updTile_ms (s : State) (n t : Nat) (f : Tile → Tile) : (s.updTile n t f).ms = s.ms := rfl
@[simp] theorem State.updTile_routes (s : State) (n t : Nat) (f : Tile → Tile) : (s.updTile n t f).routes = s.routes := rfl
@[simp] theorem State.updTile_pkg (s : State) (n t : Nat) (f : Tile → Tile) : (s.updTile n t f).pkg = s.pkg := rfl
@[simp] theorem State.updTile_hdie (s : State) (n t : Nat) (f : Tile → Tile) : (s.updTile n t f).hdie = s.hdie := rfl
@[simp] theorem State.updTile_elogBase (s : State) (n t : Nat) (f : Tile → Tile) : (s.updTile n t f).elogBase = s.elogBase := rfl
@[simp] theorem State.updTile_elogHead (s : State) (n t : Nat) (f : Tile → Tile) : (s.updTile n t f).elogHead = s.elogHead := rfl
@[simp] theorem State.updTile_elogTail (s : State) (n t : Nat) (f : Tile → Tile) : (s.updTile n t f).elogTail = s.elogTail := rfl
@[simp] theorem State.updTile_elogLost (s : State) (n t : Nat) (f : Tile → Tile) : (s.updTile n t f).elogLost = s.elogLost := rfl
@[simp] theorem State.updTile_elogThresh (s : State) (n t : Nat) (f : Tile → Tile) : (s.updTile n t f).elogThresh = s.elogThresh := rfl
@[simp] theorem State.updTile_elogMsien (s : State) (n t : Nat) (f : Tile → Tile) : (s.updTile n t f).elogMsien = s.elogMsien := rfl
@[simp] theorem State.updTile_msiTab (s : State) (n t : Nat) (f : Tile → Tile) : (s.updTile n t f).msiTab = s.msiTab := rfl
@[simp] theorem State.updTile_msiDropped (s : State) (n t : Nat) (f : Tile → Tile) : (s.updTile n t f).msiDropped = s.msiDropped := rfl
@[simp] theorem State.updTile_awls (s : State) (n t : Nat) (f : Tile → Tile) : (s.updTile n t f).awls = s.awls := rfl
@[simp] theorem State.updTile_host (s : State) (n t : Nat) (f : Tile → Tile) : (s.updTile n t f).host = s.host := rfl
@[simp] theorem State.updTile_sent (s : State) (n t : Nat) (f : Tile → Tile) : (s.updTile n t f).sent = s.sent := rfl

/-! ## updSend -/

@[simp] theorem State.updSend_who (s : State) (e : Nat) (f : Send → Send) : (s.updSend e f).who = s.who := rfl
@[simp] theorem State.updSend_arg (s : State) (e : Nat) (f : Send → Send) : (s.updSend e f).arg = s.arg := rfl
@[simp] theorem State.updSend_agenda (s : State) (e : Nat) (f : Send → Send) : (s.updSend e f).agenda = s.agenda := rfl
@[simp] theorem State.updSend_upset (s : State) (e : Nat) (f : Send → Send) : (s.updSend e f).upset = s.upset := rfl
@[simp] theorem State.updSend_free (s : State) (e : Nat) (f : Send → Send) : (s.updSend e f).free = s.free := rfl
@[simp] theorem State.updSend_nextId (s : State) (e : Nat) (f : Send → Send) : (s.updSend e f).nextId = s.nextId := rfl
@[simp] theorem State.updSend_teams (s : State) (e : Nat) (f : Send → Send) : (s.updSend e f).teams = s.teams := rfl
@[simp] theorem State.updSend_launches (s : State) (e : Nat) (f : Send → Send) : (s.updSend e f).launches = s.launches := rfl
@[simp] theorem State.updSend_gangs (s : State) (e : Nat) (f : Send → Send) : (s.updSend e f).gangs = s.gangs := rfl
@[simp] theorem State.updSend_ctxs (s : State) (e : Nat) (f : Send → Send) : (s.updSend e f).ctxs = s.ctxs := rfl
@[simp] theorem State.updSend_cores (s : State) (e : Nat) (f : Send → Send) : (s.updSend e f).cores = s.cores := rfl
@[simp] theorem State.updSend_ops (s : State) (e : Nat) (f : Send → Send) : (s.updSend e f).ops = s.ops := rfl
@[simp] theorem State.updSend_copies (s : State) (e : Nat) (f : Send → Send) : (s.updSend e f).copies = s.copies := rfl
@[simp] theorem State.updSend_forwards (s : State) (e : Nat) (f : Send → Send) : (s.updSend e f).forwards = s.forwards := rfl
@[simp] theorem State.updSend_slots (s : State) (e : Nat) (f : Send → Send) : (s.updSend e f).slots = s.slots := rfl
@[simp] theorem State.updSend_glob (s : State) (e : Nat) (f : Send → Send) : (s.updSend e f).glob = s.glob := rfl
@[simp] theorem State.updSend_modes (s : State) (e : Nat) (f : Send → Send) : (s.updSend e f).modes = s.modes := rfl
@[simp] theorem State.updSend_via (s : State) (e : Nat) (f : Send → Send) : (s.updSend e f).via = s.via := rfl
@[simp] theorem State.updSend_rounds (s : State) (e : Nat) (f : Send → Send) : (s.updSend e f).rounds = s.rounds := rfl
@[simp] theorem State.updSend_farScopes (s : State) (e : Nat) (f : Send → Send) : (s.updSend e f).farScopes = s.farScopes := rfl
@[simp] theorem State.updSend_chips (s : State) (e : Nat) (f : Send → Send) : (s.updSend e f).chips = s.chips := rfl
@[simp] theorem State.updSend_ms (s : State) (e : Nat) (f : Send → Send) : (s.updSend e f).ms = s.ms := rfl
@[simp] theorem State.updSend_routes (s : State) (e : Nat) (f : Send → Send) : (s.updSend e f).routes = s.routes := rfl
@[simp] theorem State.updSend_pkg (s : State) (e : Nat) (f : Send → Send) : (s.updSend e f).pkg = s.pkg := rfl
@[simp] theorem State.updSend_hdie (s : State) (e : Nat) (f : Send → Send) : (s.updSend e f).hdie = s.hdie := rfl
@[simp] theorem State.updSend_elogBase (s : State) (e : Nat) (f : Send → Send) : (s.updSend e f).elogBase = s.elogBase := rfl
@[simp] theorem State.updSend_elogHead (s : State) (e : Nat) (f : Send → Send) : (s.updSend e f).elogHead = s.elogHead := rfl
@[simp] theorem State.updSend_elogTail (s : State) (e : Nat) (f : Send → Send) : (s.updSend e f).elogTail = s.elogTail := rfl
@[simp] theorem State.updSend_elogLost (s : State) (e : Nat) (f : Send → Send) : (s.updSend e f).elogLost = s.elogLost := rfl
@[simp] theorem State.updSend_elogThresh (s : State) (e : Nat) (f : Send → Send) : (s.updSend e f).elogThresh = s.elogThresh := rfl
@[simp] theorem State.updSend_elogMsien (s : State) (e : Nat) (f : Send → Send) : (s.updSend e f).elogMsien = s.elogMsien := rfl
@[simp] theorem State.updSend_msiTab (s : State) (e : Nat) (f : Send → Send) : (s.updSend e f).msiTab = s.msiTab := rfl
@[simp] theorem State.updSend_msiDropped (s : State) (e : Nat) (f : Send → Send) : (s.updSend e f).msiDropped = s.msiDropped := rfl
@[simp] theorem State.updSend_awls (s : State) (e : Nat) (f : Send → Send) : (s.updSend e f).awls = s.awls := rfl
@[simp] theorem State.updSend_host (s : State) (e : Nat) (f : Send → Send) : (s.updSend e f).host = s.host := rfl
@[simp] theorem State.updSend_sent (s : State) (e : Nat) (f : Send → Send) : (s.updSend e f).sent = s.sent := rfl

/-! ## updAwl -/

@[simp] theorem State.updAwl_who (s : State) (n : Nat) (f : Awl → Awl) : (s.updAwl n f).who = s.who := rfl
@[simp] theorem State.updAwl_arg (s : State) (n : Nat) (f : Awl → Awl) : (s.updAwl n f).arg = s.arg := rfl
@[simp] theorem State.updAwl_agenda (s : State) (n : Nat) (f : Awl → Awl) : (s.updAwl n f).agenda = s.agenda := rfl
@[simp] theorem State.updAwl_upset (s : State) (n : Nat) (f : Awl → Awl) : (s.updAwl n f).upset = s.upset := rfl
@[simp] theorem State.updAwl_free (s : State) (n : Nat) (f : Awl → Awl) : (s.updAwl n f).free = s.free := rfl
@[simp] theorem State.updAwl_nextId (s : State) (n : Nat) (f : Awl → Awl) : (s.updAwl n f).nextId = s.nextId := rfl
@[simp] theorem State.updAwl_teams (s : State) (n : Nat) (f : Awl → Awl) : (s.updAwl n f).teams = s.teams := rfl
@[simp] theorem State.updAwl_launches (s : State) (n : Nat) (f : Awl → Awl) : (s.updAwl n f).launches = s.launches := rfl
@[simp] theorem State.updAwl_gangs (s : State) (n : Nat) (f : Awl → Awl) : (s.updAwl n f).gangs = s.gangs := rfl
@[simp] theorem State.updAwl_ctxs (s : State) (n : Nat) (f : Awl → Awl) : (s.updAwl n f).ctxs = s.ctxs := rfl
@[simp] theorem State.updAwl_cores (s : State) (n : Nat) (f : Awl → Awl) : (s.updAwl n f).cores = s.cores := rfl
@[simp] theorem State.updAwl_ops (s : State) (n : Nat) (f : Awl → Awl) : (s.updAwl n f).ops = s.ops := rfl
@[simp] theorem State.updAwl_copies (s : State) (n : Nat) (f : Awl → Awl) : (s.updAwl n f).copies = s.copies := rfl
@[simp] theorem State.updAwl_forwards (s : State) (n : Nat) (f : Awl → Awl) : (s.updAwl n f).forwards = s.forwards := rfl
@[simp] theorem State.updAwl_slots (s : State) (n : Nat) (f : Awl → Awl) : (s.updAwl n f).slots = s.slots := rfl
@[simp] theorem State.updAwl_glob (s : State) (n : Nat) (f : Awl → Awl) : (s.updAwl n f).glob = s.glob := rfl
@[simp] theorem State.updAwl_modes (s : State) (n : Nat) (f : Awl → Awl) : (s.updAwl n f).modes = s.modes := rfl
@[simp] theorem State.updAwl_via (s : State) (n : Nat) (f : Awl → Awl) : (s.updAwl n f).via = s.via := rfl
@[simp] theorem State.updAwl_rounds (s : State) (n : Nat) (f : Awl → Awl) : (s.updAwl n f).rounds = s.rounds := rfl
@[simp] theorem State.updAwl_farScopes (s : State) (n : Nat) (f : Awl → Awl) : (s.updAwl n f).farScopes = s.farScopes := rfl
@[simp] theorem State.updAwl_chips (s : State) (n : Nat) (f : Awl → Awl) : (s.updAwl n f).chips = s.chips := rfl
@[simp] theorem State.updAwl_ms (s : State) (n : Nat) (f : Awl → Awl) : (s.updAwl n f).ms = s.ms := rfl
@[simp] theorem State.updAwl_routes (s : State) (n : Nat) (f : Awl → Awl) : (s.updAwl n f).routes = s.routes := rfl
@[simp] theorem State.updAwl_pkg (s : State) (n : Nat) (f : Awl → Awl) : (s.updAwl n f).pkg = s.pkg := rfl
@[simp] theorem State.updAwl_hdie (s : State) (n : Nat) (f : Awl → Awl) : (s.updAwl n f).hdie = s.hdie := rfl
@[simp] theorem State.updAwl_elogBase (s : State) (n : Nat) (f : Awl → Awl) : (s.updAwl n f).elogBase = s.elogBase := rfl
@[simp] theorem State.updAwl_elogHead (s : State) (n : Nat) (f : Awl → Awl) : (s.updAwl n f).elogHead = s.elogHead := rfl
@[simp] theorem State.updAwl_elogTail (s : State) (n : Nat) (f : Awl → Awl) : (s.updAwl n f).elogTail = s.elogTail := rfl
@[simp] theorem State.updAwl_elogLost (s : State) (n : Nat) (f : Awl → Awl) : (s.updAwl n f).elogLost = s.elogLost := rfl
@[simp] theorem State.updAwl_elogThresh (s : State) (n : Nat) (f : Awl → Awl) : (s.updAwl n f).elogThresh = s.elogThresh := rfl
@[simp] theorem State.updAwl_elogMsien (s : State) (n : Nat) (f : Awl → Awl) : (s.updAwl n f).elogMsien = s.elogMsien := rfl
@[simp] theorem State.updAwl_msiTab (s : State) (n : Nat) (f : Awl → Awl) : (s.updAwl n f).msiTab = s.msiTab := rfl
@[simp] theorem State.updAwl_msiDropped (s : State) (n : Nat) (f : Awl → Awl) : (s.updAwl n f).msiDropped = s.msiDropped := rfl
@[simp] theorem State.updAwl_sad (s : State) (n : Nat) (f : Awl → Awl) : (s.updAwl n f).sad = s.sad := rfl
@[simp] theorem State.updAwl_host (s : State) (n : Nat) (f : Awl → Awl) : (s.updAwl n f).host = s.host := rfl
@[simp] theorem State.updAwl_sent (s : State) (n : Nat) (f : Awl → Awl) : (s.updAwl n f).sent = s.sent := rfl

/-! ## updHost -/

@[simp] theorem State.updHost_who (s : State) (f : HostCx → HostCx) : (s.updHost f).who = s.who := rfl
@[simp] theorem State.updHost_arg (s : State) (f : HostCx → HostCx) : (s.updHost f).arg = s.arg := rfl
@[simp] theorem State.updHost_agenda (s : State) (f : HostCx → HostCx) : (s.updHost f).agenda = s.agenda := rfl
@[simp] theorem State.updHost_upset (s : State) (f : HostCx → HostCx) : (s.updHost f).upset = s.upset := rfl
@[simp] theorem State.updHost_free (s : State) (f : HostCx → HostCx) : (s.updHost f).free = s.free := rfl
@[simp] theorem State.updHost_nextId (s : State) (f : HostCx → HostCx) : (s.updHost f).nextId = s.nextId := rfl
@[simp] theorem State.updHost_teams (s : State) (f : HostCx → HostCx) : (s.updHost f).teams = s.teams := rfl
@[simp] theorem State.updHost_launches (s : State) (f : HostCx → HostCx) : (s.updHost f).launches = s.launches := rfl
@[simp] theorem State.updHost_gangs (s : State) (f : HostCx → HostCx) : (s.updHost f).gangs = s.gangs := rfl
@[simp] theorem State.updHost_ctxs (s : State) (f : HostCx → HostCx) : (s.updHost f).ctxs = s.ctxs := rfl
@[simp] theorem State.updHost_cores (s : State) (f : HostCx → HostCx) : (s.updHost f).cores = s.cores := rfl
@[simp] theorem State.updHost_ops (s : State) (f : HostCx → HostCx) : (s.updHost f).ops = s.ops := rfl
@[simp] theorem State.updHost_copies (s : State) (f : HostCx → HostCx) : (s.updHost f).copies = s.copies := rfl
@[simp] theorem State.updHost_forwards (s : State) (f : HostCx → HostCx) : (s.updHost f).forwards = s.forwards := rfl
@[simp] theorem State.updHost_slots (s : State) (f : HostCx → HostCx) : (s.updHost f).slots = s.slots := rfl
@[simp] theorem State.updHost_glob (s : State) (f : HostCx → HostCx) : (s.updHost f).glob = s.glob := rfl
@[simp] theorem State.updHost_modes (s : State) (f : HostCx → HostCx) : (s.updHost f).modes = s.modes := rfl
@[simp] theorem State.updHost_via (s : State) (f : HostCx → HostCx) : (s.updHost f).via = s.via := rfl
@[simp] theorem State.updHost_rounds (s : State) (f : HostCx → HostCx) : (s.updHost f).rounds = s.rounds := rfl
@[simp] theorem State.updHost_farScopes (s : State) (f : HostCx → HostCx) : (s.updHost f).farScopes = s.farScopes := rfl
@[simp] theorem State.updHost_chips (s : State) (f : HostCx → HostCx) : (s.updHost f).chips = s.chips := rfl
@[simp] theorem State.updHost_ms (s : State) (f : HostCx → HostCx) : (s.updHost f).ms = s.ms := rfl
@[simp] theorem State.updHost_routes (s : State) (f : HostCx → HostCx) : (s.updHost f).routes = s.routes := rfl
@[simp] theorem State.updHost_pkg (s : State) (f : HostCx → HostCx) : (s.updHost f).pkg = s.pkg := rfl
@[simp] theorem State.updHost_hdie (s : State) (f : HostCx → HostCx) : (s.updHost f).hdie = s.hdie := rfl
@[simp] theorem State.updHost_elogBase (s : State) (f : HostCx → HostCx) : (s.updHost f).elogBase = s.elogBase := rfl
@[simp] theorem State.updHost_elogHead (s : State) (f : HostCx → HostCx) : (s.updHost f).elogHead = s.elogHead := rfl
@[simp] theorem State.updHost_elogTail (s : State) (f : HostCx → HostCx) : (s.updHost f).elogTail = s.elogTail := rfl
@[simp] theorem State.updHost_elogLost (s : State) (f : HostCx → HostCx) : (s.updHost f).elogLost = s.elogLost := rfl
@[simp] theorem State.updHost_elogThresh (s : State) (f : HostCx → HostCx) : (s.updHost f).elogThresh = s.elogThresh := rfl
@[simp] theorem State.updHost_elogMsien (s : State) (f : HostCx → HostCx) : (s.updHost f).elogMsien = s.elogMsien := rfl
@[simp] theorem State.updHost_msiTab (s : State) (f : HostCx → HostCx) : (s.updHost f).msiTab = s.msiTab := rfl
@[simp] theorem State.updHost_msiDropped (s : State) (f : HostCx → HostCx) : (s.updHost f).msiDropped = s.msiDropped := rfl
@[simp] theorem State.updHost_sad (s : State) (f : HostCx → HostCx) : (s.updHost f).sad = s.sad := rfl
@[simp] theorem State.updHost_awls (s : State) (f : HostCx → HostCx) : (s.updHost f).awls = s.awls := rfl
@[simp] theorem State.updHost_sent (s : State) (f : HostCx → HostCx) : (s.updHost f).sent = s.sent := rfl

/-! ## Reading back -/

@[simp] theorem State.updSad_sad (s : State) (f : Saddle → Saddle) : (s.updSad f).sad = f s.sad := rfl
@[simp] theorem State.updHost_host (s : State) (f : HostCx → HostCx) : (s.updHost f).host = f s.host := rfl
@[simp] theorem State.updAwl_awl (s : State) (n : Nat) (f : Awl → Awl) : (s.updAwl n f).awl n = f (s.awl n) := by
  simp [State.updAwl, State.awl]
@[simp] theorem State.updSend_send (s : State) (e : Nat) (f : Send → Send) : (s.updSend e f).send e = f (s.send e) := by
  simp [State.updSend, State.updSad, State.send]
@[simp] theorem State.updTile_tile (s : State) (n t : Nat) (f : Tile → Tile) : (s.updTile n t f).tile n t = f (s.tile n t) := by
  simp [State.updTile, State.updSad, State.tile]
theorem State.updAwl_other (s : State) {n m : Nat} (f : Awl → Awl) (h : m ≠ n) : (s.updAwl n f).awl m = s.awl m := by
  simp [State.updAwl, State.awl, Tab.get_put_other _ _ _ h]

/-! ## updHart and updFile -/

@[simp] theorem State.updHart_who (s : State) (n : Nat) (f : Hart → Hart) : (s.updHart n f).who = s.who := rfl
@[simp] theorem State.updHart_arg (s : State) (n : Nat) (f : Hart → Hart) : (s.updHart n f).arg = s.arg := rfl
@[simp] theorem State.updHart_agenda (s : State) (n : Nat) (f : Hart → Hart) : (s.updHart n f).agenda = s.agenda := rfl
@[simp] theorem State.updHart_upset (s : State) (n : Nat) (f : Hart → Hart) : (s.updHart n f).upset = s.upset := rfl
@[simp] theorem State.updHart_free (s : State) (n : Nat) (f : Hart → Hart) : (s.updHart n f).free = s.free := rfl
@[simp] theorem State.updHart_nextId (s : State) (n : Nat) (f : Hart → Hart) : (s.updHart n f).nextId = s.nextId := rfl
@[simp] theorem State.updHart_teams (s : State) (n : Nat) (f : Hart → Hart) : (s.updHart n f).teams = s.teams := rfl
@[simp] theorem State.updHart_launches (s : State) (n : Nat) (f : Hart → Hart) : (s.updHart n f).launches = s.launches := rfl
@[simp] theorem State.updHart_gangs (s : State) (n : Nat) (f : Hart → Hart) : (s.updHart n f).gangs = s.gangs := rfl
@[simp] theorem State.updHart_ctxs (s : State) (n : Nat) (f : Hart → Hart) : (s.updHart n f).ctxs = s.ctxs := rfl
@[simp] theorem State.updHart_cores (s : State) (n : Nat) (f : Hart → Hart) : (s.updHart n f).cores = s.cores := rfl
@[simp] theorem State.updHart_ops (s : State) (n : Nat) (f : Hart → Hart) : (s.updHart n f).ops = s.ops := rfl
@[simp] theorem State.updHart_copies (s : State) (n : Nat) (f : Hart → Hart) : (s.updHart n f).copies = s.copies := rfl
@[simp] theorem State.updHart_forwards (s : State) (n : Nat) (f : Hart → Hart) : (s.updHart n f).forwards = s.forwards := rfl
@[simp] theorem State.updHart_slots (s : State) (n : Nat) (f : Hart → Hart) : (s.updHart n f).slots = s.slots := rfl
@[simp] theorem State.updHart_glob (s : State) (n : Nat) (f : Hart → Hart) : (s.updHart n f).glob = s.glob := rfl
@[simp] theorem State.updHart_modes (s : State) (n : Nat) (f : Hart → Hart) : (s.updHart n f).modes = s.modes := rfl
@[simp] theorem State.updHart_via (s : State) (n : Nat) (f : Hart → Hart) : (s.updHart n f).via = s.via := rfl
@[simp] theorem State.updHart_rounds (s : State) (n : Nat) (f : Hart → Hart) : (s.updHart n f).rounds = s.rounds := rfl
@[simp] theorem State.updHart_farScopes (s : State) (n : Nat) (f : Hart → Hart) : (s.updHart n f).farScopes = s.farScopes := rfl
@[simp] theorem State.updHart_chips (s : State) (n : Nat) (f : Hart → Hart) : (s.updHart n f).chips = s.chips := rfl
@[simp] theorem State.updHart_ms (s : State) (n : Nat) (f : Hart → Hart) : (s.updHart n f).ms = s.ms := rfl
@[simp] theorem State.updHart_routes (s : State) (n : Nat) (f : Hart → Hart) : (s.updHart n f).routes = s.routes := rfl
@[simp] theorem State.updHart_pkg (s : State) (n : Nat) (f : Hart → Hart) : (s.updHart n f).pkg = s.pkg := rfl
@[simp] theorem State.updHart_hdie (s : State) (n : Nat) (f : Hart → Hart) : (s.updHart n f).hdie = s.hdie := rfl
@[simp] theorem State.updHart_elogBase (s : State) (n : Nat) (f : Hart → Hart) : (s.updHart n f).elogBase = s.elogBase := rfl
@[simp] theorem State.updHart_elogHead (s : State) (n : Nat) (f : Hart → Hart) : (s.updHart n f).elogHead = s.elogHead := rfl
@[simp] theorem State.updHart_elogTail (s : State) (n : Nat) (f : Hart → Hart) : (s.updHart n f).elogTail = s.elogTail := rfl
@[simp] theorem State.updHart_elogLost (s : State) (n : Nat) (f : Hart → Hart) : (s.updHart n f).elogLost = s.elogLost := rfl
@[simp] theorem State.updHart_elogThresh (s : State) (n : Nat) (f : Hart → Hart) : (s.updHart n f).elogThresh = s.elogThresh := rfl
@[simp] theorem State.updHart_elogMsien (s : State) (n : Nat) (f : Hart → Hart) : (s.updHart n f).elogMsien = s.elogMsien := rfl
@[simp] theorem State.updHart_msiTab (s : State) (n : Nat) (f : Hart → Hart) : (s.updHart n f).msiTab = s.msiTab := rfl
@[simp] theorem State.updHart_msiDropped (s : State) (n : Nat) (f : Hart → Hart) : (s.updHart n f).msiDropped = s.msiDropped := rfl
@[simp] theorem State.updHart_sad (s : State) (n : Nat) (f : Hart → Hart) : (s.updHart n f).sad = s.sad := rfl
@[simp] theorem State.updHart_awls (s : State) (n : Nat) (f : Hart → Hart) : (s.updHart n f).awls = s.awls := rfl
@[simp] theorem State.updHart_sent (s : State) (n : Nat) (f : Hart → Hart) : (s.updHart n f).sent = s.sent := rfl
@[simp] theorem State.updFile_who (s : State) (hart file : Nat) (f : IntFile → IntFile) : (s.updFile hart file f).who = s.who := rfl
@[simp] theorem State.updFile_arg (s : State) (hart file : Nat) (f : IntFile → IntFile) : (s.updFile hart file f).arg = s.arg := rfl
@[simp] theorem State.updFile_agenda (s : State) (hart file : Nat) (f : IntFile → IntFile) : (s.updFile hart file f).agenda = s.agenda := rfl
@[simp] theorem State.updFile_upset (s : State) (hart file : Nat) (f : IntFile → IntFile) : (s.updFile hart file f).upset = s.upset := rfl
@[simp] theorem State.updFile_free (s : State) (hart file : Nat) (f : IntFile → IntFile) : (s.updFile hart file f).free = s.free := rfl
@[simp] theorem State.updFile_nextId (s : State) (hart file : Nat) (f : IntFile → IntFile) : (s.updFile hart file f).nextId = s.nextId := rfl
@[simp] theorem State.updFile_teams (s : State) (hart file : Nat) (f : IntFile → IntFile) : (s.updFile hart file f).teams = s.teams := rfl
@[simp] theorem State.updFile_launches (s : State) (hart file : Nat) (f : IntFile → IntFile) : (s.updFile hart file f).launches = s.launches := rfl
@[simp] theorem State.updFile_gangs (s : State) (hart file : Nat) (f : IntFile → IntFile) : (s.updFile hart file f).gangs = s.gangs := rfl
@[simp] theorem State.updFile_ctxs (s : State) (hart file : Nat) (f : IntFile → IntFile) : (s.updFile hart file f).ctxs = s.ctxs := rfl
@[simp] theorem State.updFile_cores (s : State) (hart file : Nat) (f : IntFile → IntFile) : (s.updFile hart file f).cores = s.cores := rfl
@[simp] theorem State.updFile_ops (s : State) (hart file : Nat) (f : IntFile → IntFile) : (s.updFile hart file f).ops = s.ops := rfl
@[simp] theorem State.updFile_copies (s : State) (hart file : Nat) (f : IntFile → IntFile) : (s.updFile hart file f).copies = s.copies := rfl
@[simp] theorem State.updFile_forwards (s : State) (hart file : Nat) (f : IntFile → IntFile) : (s.updFile hart file f).forwards = s.forwards := rfl
@[simp] theorem State.updFile_slots (s : State) (hart file : Nat) (f : IntFile → IntFile) : (s.updFile hart file f).slots = s.slots := rfl
@[simp] theorem State.updFile_glob (s : State) (hart file : Nat) (f : IntFile → IntFile) : (s.updFile hart file f).glob = s.glob := rfl
@[simp] theorem State.updFile_modes (s : State) (hart file : Nat) (f : IntFile → IntFile) : (s.updFile hart file f).modes = s.modes := rfl
@[simp] theorem State.updFile_via (s : State) (hart file : Nat) (f : IntFile → IntFile) : (s.updFile hart file f).via = s.via := rfl
@[simp] theorem State.updFile_rounds (s : State) (hart file : Nat) (f : IntFile → IntFile) : (s.updFile hart file f).rounds = s.rounds := rfl
@[simp] theorem State.updFile_farScopes (s : State) (hart file : Nat) (f : IntFile → IntFile) : (s.updFile hart file f).farScopes = s.farScopes := rfl
@[simp] theorem State.updFile_chips (s : State) (hart file : Nat) (f : IntFile → IntFile) : (s.updFile hart file f).chips = s.chips := rfl
@[simp] theorem State.updFile_ms (s : State) (hart file : Nat) (f : IntFile → IntFile) : (s.updFile hart file f).ms = s.ms := rfl
@[simp] theorem State.updFile_routes (s : State) (hart file : Nat) (f : IntFile → IntFile) : (s.updFile hart file f).routes = s.routes := rfl
@[simp] theorem State.updFile_pkg (s : State) (hart file : Nat) (f : IntFile → IntFile) : (s.updFile hart file f).pkg = s.pkg := rfl
@[simp] theorem State.updFile_hdie (s : State) (hart file : Nat) (f : IntFile → IntFile) : (s.updFile hart file f).hdie = s.hdie := rfl
@[simp] theorem State.updFile_elogBase (s : State) (hart file : Nat) (f : IntFile → IntFile) : (s.updFile hart file f).elogBase = s.elogBase := rfl
@[simp] theorem State.updFile_elogHead (s : State) (hart file : Nat) (f : IntFile → IntFile) : (s.updFile hart file f).elogHead = s.elogHead := rfl
@[simp] theorem State.updFile_elogTail (s : State) (hart file : Nat) (f : IntFile → IntFile) : (s.updFile hart file f).elogTail = s.elogTail := rfl
@[simp] theorem State.updFile_elogLost (s : State) (hart file : Nat) (f : IntFile → IntFile) : (s.updFile hart file f).elogLost = s.elogLost := rfl
@[simp] theorem State.updFile_elogThresh (s : State) (hart file : Nat) (f : IntFile → IntFile) : (s.updFile hart file f).elogThresh = s.elogThresh := rfl
@[simp] theorem State.updFile_elogMsien (s : State) (hart file : Nat) (f : IntFile → IntFile) : (s.updFile hart file f).elogMsien = s.elogMsien := rfl
@[simp] theorem State.updFile_msiTab (s : State) (hart file : Nat) (f : IntFile → IntFile) : (s.updFile hart file f).msiTab = s.msiTab := rfl
@[simp] theorem State.updFile_msiDropped (s : State) (hart file : Nat) (f : IntFile → IntFile) : (s.updFile hart file f).msiDropped = s.msiDropped := rfl
@[simp] theorem State.updFile_sad (s : State) (hart file : Nat) (f : IntFile → IntFile) : (s.updFile hart file f).sad = s.sad := rfl
@[simp] theorem State.updFile_awls (s : State) (hart file : Nat) (f : IntFile → IntFile) : (s.updFile hart file f).awls = s.awls := rfl
@[simp] theorem State.updFile_sent (s : State) (hart file : Nat) (f : IntFile → IntFile) : (s.updFile hart file f).sent = s.sent := rfl
@[simp] theorem State.hart_updHart (s : State) (n : Nat) (f : Hart → Hart) : (s.updHart n f).hart n = f (s.hart n) := by
  simp [State.updHart, State.updHost, State.hart]
theorem State.hart_updHart_other (s : State) {n m : Nat} (f : Hart → Hart) (h : m ≠ n) : (s.updHart n f).hart m = s.hart m := by
  simp [State.updHart, State.updHost, State.hart, Tab.get_put_other _ _ _ h]

end Sys2Proof.Machine
end

