-- ==== Sys2Proof/Laws/State.lean ====
section
/-! SUPPORT. What each update of a part of the state leaves alone, one lemma a field, and what it changes. -/

namespace Sys2Proof.Machine

/-! ## updTeam -/

@[simp] theorem State.updTeam_teams (s : State) (tid : Nat) (f : Team → Team) : (s.updTeam tid f).teams = s.teams.upd tid f := rfl
@[simp] theorem State.updTeam_who (s : State) (tid : Nat) (f : Team → Team) : (s.updTeam tid f).who = s.who := rfl
@[simp] theorem State.updTeam_arg (s : State) (tid : Nat) (f : Team → Team) : (s.updTeam tid f).arg = s.arg := rfl
@[simp] theorem State.updTeam_agenda (s : State) (tid : Nat) (f : Team → Team) : (s.updTeam tid f).agenda = s.agenda := rfl
@[simp] theorem State.updTeam_upset (s : State) (tid : Nat) (f : Team → Team) : (s.updTeam tid f).upset = s.upset := rfl
@[simp] theorem State.updTeam_free (s : State) (tid : Nat) (f : Team → Team) : (s.updTeam tid f).free = s.free := rfl
@[simp] theorem State.updTeam_nextId (s : State) (tid : Nat) (f : Team → Team) : (s.updTeam tid f).nextId = s.nextId := rfl
@[simp] theorem State.updTeam_launches (s : State) (tid : Nat) (f : Team → Team) : (s.updTeam tid f).launches = s.launches := rfl
@[simp] theorem State.updTeam_gangs (s : State) (tid : Nat) (f : Team → Team) : (s.updTeam tid f).gangs = s.gangs := rfl
@[simp] theorem State.updTeam_ctxs (s : State) (tid : Nat) (f : Team → Team) : (s.updTeam tid f).ctxs = s.ctxs := rfl
@[simp] theorem State.updTeam_cores (s : State) (tid : Nat) (f : Team → Team) : (s.updTeam tid f).cores = s.cores := rfl
@[simp] theorem State.updTeam_ops (s : State) (tid : Nat) (f : Team → Team) : (s.updTeam tid f).ops = s.ops := rfl
@[simp] theorem State.updTeam_copies (s : State) (tid : Nat) (f : Team → Team) : (s.updTeam tid f).copies = s.copies := rfl
@[simp] theorem State.updTeam_forwards (s : State) (tid : Nat) (f : Team → Team) : (s.updTeam tid f).forwards = s.forwards := rfl
@[simp] theorem State.updTeam_slots (s : State) (tid : Nat) (f : Team → Team) : (s.updTeam tid f).slots = s.slots := rfl
@[simp] theorem State.updTeam_glob (s : State) (tid : Nat) (f : Team → Team) : (s.updTeam tid f).glob = s.glob := rfl
@[simp] theorem State.updTeam_modes (s : State) (tid : Nat) (f : Team → Team) : (s.updTeam tid f).modes = s.modes := rfl
@[simp] theorem State.updTeam_via (s : State) (tid : Nat) (f : Team → Team) : (s.updTeam tid f).via = s.via := rfl
@[simp] theorem State.updTeam_rounds (s : State) (tid : Nat) (f : Team → Team) : (s.updTeam tid f).rounds = s.rounds := rfl
@[simp] theorem State.updTeam_farScopes (s : State) (tid : Nat) (f : Team → Team) : (s.updTeam tid f).farScopes = s.farScopes := rfl
@[simp] theorem State.updTeam_chips (s : State) (tid : Nat) (f : Team → Team) : (s.updTeam tid f).chips = s.chips := rfl
@[simp] theorem State.updTeam_ms (s : State) (tid : Nat) (f : Team → Team) : (s.updTeam tid f).ms = s.ms := rfl
@[simp] theorem State.updTeam_routes (s : State) (tid : Nat) (f : Team → Team) : (s.updTeam tid f).routes = s.routes := rfl
@[simp] theorem State.updTeam_pkg (s : State) (tid : Nat) (f : Team → Team) : (s.updTeam tid f).pkg = s.pkg := rfl
@[simp] theorem State.updTeam_hdie (s : State) (tid : Nat) (f : Team → Team) : (s.updTeam tid f).hdie = s.hdie := rfl
@[simp] theorem State.updTeam_elogBase (s : State) (tid : Nat) (f : Team → Team) : (s.updTeam tid f).elogBase = s.elogBase := rfl
@[simp] theorem State.updTeam_elogHead (s : State) (tid : Nat) (f : Team → Team) : (s.updTeam tid f).elogHead = s.elogHead := rfl
@[simp] theorem State.updTeam_elogTail (s : State) (tid : Nat) (f : Team → Team) : (s.updTeam tid f).elogTail = s.elogTail := rfl
@[simp] theorem State.updTeam_elogLost (s : State) (tid : Nat) (f : Team → Team) : (s.updTeam tid f).elogLost = s.elogLost := rfl
@[simp] theorem State.updTeam_elogThresh (s : State) (tid : Nat) (f : Team → Team) : (s.updTeam tid f).elogThresh = s.elogThresh := rfl
@[simp] theorem State.updTeam_elogMsien (s : State) (tid : Nat) (f : Team → Team) : (s.updTeam tid f).elogMsien = s.elogMsien := rfl
@[simp] theorem State.updTeam_msiTab (s : State) (tid : Nat) (f : Team → Team) : (s.updTeam tid f).msiTab = s.msiTab := rfl
@[simp] theorem State.updTeam_msiDropped (s : State) (tid : Nat) (f : Team → Team) : (s.updTeam tid f).msiDropped = s.msiDropped := rfl
@[simp] theorem State.updTeam_sad (s : State) (tid : Nat) (f : Team → Team) : (s.updTeam tid f).sad = s.sad := rfl
@[simp] theorem State.updTeam_awls (s : State) (tid : Nat) (f : Team → Team) : (s.updTeam tid f).awls = s.awls := rfl
@[simp] theorem State.updTeam_host (s : State) (tid : Nat) (f : Team → Team) : (s.updTeam tid f).host = s.host := rfl
@[simp] theorem State.updTeam_sent (s : State) (tid : Nat) (f : Team → Team) : (s.updTeam tid f).sent = s.sent := rfl

/-! ## updLead -/

@[simp] theorem State.updLead_who (s : State) (tid : Nat) (f : Lead → Lead) : (s.updLead tid f).who = s.who := rfl
@[simp] theorem State.updLead_arg (s : State) (tid : Nat) (f : Lead → Lead) : (s.updLead tid f).arg = s.arg := rfl
@[simp] theorem State.updLead_agenda (s : State) (tid : Nat) (f : Lead → Lead) : (s.updLead tid f).agenda = s.agenda := rfl
@[simp] theorem State.updLead_upset (s : State) (tid : Nat) (f : Lead → Lead) : (s.updLead tid f).upset = s.upset := rfl
@[simp] theorem State.updLead_free (s : State) (tid : Nat) (f : Lead → Lead) : (s.updLead tid f).free = s.free := rfl
@[simp] theorem State.updLead_nextId (s : State) (tid : Nat) (f : Lead → Lead) : (s.updLead tid f).nextId = s.nextId := rfl
@[simp] theorem State.updLead_launches (s : State) (tid : Nat) (f : Lead → Lead) : (s.updLead tid f).launches = s.launches := rfl
@[simp] theorem State.updLead_gangs (s : State) (tid : Nat) (f : Lead → Lead) : (s.updLead tid f).gangs = s.gangs := rfl
@[simp] theorem State.updLead_ctxs (s : State) (tid : Nat) (f : Lead → Lead) : (s.updLead tid f).ctxs = s.ctxs := rfl
@[simp] theorem State.updLead_cores (s : State) (tid : Nat) (f : Lead → Lead) : (s.updLead tid f).cores = s.cores := rfl
@[simp] theorem State.updLead_ops (s : State) (tid : Nat) (f : Lead → Lead) : (s.updLead tid f).ops = s.ops := rfl
@[simp] theorem State.updLead_copies (s : State) (tid : Nat) (f : Lead → Lead) : (s.updLead tid f).copies = s.copies := rfl
@[simp] theorem State.updLead_forwards (s : State) (tid : Nat) (f : Lead → Lead) : (s.updLead tid f).forwards = s.forwards := rfl
@[simp] theorem State.updLead_slots (s : State) (tid : Nat) (f : Lead → Lead) : (s.updLead tid f).slots = s.slots := rfl
@[simp] theorem State.updLead_glob (s : State) (tid : Nat) (f : Lead → Lead) : (s.updLead tid f).glob = s.glob := rfl
@[simp] theorem State.updLead_modes (s : State) (tid : Nat) (f : Lead → Lead) : (s.updLead tid f).modes = s.modes := rfl
@[simp] theorem State.updLead_via (s : State) (tid : Nat) (f : Lead → Lead) : (s.updLead tid f).via = s.via := rfl
@[simp] theorem State.updLead_rounds (s : State) (tid : Nat) (f : Lead → Lead) : (s.updLead tid f).rounds = s.rounds := rfl
@[simp] theorem State.updLead_farScopes (s : State) (tid : Nat) (f : Lead → Lead) : (s.updLead tid f).farScopes = s.farScopes := rfl
@[simp] theorem State.updLead_chips (s : State) (tid : Nat) (f : Lead → Lead) : (s.updLead tid f).chips = s.chips := rfl
@[simp] theorem State.updLead_ms (s : State) (tid : Nat) (f : Lead → Lead) : (s.updLead tid f).ms = s.ms := rfl
@[simp] theorem State.updLead_routes (s : State) (tid : Nat) (f : Lead → Lead) : (s.updLead tid f).routes = s.routes := rfl
@[simp] theorem State.updLead_pkg (s : State) (tid : Nat) (f : Lead → Lead) : (s.updLead tid f).pkg = s.pkg := rfl
@[simp] theorem State.updLead_hdie (s : State) (tid : Nat) (f : Lead → Lead) : (s.updLead tid f).hdie = s.hdie := rfl
@[simp] theorem State.updLead_elogBase (s : State) (tid : Nat) (f : Lead → Lead) : (s.updLead tid f).elogBase = s.elogBase := rfl
@[simp] theorem State.updLead_elogHead (s : State) (tid : Nat) (f : Lead → Lead) : (s.updLead tid f).elogHead = s.elogHead := rfl
@[simp] theorem State.updLead_elogTail (s : State) (tid : Nat) (f : Lead → Lead) : (s.updLead tid f).elogTail = s.elogTail := rfl
@[simp] theorem State.updLead_elogLost (s : State) (tid : Nat) (f : Lead → Lead) : (s.updLead tid f).elogLost = s.elogLost := rfl
@[simp] theorem State.updLead_elogThresh (s : State) (tid : Nat) (f : Lead → Lead) : (s.updLead tid f).elogThresh = s.elogThresh := rfl
@[simp] theorem State.updLead_elogMsien (s : State) (tid : Nat) (f : Lead → Lead) : (s.updLead tid f).elogMsien = s.elogMsien := rfl
@[simp] theorem State.updLead_msiTab (s : State) (tid : Nat) (f : Lead → Lead) : (s.updLead tid f).msiTab = s.msiTab := rfl
@[simp] theorem State.updLead_msiDropped (s : State) (tid : Nat) (f : Lead → Lead) : (s.updLead tid f).msiDropped = s.msiDropped := rfl
@[simp] theorem State.updLead_sad (s : State) (tid : Nat) (f : Lead → Lead) : (s.updLead tid f).sad = s.sad := rfl
@[simp] theorem State.updLead_awls (s : State) (tid : Nat) (f : Lead → Lead) : (s.updLead tid f).awls = s.awls := rfl
@[simp] theorem State.updLead_host (s : State) (tid : Nat) (f : Lead → Lead) : (s.updLead tid f).host = s.host := rfl
@[simp] theorem State.updLead_sent (s : State) (tid : Nat) (f : Lead → Lead) : (s.updLead tid f).sent = s.sent := rfl

/-! ## updThread -/

@[simp] theorem State.updThread_who (s : State) (tid th : Nat) (f : Thread → Thread) : (s.updThread tid th f).who = s.who := rfl
@[simp] theorem State.updThread_arg (s : State) (tid th : Nat) (f : Thread → Thread) : (s.updThread tid th f).arg = s.arg := rfl
@[simp] theorem State.updThread_agenda (s : State) (tid th : Nat) (f : Thread → Thread) : (s.updThread tid th f).agenda = s.agenda := rfl
@[simp] theorem State.updThread_upset (s : State) (tid th : Nat) (f : Thread → Thread) : (s.updThread tid th f).upset = s.upset := rfl
@[simp] theorem State.updThread_free (s : State) (tid th : Nat) (f : Thread → Thread) : (s.updThread tid th f).free = s.free := rfl
@[simp] theorem State.updThread_nextId (s : State) (tid th : Nat) (f : Thread → Thread) : (s.updThread tid th f).nextId = s.nextId := rfl
@[simp] theorem State.updThread_launches (s : State) (tid th : Nat) (f : Thread → Thread) : (s.updThread tid th f).launches = s.launches := rfl
@[simp] theorem State.updThread_gangs (s : State) (tid th : Nat) (f : Thread → Thread) : (s.updThread tid th f).gangs = s.gangs := rfl
@[simp] theorem State.updThread_ctxs (s : State) (tid th : Nat) (f : Thread → Thread) : (s.updThread tid th f).ctxs = s.ctxs := rfl
@[simp] theorem State.updThread_cores (s : State) (tid th : Nat) (f : Thread → Thread) : (s.updThread tid th f).cores = s.cores := rfl
@[simp] theorem State.updThread_ops (s : State) (tid th : Nat) (f : Thread → Thread) : (s.updThread tid th f).ops = s.ops := rfl
@[simp] theorem State.updThread_copies (s : State) (tid th : Nat) (f : Thread → Thread) : (s.updThread tid th f).copies = s.copies := rfl
@[simp] theorem State.updThread_forwards (s : State) (tid th : Nat) (f : Thread → Thread) : (s.updThread tid th f).forwards = s.forwards := rfl
@[simp] theorem State.updThread_slots (s : State) (tid th : Nat) (f : Thread → Thread) : (s.updThread tid th f).slots = s.slots := rfl
@[simp] theorem State.updThread_glob (s : State) (tid th : Nat) (f : Thread → Thread) : (s.updThread tid th f).glob = s.glob := rfl
@[simp] theorem State.updThread_modes (s : State) (tid th : Nat) (f : Thread → Thread) : (s.updThread tid th f).modes = s.modes := rfl
@[simp] theorem State.updThread_via (s : State) (tid th : Nat) (f : Thread → Thread) : (s.updThread tid th f).via = s.via := rfl
@[simp] theorem State.updThread_rounds (s : State) (tid th : Nat) (f : Thread → Thread) : (s.updThread tid th f).rounds = s.rounds := rfl
@[simp] theorem State.updThread_farScopes (s : State) (tid th : Nat) (f : Thread → Thread) : (s.updThread tid th f).farScopes = s.farScopes := rfl
@[simp] theorem State.updThread_chips (s : State) (tid th : Nat) (f : Thread → Thread) : (s.updThread tid th f).chips = s.chips := rfl
@[simp] theorem State.updThread_ms (s : State) (tid th : Nat) (f : Thread → Thread) : (s.updThread tid th f).ms = s.ms := rfl
@[simp] theorem State.updThread_routes (s : State) (tid th : Nat) (f : Thread → Thread) : (s.updThread tid th f).routes = s.routes := rfl
@[simp] theorem State.updThread_pkg (s : State) (tid th : Nat) (f : Thread → Thread) : (s.updThread tid th f).pkg = s.pkg := rfl
@[simp] theorem State.updThread_hdie (s : State) (tid th : Nat) (f : Thread → Thread) : (s.updThread tid th f).hdie = s.hdie := rfl
@[simp] theorem State.updThread_elogBase (s : State) (tid th : Nat) (f : Thread → Thread) : (s.updThread tid th f).elogBase = s.elogBase := rfl
@[simp] theorem State.updThread_elogHead (s : State) (tid th : Nat) (f : Thread → Thread) : (s.updThread tid th f).elogHead = s.elogHead := rfl
@[simp] theorem State.updThread_elogTail (s : State) (tid th : Nat) (f : Thread → Thread) : (s.updThread tid th f).elogTail = s.elogTail := rfl
@[simp] theorem State.updThread_elogLost (s : State) (tid th : Nat) (f : Thread → Thread) : (s.updThread tid th f).elogLost = s.elogLost := rfl
@[simp] theorem State.updThread_elogThresh (s : State) (tid th : Nat) (f : Thread → Thread) : (s.updThread tid th f).elogThresh = s.elogThresh := rfl
@[simp] theorem State.updThread_elogMsien (s : State) (tid th : Nat) (f : Thread → Thread) : (s.updThread tid th f).elogMsien = s.elogMsien := rfl
@[simp] theorem State.updThread_msiTab (s : State) (tid th : Nat) (f : Thread → Thread) : (s.updThread tid th f).msiTab = s.msiTab := rfl
@[simp] theorem State.updThread_msiDropped (s : State) (tid th : Nat) (f : Thread → Thread) : (s.updThread tid th f).msiDropped = s.msiDropped := rfl
@[simp] theorem State.updThread_sad (s : State) (tid th : Nat) (f : Thread → Thread) : (s.updThread tid th f).sad = s.sad := rfl
@[simp] theorem State.updThread_awls (s : State) (tid th : Nat) (f : Thread → Thread) : (s.updThread tid th f).awls = s.awls := rfl
@[simp] theorem State.updThread_host (s : State) (tid th : Nat) (f : Thread → Thread) : (s.updThread tid th f).host = s.host := rfl
@[simp] theorem State.updThread_sent (s : State) (tid th : Nat) (f : Thread → Thread) : (s.updThread tid th f).sent = s.sent := rfl

/-! ## updHw -/

@[simp] theorem State.updHw_who (s : State) (tid hw : Nat) (f : HomeWarp → HomeWarp) : (s.updHw tid hw f).who = s.who := rfl
@[simp] theorem State.updHw_arg (s : State) (tid hw : Nat) (f : HomeWarp → HomeWarp) : (s.updHw tid hw f).arg = s.arg := rfl
@[simp] theorem State.updHw_agenda (s : State) (tid hw : Nat) (f : HomeWarp → HomeWarp) : (s.updHw tid hw f).agenda = s.agenda := rfl
@[simp] theorem State.updHw_upset (s : State) (tid hw : Nat) (f : HomeWarp → HomeWarp) : (s.updHw tid hw f).upset = s.upset := rfl
@[simp] theorem State.updHw_free (s : State) (tid hw : Nat) (f : HomeWarp → HomeWarp) : (s.updHw tid hw f).free = s.free := rfl
@[simp] theorem State.updHw_nextId (s : State) (tid hw : Nat) (f : HomeWarp → HomeWarp) : (s.updHw tid hw f).nextId = s.nextId := rfl
@[simp] theorem State.updHw_launches (s : State) (tid hw : Nat) (f : HomeWarp → HomeWarp) : (s.updHw tid hw f).launches = s.launches := rfl
@[simp] theorem State.updHw_gangs (s : State) (tid hw : Nat) (f : HomeWarp → HomeWarp) : (s.updHw tid hw f).gangs = s.gangs := rfl
@[simp] theorem State.updHw_ctxs (s : State) (tid hw : Nat) (f : HomeWarp → HomeWarp) : (s.updHw tid hw f).ctxs = s.ctxs := rfl
@[simp] theorem State.updHw_cores (s : State) (tid hw : Nat) (f : HomeWarp → HomeWarp) : (s.updHw tid hw f).cores = s.cores := rfl
@[simp] theorem State.updHw_ops (s : State) (tid hw : Nat) (f : HomeWarp → HomeWarp) : (s.updHw tid hw f).ops = s.ops := rfl
@[simp] theorem State.updHw_copies (s : State) (tid hw : Nat) (f : HomeWarp → HomeWarp) : (s.updHw tid hw f).copies = s.copies := rfl
@[simp] theorem State.updHw_forwards (s : State) (tid hw : Nat) (f : HomeWarp → HomeWarp) : (s.updHw tid hw f).forwards = s.forwards := rfl
@[simp] theorem State.updHw_slots (s : State) (tid hw : Nat) (f : HomeWarp → HomeWarp) : (s.updHw tid hw f).slots = s.slots := rfl
@[simp] theorem State.updHw_glob (s : State) (tid hw : Nat) (f : HomeWarp → HomeWarp) : (s.updHw tid hw f).glob = s.glob := rfl
@[simp] theorem State.updHw_modes (s : State) (tid hw : Nat) (f : HomeWarp → HomeWarp) : (s.updHw tid hw f).modes = s.modes := rfl
@[simp] theorem State.updHw_via (s : State) (tid hw : Nat) (f : HomeWarp → HomeWarp) : (s.updHw tid hw f).via = s.via := rfl
@[simp] theorem State.updHw_rounds (s : State) (tid hw : Nat) (f : HomeWarp → HomeWarp) : (s.updHw tid hw f).rounds = s.rounds := rfl
@[simp] theorem State.updHw_farScopes (s : State) (tid hw : Nat) (f : HomeWarp → HomeWarp) : (s.updHw tid hw f).farScopes = s.farScopes := rfl
@[simp] theorem State.updHw_chips (s : State) (tid hw : Nat) (f : HomeWarp → HomeWarp) : (s.updHw tid hw f).chips = s.chips := rfl
@[simp] theorem State.updHw_ms (s : State) (tid hw : Nat) (f : HomeWarp → HomeWarp) : (s.updHw tid hw f).ms = s.ms := rfl
@[simp] theorem State.updHw_routes (s : State) (tid hw : Nat) (f : HomeWarp → HomeWarp) : (s.updHw tid hw f).routes = s.routes := rfl
@[simp] theorem State.updHw_pkg (s : State) (tid hw : Nat) (f : HomeWarp → HomeWarp) : (s.updHw tid hw f).pkg = s.pkg := rfl
@[simp] theorem State.updHw_hdie (s : State) (tid hw : Nat) (f : HomeWarp → HomeWarp) : (s.updHw tid hw f).hdie = s.hdie := rfl
@[simp] theorem State.updHw_elogBase (s : State) (tid hw : Nat) (f : HomeWarp → HomeWarp) : (s.updHw tid hw f).elogBase = s.elogBase := rfl
@[simp] theorem State.updHw_elogHead (s : State) (tid hw : Nat) (f : HomeWarp → HomeWarp) : (s.updHw tid hw f).elogHead = s.elogHead := rfl
@[simp] theorem State.updHw_elogTail (s : State) (tid hw : Nat) (f : HomeWarp → HomeWarp) : (s.updHw tid hw f).elogTail = s.elogTail := rfl
@[simp] theorem State.updHw_elogLost (s : State) (tid hw : Nat) (f : HomeWarp → HomeWarp) : (s.updHw tid hw f).elogLost = s.elogLost := rfl
@[simp] theorem State.updHw_elogThresh (s : State) (tid hw : Nat) (f : HomeWarp → HomeWarp) : (s.updHw tid hw f).elogThresh = s.elogThresh := rfl
@[simp] theorem State.updHw_elogMsien (s : State) (tid hw : Nat) (f : HomeWarp → HomeWarp) : (s.updHw tid hw f).elogMsien = s.elogMsien := rfl
@[simp] theorem State.updHw_msiTab (s : State) (tid hw : Nat) (f : HomeWarp → HomeWarp) : (s.updHw tid hw f).msiTab = s.msiTab := rfl
@[simp] theorem State.updHw_msiDropped (s : State) (tid hw : Nat) (f : HomeWarp → HomeWarp) : (s.updHw tid hw f).msiDropped = s.msiDropped := rfl
@[simp] theorem State.updHw_sad (s : State) (tid hw : Nat) (f : HomeWarp → HomeWarp) : (s.updHw tid hw f).sad = s.sad := rfl
@[simp] theorem State.updHw_awls (s : State) (tid hw : Nat) (f : HomeWarp → HomeWarp) : (s.updHw tid hw f).awls = s.awls := rfl
@[simp] theorem State.updHw_host (s : State) (tid hw : Nat) (f : HomeWarp → HomeWarp) : (s.updHw tid hw f).host = s.host := rfl
@[simp] theorem State.updHw_sent (s : State) (tid hw : Nat) (f : HomeWarp → HomeWarp) : (s.updHw tid hw f).sent = s.sent := rfl

/-! ## updWarp -/

@[simp] theorem State.updWarp_who (s : State) (tid fid : Nat) (f : Warp → Warp) : (s.updWarp tid fid f).who = s.who := rfl
@[simp] theorem State.updWarp_arg (s : State) (tid fid : Nat) (f : Warp → Warp) : (s.updWarp tid fid f).arg = s.arg := rfl
@[simp] theorem State.updWarp_agenda (s : State) (tid fid : Nat) (f : Warp → Warp) : (s.updWarp tid fid f).agenda = s.agenda := rfl
@[simp] theorem State.updWarp_upset (s : State) (tid fid : Nat) (f : Warp → Warp) : (s.updWarp tid fid f).upset = s.upset := rfl
@[simp] theorem State.updWarp_free (s : State) (tid fid : Nat) (f : Warp → Warp) : (s.updWarp tid fid f).free = s.free := rfl
@[simp] theorem State.updWarp_nextId (s : State) (tid fid : Nat) (f : Warp → Warp) : (s.updWarp tid fid f).nextId = s.nextId := rfl
@[simp] theorem State.updWarp_launches (s : State) (tid fid : Nat) (f : Warp → Warp) : (s.updWarp tid fid f).launches = s.launches := rfl
@[simp] theorem State.updWarp_gangs (s : State) (tid fid : Nat) (f : Warp → Warp) : (s.updWarp tid fid f).gangs = s.gangs := rfl
@[simp] theorem State.updWarp_ctxs (s : State) (tid fid : Nat) (f : Warp → Warp) : (s.updWarp tid fid f).ctxs = s.ctxs := rfl
@[simp] theorem State.updWarp_cores (s : State) (tid fid : Nat) (f : Warp → Warp) : (s.updWarp tid fid f).cores = s.cores := rfl
@[simp] theorem State.updWarp_ops (s : State) (tid fid : Nat) (f : Warp → Warp) : (s.updWarp tid fid f).ops = s.ops := rfl
@[simp] theorem State.updWarp_copies (s : State) (tid fid : Nat) (f : Warp → Warp) : (s.updWarp tid fid f).copies = s.copies := rfl
@[simp] theorem State.updWarp_forwards (s : State) (tid fid : Nat) (f : Warp → Warp) : (s.updWarp tid fid f).forwards = s.forwards := rfl
@[simp] theorem State.updWarp_slots (s : State) (tid fid : Nat) (f : Warp → Warp) : (s.updWarp tid fid f).slots = s.slots := rfl
@[simp] theorem State.updWarp_glob (s : State) (tid fid : Nat) (f : Warp → Warp) : (s.updWarp tid fid f).glob = s.glob := rfl
@[simp] theorem State.updWarp_modes (s : State) (tid fid : Nat) (f : Warp → Warp) : (s.updWarp tid fid f).modes = s.modes := rfl
@[simp] theorem State.updWarp_via (s : State) (tid fid : Nat) (f : Warp → Warp) : (s.updWarp tid fid f).via = s.via := rfl
@[simp] theorem State.updWarp_rounds (s : State) (tid fid : Nat) (f : Warp → Warp) : (s.updWarp tid fid f).rounds = s.rounds := rfl
@[simp] theorem State.updWarp_farScopes (s : State) (tid fid : Nat) (f : Warp → Warp) : (s.updWarp tid fid f).farScopes = s.farScopes := rfl
@[simp] theorem State.updWarp_chips (s : State) (tid fid : Nat) (f : Warp → Warp) : (s.updWarp tid fid f).chips = s.chips := rfl
@[simp] theorem State.updWarp_ms (s : State) (tid fid : Nat) (f : Warp → Warp) : (s.updWarp tid fid f).ms = s.ms := rfl
@[simp] theorem State.updWarp_routes (s : State) (tid fid : Nat) (f : Warp → Warp) : (s.updWarp tid fid f).routes = s.routes := rfl
@[simp] theorem State.updWarp_pkg (s : State) (tid fid : Nat) (f : Warp → Warp) : (s.updWarp tid fid f).pkg = s.pkg := rfl
@[simp] theorem State.updWarp_hdie (s : State) (tid fid : Nat) (f : Warp → Warp) : (s.updWarp tid fid f).hdie = s.hdie := rfl
@[simp] theorem State.updWarp_elogBase (s : State) (tid fid : Nat) (f : Warp → Warp) : (s.updWarp tid fid f).elogBase = s.elogBase := rfl
@[simp] theorem State.updWarp_elogHead (s : State) (tid fid : Nat) (f : Warp → Warp) : (s.updWarp tid fid f).elogHead = s.elogHead := rfl
@[simp] theorem State.updWarp_elogTail (s : State) (tid fid : Nat) (f : Warp → Warp) : (s.updWarp tid fid f).elogTail = s.elogTail := rfl
@[simp] theorem State.updWarp_elogLost (s : State) (tid fid : Nat) (f : Warp → Warp) : (s.updWarp tid fid f).elogLost = s.elogLost := rfl
@[simp] theorem State.updWarp_elogThresh (s : State) (tid fid : Nat) (f : Warp → Warp) : (s.updWarp tid fid f).elogThresh = s.elogThresh := rfl
@[simp] theorem State.updWarp_elogMsien (s : State) (tid fid : Nat) (f : Warp → Warp) : (s.updWarp tid fid f).elogMsien = s.elogMsien := rfl
@[simp] theorem State.updWarp_msiTab (s : State) (tid fid : Nat) (f : Warp → Warp) : (s.updWarp tid fid f).msiTab = s.msiTab := rfl
@[simp] theorem State.updWarp_msiDropped (s : State) (tid fid : Nat) (f : Warp → Warp) : (s.updWarp tid fid f).msiDropped = s.msiDropped := rfl
@[simp] theorem State.updWarp_sad (s : State) (tid fid : Nat) (f : Warp → Warp) : (s.updWarp tid fid f).sad = s.sad := rfl
@[simp] theorem State.updWarp_awls (s : State) (tid fid : Nat) (f : Warp → Warp) : (s.updWarp tid fid f).awls = s.awls := rfl
@[simp] theorem State.updWarp_host (s : State) (tid fid : Nat) (f : Warp → Warp) : (s.updWarp tid fid f).host = s.host := rfl
@[simp] theorem State.updWarp_sent (s : State) (tid fid : Nat) (f : Warp → Warp) : (s.updWarp tid fid f).sent = s.sent := rfl

/-! ## setS -/

@[simp] theorem State.setS_who (s : State) (tid n v : Nat) : (s.setS tid n v).who = s.who := rfl
@[simp] theorem State.setS_arg (s : State) (tid n v : Nat) : (s.setS tid n v).arg = s.arg := rfl
@[simp] theorem State.setS_agenda (s : State) (tid n v : Nat) : (s.setS tid n v).agenda = s.agenda := rfl
@[simp] theorem State.setS_upset (s : State) (tid n v : Nat) : (s.setS tid n v).upset = s.upset := rfl
@[simp] theorem State.setS_free (s : State) (tid n v : Nat) : (s.setS tid n v).free = s.free := rfl
@[simp] theorem State.setS_nextId (s : State) (tid n v : Nat) : (s.setS tid n v).nextId = s.nextId := rfl
@[simp] theorem State.setS_launches (s : State) (tid n v : Nat) : (s.setS tid n v).launches = s.launches := rfl
@[simp] theorem State.setS_gangs (s : State) (tid n v : Nat) : (s.setS tid n v).gangs = s.gangs := rfl
@[simp] theorem State.setS_ctxs (s : State) (tid n v : Nat) : (s.setS tid n v).ctxs = s.ctxs := rfl
@[simp] theorem State.setS_cores (s : State) (tid n v : Nat) : (s.setS tid n v).cores = s.cores := rfl
@[simp] theorem State.setS_ops (s : State) (tid n v : Nat) : (s.setS tid n v).ops = s.ops := rfl
@[simp] theorem State.setS_copies (s : State) (tid n v : Nat) : (s.setS tid n v).copies = s.copies := rfl
@[simp] theorem State.setS_forwards (s : State) (tid n v : Nat) : (s.setS tid n v).forwards = s.forwards := rfl
@[simp] theorem State.setS_slots (s : State) (tid n v : Nat) : (s.setS tid n v).slots = s.slots := rfl
@[simp] theorem State.setS_glob (s : State) (tid n v : Nat) : (s.setS tid n v).glob = s.glob := rfl
@[simp] theorem State.setS_modes (s : State) (tid n v : Nat) : (s.setS tid n v).modes = s.modes := rfl
@[simp] theorem State.setS_via (s : State) (tid n v : Nat) : (s.setS tid n v).via = s.via := rfl
@[simp] theorem State.setS_rounds (s : State) (tid n v : Nat) : (s.setS tid n v).rounds = s.rounds := rfl
@[simp] theorem State.setS_farScopes (s : State) (tid n v : Nat) : (s.setS tid n v).farScopes = s.farScopes := rfl
@[simp] theorem State.setS_chips (s : State) (tid n v : Nat) : (s.setS tid n v).chips = s.chips := rfl
@[simp] theorem State.setS_ms (s : State) (tid n v : Nat) : (s.setS tid n v).ms = s.ms := rfl
@[simp] theorem State.setS_routes (s : State) (tid n v : Nat) : (s.setS tid n v).routes = s.routes := rfl
@[simp] theorem State.setS_pkg (s : State) (tid n v : Nat) : (s.setS tid n v).pkg = s.pkg := rfl
@[simp] theorem State.setS_hdie (s : State) (tid n v : Nat) : (s.setS tid n v).hdie = s.hdie := rfl
@[simp] theorem State.setS_elogBase (s : State) (tid n v : Nat) : (s.setS tid n v).elogBase = s.elogBase := rfl
@[simp] theorem State.setS_elogHead (s : State) (tid n v : Nat) : (s.setS tid n v).elogHead = s.elogHead := rfl
@[simp] theorem State.setS_elogTail (s : State) (tid n v : Nat) : (s.setS tid n v).elogTail = s.elogTail := rfl
@[simp] theorem State.setS_elogLost (s : State) (tid n v : Nat) : (s.setS tid n v).elogLost = s.elogLost := rfl
@[simp] theorem State.setS_elogThresh (s : State) (tid n v : Nat) : (s.setS tid n v).elogThresh = s.elogThresh := rfl
@[simp] theorem State.setS_elogMsien (s : State) (tid n v : Nat) : (s.setS tid n v).elogMsien = s.elogMsien := rfl
@[simp] theorem State.setS_msiTab (s : State) (tid n v : Nat) : (s.setS tid n v).msiTab = s.msiTab := rfl
@[simp] theorem State.setS_msiDropped (s : State) (tid n v : Nat) : (s.setS tid n v).msiDropped = s.msiDropped := rfl
@[simp] theorem State.setS_sad (s : State) (tid n v : Nat) : (s.setS tid n v).sad = s.sad := rfl
@[simp] theorem State.setS_awls (s : State) (tid n v : Nat) : (s.setS tid n v).awls = s.awls := rfl
@[simp] theorem State.setS_host (s : State) (tid n v : Nat) : (s.setS tid n v).host = s.host := rfl
@[simp] theorem State.setS_sent (s : State) (tid n v : Nat) : (s.setS tid n v).sent = s.sent := rfl

/-! ## setV -/

@[simp] theorem State.setV_who (s : State) (tid : Nat) (w : List (Nat × List (Nat × Nat))) : (s.setV tid w).who = s.who := rfl
@[simp] theorem State.setV_arg (s : State) (tid : Nat) (w : List (Nat × List (Nat × Nat))) : (s.setV tid w).arg = s.arg := rfl
@[simp] theorem State.setV_agenda (s : State) (tid : Nat) (w : List (Nat × List (Nat × Nat))) : (s.setV tid w).agenda = s.agenda := rfl
@[simp] theorem State.setV_upset (s : State) (tid : Nat) (w : List (Nat × List (Nat × Nat))) : (s.setV tid w).upset = s.upset := rfl
@[simp] theorem State.setV_free (s : State) (tid : Nat) (w : List (Nat × List (Nat × Nat))) : (s.setV tid w).free = s.free := rfl
@[simp] theorem State.setV_nextId (s : State) (tid : Nat) (w : List (Nat × List (Nat × Nat))) : (s.setV tid w).nextId = s.nextId := rfl
@[simp] theorem State.setV_launches (s : State) (tid : Nat) (w : List (Nat × List (Nat × Nat))) : (s.setV tid w).launches = s.launches := rfl
@[simp] theorem State.setV_gangs (s : State) (tid : Nat) (w : List (Nat × List (Nat × Nat))) : (s.setV tid w).gangs = s.gangs := rfl
@[simp] theorem State.setV_ctxs (s : State) (tid : Nat) (w : List (Nat × List (Nat × Nat))) : (s.setV tid w).ctxs = s.ctxs := rfl
@[simp] theorem State.setV_cores (s : State) (tid : Nat) (w : List (Nat × List (Nat × Nat))) : (s.setV tid w).cores = s.cores := rfl
@[simp] theorem State.setV_ops (s : State) (tid : Nat) (w : List (Nat × List (Nat × Nat))) : (s.setV tid w).ops = s.ops := rfl
@[simp] theorem State.setV_copies (s : State) (tid : Nat) (w : List (Nat × List (Nat × Nat))) : (s.setV tid w).copies = s.copies := rfl
@[simp] theorem State.setV_forwards (s : State) (tid : Nat) (w : List (Nat × List (Nat × Nat))) : (s.setV tid w).forwards = s.forwards := rfl
@[simp] theorem State.setV_slots (s : State) (tid : Nat) (w : List (Nat × List (Nat × Nat))) : (s.setV tid w).slots = s.slots := rfl
@[simp] theorem State.setV_glob (s : State) (tid : Nat) (w : List (Nat × List (Nat × Nat))) : (s.setV tid w).glob = s.glob := rfl
@[simp] theorem State.setV_modes (s : State) (tid : Nat) (w : List (Nat × List (Nat × Nat))) : (s.setV tid w).modes = s.modes := rfl
@[simp] theorem State.setV_via (s : State) (tid : Nat) (w : List (Nat × List (Nat × Nat))) : (s.setV tid w).via = s.via := rfl
@[simp] theorem State.setV_rounds (s : State) (tid : Nat) (w : List (Nat × List (Nat × Nat))) : (s.setV tid w).rounds = s.rounds := rfl
@[simp] theorem State.setV_farScopes (s : State) (tid : Nat) (w : List (Nat × List (Nat × Nat))) : (s.setV tid w).farScopes = s.farScopes := rfl
@[simp] theorem State.setV_chips (s : State) (tid : Nat) (w : List (Nat × List (Nat × Nat))) : (s.setV tid w).chips = s.chips := rfl
@[simp] theorem State.setV_ms (s : State) (tid : Nat) (w : List (Nat × List (Nat × Nat))) : (s.setV tid w).ms = s.ms := rfl
@[simp] theorem State.setV_routes (s : State) (tid : Nat) (w : List (Nat × List (Nat × Nat))) : (s.setV tid w).routes = s.routes := rfl
@[simp] theorem State.setV_pkg (s : State) (tid : Nat) (w : List (Nat × List (Nat × Nat))) : (s.setV tid w).pkg = s.pkg := rfl
@[simp] theorem State.setV_hdie (s : State) (tid : Nat) (w : List (Nat × List (Nat × Nat))) : (s.setV tid w).hdie = s.hdie := rfl
@[simp] theorem State.setV_elogBase (s : State) (tid : Nat) (w : List (Nat × List (Nat × Nat))) : (s.setV tid w).elogBase = s.elogBase := rfl
@[simp] theorem State.setV_elogHead (s : State) (tid : Nat) (w : List (Nat × List (Nat × Nat))) : (s.setV tid w).elogHead = s.elogHead := rfl
@[simp] theorem State.setV_elogTail (s : State) (tid : Nat) (w : List (Nat × List (Nat × Nat))) : (s.setV tid w).elogTail = s.elogTail := rfl
@[simp] theorem State.setV_elogLost (s : State) (tid : Nat) (w : List (Nat × List (Nat × Nat))) : (s.setV tid w).elogLost = s.elogLost := rfl
@[simp] theorem State.setV_elogThresh (s : State) (tid : Nat) (w : List (Nat × List (Nat × Nat))) : (s.setV tid w).elogThresh = s.elogThresh := rfl
@[simp] theorem State.setV_elogMsien (s : State) (tid : Nat) (w : List (Nat × List (Nat × Nat))) : (s.setV tid w).elogMsien = s.elogMsien := rfl
@[simp] theorem State.setV_msiTab (s : State) (tid : Nat) (w : List (Nat × List (Nat × Nat))) : (s.setV tid w).msiTab = s.msiTab := rfl
@[simp] theorem State.setV_msiDropped (s : State) (tid : Nat) (w : List (Nat × List (Nat × Nat))) : (s.setV tid w).msiDropped = s.msiDropped := rfl
@[simp] theorem State.setV_sad (s : State) (tid : Nat) (w : List (Nat × List (Nat × Nat))) : (s.setV tid w).sad = s.sad := rfl
@[simp] theorem State.setV_awls (s : State) (tid : Nat) (w : List (Nat × List (Nat × Nat))) : (s.setV tid w).awls = s.awls := rfl
@[simp] theorem State.setV_host (s : State) (tid : Nat) (w : List (Nat × List (Nat × Nat))) : (s.setV tid w).host = s.host := rfl
@[simp] theorem State.setV_sent (s : State) (tid : Nat) (w : List (Nat × List (Nat × Nat))) : (s.setV tid w).sent = s.sent := rfl

/-! ## setMask -/

@[simp] theorem State.setMask_who (s : State) (tid hw k v : Nat) : (s.setMask tid hw k v).who = s.who := rfl
@[simp] theorem State.setMask_arg (s : State) (tid hw k v : Nat) : (s.setMask tid hw k v).arg = s.arg := rfl
@[simp] theorem State.setMask_agenda (s : State) (tid hw k v : Nat) : (s.setMask tid hw k v).agenda = s.agenda := rfl
@[simp] theorem State.setMask_upset (s : State) (tid hw k v : Nat) : (s.setMask tid hw k v).upset = s.upset := rfl
@[simp] theorem State.setMask_free (s : State) (tid hw k v : Nat) : (s.setMask tid hw k v).free = s.free := rfl
@[simp] theorem State.setMask_nextId (s : State) (tid hw k v : Nat) : (s.setMask tid hw k v).nextId = s.nextId := rfl
@[simp] theorem State.setMask_launches (s : State) (tid hw k v : Nat) : (s.setMask tid hw k v).launches = s.launches := rfl
@[simp] theorem State.setMask_gangs (s : State) (tid hw k v : Nat) : (s.setMask tid hw k v).gangs = s.gangs := rfl
@[simp] theorem State.setMask_ctxs (s : State) (tid hw k v : Nat) : (s.setMask tid hw k v).ctxs = s.ctxs := rfl
@[simp] theorem State.setMask_cores (s : State) (tid hw k v : Nat) : (s.setMask tid hw k v).cores = s.cores := rfl
@[simp] theorem State.setMask_ops (s : State) (tid hw k v : Nat) : (s.setMask tid hw k v).ops = s.ops := rfl
@[simp] theorem State.setMask_copies (s : State) (tid hw k v : Nat) : (s.setMask tid hw k v).copies = s.copies := rfl
@[simp] theorem State.setMask_forwards (s : State) (tid hw k v : Nat) : (s.setMask tid hw k v).forwards = s.forwards := rfl
@[simp] theorem State.setMask_slots (s : State) (tid hw k v : Nat) : (s.setMask tid hw k v).slots = s.slots := rfl
@[simp] theorem State.setMask_glob (s : State) (tid hw k v : Nat) : (s.setMask tid hw k v).glob = s.glob := rfl
@[simp] theorem State.setMask_modes (s : State) (tid hw k v : Nat) : (s.setMask tid hw k v).modes = s.modes := rfl
@[simp] theorem State.setMask_via (s : State) (tid hw k v : Nat) : (s.setMask tid hw k v).via = s.via := rfl
@[simp] theorem State.setMask_rounds (s : State) (tid hw k v : Nat) : (s.setMask tid hw k v).rounds = s.rounds := rfl
@[simp] theorem State.setMask_farScopes (s : State) (tid hw k v : Nat) : (s.setMask tid hw k v).farScopes = s.farScopes := rfl
@[simp] theorem State.setMask_chips (s : State) (tid hw k v : Nat) : (s.setMask tid hw k v).chips = s.chips := rfl
@[simp] theorem State.setMask_ms (s : State) (tid hw k v : Nat) : (s.setMask tid hw k v).ms = s.ms := rfl
@[simp] theorem State.setMask_routes (s : State) (tid hw k v : Nat) : (s.setMask tid hw k v).routes = s.routes := rfl
@[simp] theorem State.setMask_pkg (s : State) (tid hw k v : Nat) : (s.setMask tid hw k v).pkg = s.pkg := rfl
@[simp] theorem State.setMask_hdie (s : State) (tid hw k v : Nat) : (s.setMask tid hw k v).hdie = s.hdie := rfl
@[simp] theorem State.setMask_elogBase (s : State) (tid hw k v : Nat) : (s.setMask tid hw k v).elogBase = s.elogBase := rfl
@[simp] theorem State.setMask_elogHead (s : State) (tid hw k v : Nat) : (s.setMask tid hw k v).elogHead = s.elogHead := rfl
@[simp] theorem State.setMask_elogTail (s : State) (tid hw k v : Nat) : (s.setMask tid hw k v).elogTail = s.elogTail := rfl
@[simp] theorem State.setMask_elogLost (s : State) (tid hw k v : Nat) : (s.setMask tid hw k v).elogLost = s.elogLost := rfl
@[simp] theorem State.setMask_elogThresh (s : State) (tid hw k v : Nat) : (s.setMask tid hw k v).elogThresh = s.elogThresh := rfl
@[simp] theorem State.setMask_elogMsien (s : State) (tid hw k v : Nat) : (s.setMask tid hw k v).elogMsien = s.elogMsien := rfl
@[simp] theorem State.setMask_msiTab (s : State) (tid hw k v : Nat) : (s.setMask tid hw k v).msiTab = s.msiTab := rfl
@[simp] theorem State.setMask_msiDropped (s : State) (tid hw k v : Nat) : (s.setMask tid hw k v).msiDropped = s.msiDropped := rfl
@[simp] theorem State.setMask_sad (s : State) (tid hw k v : Nat) : (s.setMask tid hw k v).sad = s.sad := rfl
@[simp] theorem State.setMask_awls (s : State) (tid hw k v : Nat) : (s.setMask tid hw k v).awls = s.awls := rfl
@[simp] theorem State.setMask_host (s : State) (tid hw k v : Nat) : (s.setMask tid hw k v).host = s.host := rfl
@[simp] theorem State.setMask_sent (s : State) (tid hw k v : Nat) : (s.setMask tid hw k v).sent = s.sent := rfl

/-! ## updLaunch -/

@[simp] theorem State.updLaunch_launches (s : State) (lid : Nat) (f : Launch → Launch) : (s.updLaunch lid f).launches = s.launches.upd lid f := rfl
@[simp] theorem State.updLaunch_who (s : State) (lid : Nat) (f : Launch → Launch) : (s.updLaunch lid f).who = s.who := rfl
@[simp] theorem State.updLaunch_arg (s : State) (lid : Nat) (f : Launch → Launch) : (s.updLaunch lid f).arg = s.arg := rfl
@[simp] theorem State.updLaunch_agenda (s : State) (lid : Nat) (f : Launch → Launch) : (s.updLaunch lid f).agenda = s.agenda := rfl
@[simp] theorem State.updLaunch_upset (s : State) (lid : Nat) (f : Launch → Launch) : (s.updLaunch lid f).upset = s.upset := rfl
@[simp] theorem State.updLaunch_free (s : State) (lid : Nat) (f : Launch → Launch) : (s.updLaunch lid f).free = s.free := rfl
@[simp] theorem State.updLaunch_nextId (s : State) (lid : Nat) (f : Launch → Launch) : (s.updLaunch lid f).nextId = s.nextId := rfl
@[simp] theorem State.updLaunch_teams (s : State) (lid : Nat) (f : Launch → Launch) : (s.updLaunch lid f).teams = s.teams := rfl
@[simp] theorem State.updLaunch_gangs (s : State) (lid : Nat) (f : Launch → Launch) : (s.updLaunch lid f).gangs = s.gangs := rfl
@[simp] theorem State.updLaunch_ctxs (s : State) (lid : Nat) (f : Launch → Launch) : (s.updLaunch lid f).ctxs = s.ctxs := rfl
@[simp] theorem State.updLaunch_cores (s : State) (lid : Nat) (f : Launch → Launch) : (s.updLaunch lid f).cores = s.cores := rfl
@[simp] theorem State.updLaunch_ops (s : State) (lid : Nat) (f : Launch → Launch) : (s.updLaunch lid f).ops = s.ops := rfl
@[simp] theorem State.updLaunch_copies (s : State) (lid : Nat) (f : Launch → Launch) : (s.updLaunch lid f).copies = s.copies := rfl
@[simp] theorem State.updLaunch_forwards (s : State) (lid : Nat) (f : Launch → Launch) : (s.updLaunch lid f).forwards = s.forwards := rfl
@[simp] theorem State.updLaunch_slots (s : State) (lid : Nat) (f : Launch → Launch) : (s.updLaunch lid f).slots = s.slots := rfl
@[simp] theorem State.updLaunch_glob (s : State) (lid : Nat) (f : Launch → Launch) : (s.updLaunch lid f).glob = s.glob := rfl
@[simp] theorem State.updLaunch_modes (s : State) (lid : Nat) (f : Launch → Launch) : (s.updLaunch lid f).modes = s.modes := rfl
@[simp] theorem State.updLaunch_via (s : State) (lid : Nat) (f : Launch → Launch) : (s.updLaunch lid f).via = s.via := rfl
@[simp] theorem State.updLaunch_rounds (s : State) (lid : Nat) (f : Launch → Launch) : (s.updLaunch lid f).rounds = s.rounds := rfl
@[simp] theorem State.updLaunch_farScopes (s : State) (lid : Nat) (f : Launch → Launch) : (s.updLaunch lid f).farScopes = s.farScopes := rfl
@[simp] theorem State.updLaunch_chips (s : State) (lid : Nat) (f : Launch → Launch) : (s.updLaunch lid f).chips = s.chips := rfl
@[simp] theorem State.updLaunch_ms (s : State) (lid : Nat) (f : Launch → Launch) : (s.updLaunch lid f).ms = s.ms := rfl
@[simp] theorem State.updLaunch_routes (s : State) (lid : Nat) (f : Launch → Launch) : (s.updLaunch lid f).routes = s.routes := rfl
@[simp] theorem State.updLaunch_pkg (s : State) (lid : Nat) (f : Launch → Launch) : (s.updLaunch lid f).pkg = s.pkg := rfl
@[simp] theorem State.updLaunch_hdie (s : State) (lid : Nat) (f : Launch → Launch) : (s.updLaunch lid f).hdie = s.hdie := rfl
@[simp] theorem State.updLaunch_elogBase (s : State) (lid : Nat) (f : Launch → Launch) : (s.updLaunch lid f).elogBase = s.elogBase := rfl
@[simp] theorem State.updLaunch_elogHead (s : State) (lid : Nat) (f : Launch → Launch) : (s.updLaunch lid f).elogHead = s.elogHead := rfl
@[simp] theorem State.updLaunch_elogTail (s : State) (lid : Nat) (f : Launch → Launch) : (s.updLaunch lid f).elogTail = s.elogTail := rfl
@[simp] theorem State.updLaunch_elogLost (s : State) (lid : Nat) (f : Launch → Launch) : (s.updLaunch lid f).elogLost = s.elogLost := rfl
@[simp] theorem State.updLaunch_elogThresh (s : State) (lid : Nat) (f : Launch → Launch) : (s.updLaunch lid f).elogThresh = s.elogThresh := rfl
@[simp] theorem State.updLaunch_elogMsien (s : State) (lid : Nat) (f : Launch → Launch) : (s.updLaunch lid f).elogMsien = s.elogMsien := rfl
@[simp] theorem State.updLaunch_msiTab (s : State) (lid : Nat) (f : Launch → Launch) : (s.updLaunch lid f).msiTab = s.msiTab := rfl
@[simp] theorem State.updLaunch_msiDropped (s : State) (lid : Nat) (f : Launch → Launch) : (s.updLaunch lid f).msiDropped = s.msiDropped := rfl
@[simp] theorem State.updLaunch_sad (s : State) (lid : Nat) (f : Launch → Launch) : (s.updLaunch lid f).sad = s.sad := rfl
@[simp] theorem State.updLaunch_awls (s : State) (lid : Nat) (f : Launch → Launch) : (s.updLaunch lid f).awls = s.awls := rfl
@[simp] theorem State.updLaunch_host (s : State) (lid : Nat) (f : Launch → Launch) : (s.updLaunch lid f).host = s.host := rfl
@[simp] theorem State.updLaunch_sent (s : State) (lid : Nat) (f : Launch → Launch) : (s.updLaunch lid f).sent = s.sent := rfl

/-! ## updCtx -/

@[simp] theorem State.updCtx_ctxs (s : State) (c : Nat) (f : Ctx → Ctx) : (s.updCtx c f).ctxs = s.ctxs.put c (f (s.ctx c)) := rfl
@[simp] theorem State.updCtx_who (s : State) (c : Nat) (f : Ctx → Ctx) : (s.updCtx c f).who = s.who := rfl
@[simp] theorem State.updCtx_arg (s : State) (c : Nat) (f : Ctx → Ctx) : (s.updCtx c f).arg = s.arg := rfl
@[simp] theorem State.updCtx_agenda (s : State) (c : Nat) (f : Ctx → Ctx) : (s.updCtx c f).agenda = s.agenda := rfl
@[simp] theorem State.updCtx_upset (s : State) (c : Nat) (f : Ctx → Ctx) : (s.updCtx c f).upset = s.upset := rfl
@[simp] theorem State.updCtx_free (s : State) (c : Nat) (f : Ctx → Ctx) : (s.updCtx c f).free = s.free := rfl
@[simp] theorem State.updCtx_nextId (s : State) (c : Nat) (f : Ctx → Ctx) : (s.updCtx c f).nextId = s.nextId := rfl
@[simp] theorem State.updCtx_teams (s : State) (c : Nat) (f : Ctx → Ctx) : (s.updCtx c f).teams = s.teams := rfl
@[simp] theorem State.updCtx_launches (s : State) (c : Nat) (f : Ctx → Ctx) : (s.updCtx c f).launches = s.launches := rfl
@[simp] theorem State.updCtx_gangs (s : State) (c : Nat) (f : Ctx → Ctx) : (s.updCtx c f).gangs = s.gangs := rfl
@[simp] theorem State.updCtx_cores (s : State) (c : Nat) (f : Ctx → Ctx) : (s.updCtx c f).cores = s.cores := rfl
@[simp] theorem State.updCtx_ops (s : State) (c : Nat) (f : Ctx → Ctx) : (s.updCtx c f).ops = s.ops := rfl
@[simp] theorem State.updCtx_copies (s : State) (c : Nat) (f : Ctx → Ctx) : (s.updCtx c f).copies = s.copies := rfl
@[simp] theorem State.updCtx_forwards (s : State) (c : Nat) (f : Ctx → Ctx) : (s.updCtx c f).forwards = s.forwards := rfl
@[simp] theorem State.updCtx_slots (s : State) (c : Nat) (f : Ctx → Ctx) : (s.updCtx c f).slots = s.slots := rfl
@[simp] theorem State.updCtx_glob (s : State) (c : Nat) (f : Ctx → Ctx) : (s.updCtx c f).glob = s.glob := rfl
@[simp] theorem State.updCtx_modes (s : State) (c : Nat) (f : Ctx → Ctx) : (s.updCtx c f).modes = s.modes := rfl
@[simp] theorem State.updCtx_via (s : State) (c : Nat) (f : Ctx → Ctx) : (s.updCtx c f).via = s.via := rfl
@[simp] theorem State.updCtx_rounds (s : State) (c : Nat) (f : Ctx → Ctx) : (s.updCtx c f).rounds = s.rounds := rfl
@[simp] theorem State.updCtx_farScopes (s : State) (c : Nat) (f : Ctx → Ctx) : (s.updCtx c f).farScopes = s.farScopes := rfl
@[simp] theorem State.updCtx_chips (s : State) (c : Nat) (f : Ctx → Ctx) : (s.updCtx c f).chips = s.chips := rfl
@[simp] theorem State.updCtx_ms (s : State) (c : Nat) (f : Ctx → Ctx) : (s.updCtx c f).ms = s.ms := rfl
@[simp] theorem State.updCtx_routes (s : State) (c : Nat) (f : Ctx → Ctx) : (s.updCtx c f).routes = s.routes := rfl
@[simp] theorem State.updCtx_pkg (s : State) (c : Nat) (f : Ctx → Ctx) : (s.updCtx c f).pkg = s.pkg := rfl
@[simp] theorem State.updCtx_hdie (s : State) (c : Nat) (f : Ctx → Ctx) : (s.updCtx c f).hdie = s.hdie := rfl
@[simp] theorem State.updCtx_elogBase (s : State) (c : Nat) (f : Ctx → Ctx) : (s.updCtx c f).elogBase = s.elogBase := rfl
@[simp] theorem State.updCtx_elogHead (s : State) (c : Nat) (f : Ctx → Ctx) : (s.updCtx c f).elogHead = s.elogHead := rfl
@[simp] theorem State.updCtx_elogTail (s : State) (c : Nat) (f : Ctx → Ctx) : (s.updCtx c f).elogTail = s.elogTail := rfl
@[simp] theorem State.updCtx_elogLost (s : State) (c : Nat) (f : Ctx → Ctx) : (s.updCtx c f).elogLost = s.elogLost := rfl
@[simp] theorem State.updCtx_elogThresh (s : State) (c : Nat) (f : Ctx → Ctx) : (s.updCtx c f).elogThresh = s.elogThresh := rfl
@[simp] theorem State.updCtx_elogMsien (s : State) (c : Nat) (f : Ctx → Ctx) : (s.updCtx c f).elogMsien = s.elogMsien := rfl
@[simp] theorem State.updCtx_msiTab (s : State) (c : Nat) (f : Ctx → Ctx) : (s.updCtx c f).msiTab = s.msiTab := rfl
@[simp] theorem State.updCtx_msiDropped (s : State) (c : Nat) (f : Ctx → Ctx) : (s.updCtx c f).msiDropped = s.msiDropped := rfl
@[simp] theorem State.updCtx_sad (s : State) (c : Nat) (f : Ctx → Ctx) : (s.updCtx c f).sad = s.sad := rfl
@[simp] theorem State.updCtx_awls (s : State) (c : Nat) (f : Ctx → Ctx) : (s.updCtx c f).awls = s.awls := rfl
@[simp] theorem State.updCtx_host (s : State) (c : Nat) (f : Ctx → Ctx) : (s.updCtx c f).host = s.host := rfl
@[simp] theorem State.updCtx_sent (s : State) (c : Nat) (f : Ctx → Ctx) : (s.updCtx c f).sent = s.sent := rfl

/-! ## updCore -/

@[simp] theorem State.updCore_cores (s : State) (c : Nat) (f : Core → Core) : (s.updCore c f).cores = s.cores.put c (f (s.core c)) := rfl
@[simp] theorem State.updCore_who (s : State) (c : Nat) (f : Core → Core) : (s.updCore c f).who = s.who := rfl
@[simp] theorem State.updCore_arg (s : State) (c : Nat) (f : Core → Core) : (s.updCore c f).arg = s.arg := rfl
@[simp] theorem State.updCore_agenda (s : State) (c : Nat) (f : Core → Core) : (s.updCore c f).agenda = s.agenda := rfl
@[simp] theorem State.updCore_upset (s : State) (c : Nat) (f : Core → Core) : (s.updCore c f).upset = s.upset := rfl
@[simp] theorem State.updCore_free (s : State) (c : Nat) (f : Core → Core) : (s.updCore c f).free = s.free := rfl
@[simp] theorem State.updCore_nextId (s : State) (c : Nat) (f : Core → Core) : (s.updCore c f).nextId = s.nextId := rfl
@[simp] theorem State.updCore_teams (s : State) (c : Nat) (f : Core → Core) : (s.updCore c f).teams = s.teams := rfl
@[simp] theorem State.updCore_launches (s : State) (c : Nat) (f : Core → Core) : (s.updCore c f).launches = s.launches := rfl
@[simp] theorem State.updCore_gangs (s : State) (c : Nat) (f : Core → Core) : (s.updCore c f).gangs = s.gangs := rfl
@[simp] theorem State.updCore_ctxs (s : State) (c : Nat) (f : Core → Core) : (s.updCore c f).ctxs = s.ctxs := rfl
@[simp] theorem State.updCore_ops (s : State) (c : Nat) (f : Core → Core) : (s.updCore c f).ops = s.ops := rfl
@[simp] theorem State.updCore_copies (s : State) (c : Nat) (f : Core → Core) : (s.updCore c f).copies = s.copies := rfl
@[simp] theorem State.updCore_forwards (s : State) (c : Nat) (f : Core → Core) : (s.updCore c f).forwards = s.forwards := rfl
@[simp] theorem State.updCore_slots (s : State) (c : Nat) (f : Core → Core) : (s.updCore c f).slots = s.slots := rfl
@[simp] theorem State.updCore_glob (s : State) (c : Nat) (f : Core → Core) : (s.updCore c f).glob = s.glob := rfl
@[simp] theorem State.updCore_modes (s : State) (c : Nat) (f : Core → Core) : (s.updCore c f).modes = s.modes := rfl
@[simp] theorem State.updCore_via (s : State) (c : Nat) (f : Core → Core) : (s.updCore c f).via = s.via := rfl
@[simp] theorem State.updCore_rounds (s : State) (c : Nat) (f : Core → Core) : (s.updCore c f).rounds = s.rounds := rfl
@[simp] theorem State.updCore_farScopes (s : State) (c : Nat) (f : Core → Core) : (s.updCore c f).farScopes = s.farScopes := rfl
@[simp] theorem State.updCore_chips (s : State) (c : Nat) (f : Core → Core) : (s.updCore c f).chips = s.chips := rfl
@[simp] theorem State.updCore_ms (s : State) (c : Nat) (f : Core → Core) : (s.updCore c f).ms = s.ms := rfl
@[simp] theorem State.updCore_routes (s : State) (c : Nat) (f : Core → Core) : (s.updCore c f).routes = s.routes := rfl
@[simp] theorem State.updCore_pkg (s : State) (c : Nat) (f : Core → Core) : (s.updCore c f).pkg = s.pkg := rfl
@[simp] theorem State.updCore_hdie (s : State) (c : Nat) (f : Core → Core) : (s.updCore c f).hdie = s.hdie := rfl
@[simp] theorem State.updCore_elogBase (s : State) (c : Nat) (f : Core → Core) : (s.updCore c f).elogBase = s.elogBase := rfl
@[simp] theorem State.updCore_elogHead (s : State) (c : Nat) (f : Core → Core) : (s.updCore c f).elogHead = s.elogHead := rfl
@[simp] theorem State.updCore_elogTail (s : State) (c : Nat) (f : Core → Core) : (s.updCore c f).elogTail = s.elogTail := rfl
@[simp] theorem State.updCore_elogLost (s : State) (c : Nat) (f : Core → Core) : (s.updCore c f).elogLost = s.elogLost := rfl
@[simp] theorem State.updCore_elogThresh (s : State) (c : Nat) (f : Core → Core) : (s.updCore c f).elogThresh = s.elogThresh := rfl
@[simp] theorem State.updCore_elogMsien (s : State) (c : Nat) (f : Core → Core) : (s.updCore c f).elogMsien = s.elogMsien := rfl
@[simp] theorem State.updCore_msiTab (s : State) (c : Nat) (f : Core → Core) : (s.updCore c f).msiTab = s.msiTab := rfl
@[simp] theorem State.updCore_msiDropped (s : State) (c : Nat) (f : Core → Core) : (s.updCore c f).msiDropped = s.msiDropped := rfl
@[simp] theorem State.updCore_sad (s : State) (c : Nat) (f : Core → Core) : (s.updCore c f).sad = s.sad := rfl
@[simp] theorem State.updCore_awls (s : State) (c : Nat) (f : Core → Core) : (s.updCore c f).awls = s.awls := rfl
@[simp] theorem State.updCore_host (s : State) (c : Nat) (f : Core → Core) : (s.updCore c f).host = s.host := rfl
@[simp] theorem State.updCore_sent (s : State) (c : Nat) (f : Core → Core) : (s.updCore c f).sent = s.sent := rfl

/-! ## updOp -/

@[simp] theorem State.updOp_ops (s : State) (id : Nat) (f : Op → Op) : (s.updOp id f).ops = s.ops.upd id f := rfl
@[simp] theorem State.updOp_who (s : State) (id : Nat) (f : Op → Op) : (s.updOp id f).who = s.who := rfl
@[simp] theorem State.updOp_arg (s : State) (id : Nat) (f : Op → Op) : (s.updOp id f).arg = s.arg := rfl
@[simp] theorem State.updOp_agenda (s : State) (id : Nat) (f : Op → Op) : (s.updOp id f).agenda = s.agenda := rfl
@[simp] theorem State.updOp_upset (s : State) (id : Nat) (f : Op → Op) : (s.updOp id f).upset = s.upset := rfl
@[simp] theorem State.updOp_free (s : State) (id : Nat) (f : Op → Op) : (s.updOp id f).free = s.free := rfl
@[simp] theorem State.updOp_nextId (s : State) (id : Nat) (f : Op → Op) : (s.updOp id f).nextId = s.nextId := rfl
@[simp] theorem State.updOp_teams (s : State) (id : Nat) (f : Op → Op) : (s.updOp id f).teams = s.teams := rfl
@[simp] theorem State.updOp_launches (s : State) (id : Nat) (f : Op → Op) : (s.updOp id f).launches = s.launches := rfl
@[simp] theorem State.updOp_gangs (s : State) (id : Nat) (f : Op → Op) : (s.updOp id f).gangs = s.gangs := rfl
@[simp] theorem State.updOp_ctxs (s : State) (id : Nat) (f : Op → Op) : (s.updOp id f).ctxs = s.ctxs := rfl
@[simp] theorem State.updOp_cores (s : State) (id : Nat) (f : Op → Op) : (s.updOp id f).cores = s.cores := rfl
@[simp] theorem State.updOp_copies (s : State) (id : Nat) (f : Op → Op) : (s.updOp id f).copies = s.copies := rfl
@[simp] theorem State.updOp_forwards (s : State) (id : Nat) (f : Op → Op) : (s.updOp id f).forwards = s.forwards := rfl
@[simp] theorem State.updOp_slots (s : State) (id : Nat) (f : Op → Op) : (s.updOp id f).slots = s.slots := rfl
@[simp] theorem State.updOp_glob (s : State) (id : Nat) (f : Op → Op) : (s.updOp id f).glob = s.glob := rfl
@[simp] theorem State.updOp_modes (s : State) (id : Nat) (f : Op → Op) : (s.updOp id f).modes = s.modes := rfl
@[simp] theorem State.updOp_via (s : State) (id : Nat) (f : Op → Op) : (s.updOp id f).via = s.via := rfl
@[simp] theorem State.updOp_rounds (s : State) (id : Nat) (f : Op → Op) : (s.updOp id f).rounds = s.rounds := rfl
@[simp] theorem State.updOp_farScopes (s : State) (id : Nat) (f : Op → Op) : (s.updOp id f).farScopes = s.farScopes := rfl
@[simp] theorem State.updOp_chips (s : State) (id : Nat) (f : Op → Op) : (s.updOp id f).chips = s.chips := rfl
@[simp] theorem State.updOp_ms (s : State) (id : Nat) (f : Op → Op) : (s.updOp id f).ms = s.ms := rfl
@[simp] theorem State.updOp_routes (s : State) (id : Nat) (f : Op → Op) : (s.updOp id f).routes = s.routes := rfl
@[simp] theorem State.updOp_pkg (s : State) (id : Nat) (f : Op → Op) : (s.updOp id f).pkg = s.pkg := rfl
@[simp] theorem State.updOp_hdie (s : State) (id : Nat) (f : Op → Op) : (s.updOp id f).hdie = s.hdie := rfl
@[simp] theorem State.updOp_elogBase (s : State) (id : Nat) (f : Op → Op) : (s.updOp id f).elogBase = s.elogBase := rfl
@[simp] theorem State.updOp_elogHead (s : State) (id : Nat) (f : Op → Op) : (s.updOp id f).elogHead = s.elogHead := rfl
@[simp] theorem State.updOp_elogTail (s : State) (id : Nat) (f : Op → Op) : (s.updOp id f).elogTail = s.elogTail := rfl
@[simp] theorem State.updOp_elogLost (s : State) (id : Nat) (f : Op → Op) : (s.updOp id f).elogLost = s.elogLost := rfl
@[simp] theorem State.updOp_elogThresh (s : State) (id : Nat) (f : Op → Op) : (s.updOp id f).elogThresh = s.elogThresh := rfl
@[simp] theorem State.updOp_elogMsien (s : State) (id : Nat) (f : Op → Op) : (s.updOp id f).elogMsien = s.elogMsien := rfl
@[simp] theorem State.updOp_msiTab (s : State) (id : Nat) (f : Op → Op) : (s.updOp id f).msiTab = s.msiTab := rfl
@[simp] theorem State.updOp_msiDropped (s : State) (id : Nat) (f : Op → Op) : (s.updOp id f).msiDropped = s.msiDropped := rfl
@[simp] theorem State.updOp_sad (s : State) (id : Nat) (f : Op → Op) : (s.updOp id f).sad = s.sad := rfl
@[simp] theorem State.updOp_awls (s : State) (id : Nat) (f : Op → Op) : (s.updOp id f).awls = s.awls := rfl
@[simp] theorem State.updOp_host (s : State) (id : Nat) (f : Op → Op) : (s.updOp id f).host = s.host := rfl
@[simp] theorem State.updOp_sent (s : State) (id : Nat) (f : Op → Op) : (s.updOp id f).sent = s.sent := rfl

/-! ## updAcc -/

@[simp] theorem State.updAcc_who (s : State) (id lane : Nat) (f : Acc → Acc) : (s.updAcc id lane f).who = s.who := rfl
@[simp] theorem State.updAcc_arg (s : State) (id lane : Nat) (f : Acc → Acc) : (s.updAcc id lane f).arg = s.arg := rfl
@[simp] theorem State.updAcc_agenda (s : State) (id lane : Nat) (f : Acc → Acc) : (s.updAcc id lane f).agenda = s.agenda := rfl
@[simp] theorem State.updAcc_upset (s : State) (id lane : Nat) (f : Acc → Acc) : (s.updAcc id lane f).upset = s.upset := rfl
@[simp] theorem State.updAcc_free (s : State) (id lane : Nat) (f : Acc → Acc) : (s.updAcc id lane f).free = s.free := rfl
@[simp] theorem State.updAcc_nextId (s : State) (id lane : Nat) (f : Acc → Acc) : (s.updAcc id lane f).nextId = s.nextId := rfl
@[simp] theorem State.updAcc_teams (s : State) (id lane : Nat) (f : Acc → Acc) : (s.updAcc id lane f).teams = s.teams := rfl
@[simp] theorem State.updAcc_launches (s : State) (id lane : Nat) (f : Acc → Acc) : (s.updAcc id lane f).launches = s.launches := rfl
@[simp] theorem State.updAcc_gangs (s : State) (id lane : Nat) (f : Acc → Acc) : (s.updAcc id lane f).gangs = s.gangs := rfl
@[simp] theorem State.updAcc_ctxs (s : State) (id lane : Nat) (f : Acc → Acc) : (s.updAcc id lane f).ctxs = s.ctxs := rfl
@[simp] theorem State.updAcc_cores (s : State) (id lane : Nat) (f : Acc → Acc) : (s.updAcc id lane f).cores = s.cores := rfl
@[simp] theorem State.updAcc_copies (s : State) (id lane : Nat) (f : Acc → Acc) : (s.updAcc id lane f).copies = s.copies := rfl
@[simp] theorem State.updAcc_forwards (s : State) (id lane : Nat) (f : Acc → Acc) : (s.updAcc id lane f).forwards = s.forwards := rfl
@[simp] theorem State.updAcc_slots (s : State) (id lane : Nat) (f : Acc → Acc) : (s.updAcc id lane f).slots = s.slots := rfl
@[simp] theorem State.updAcc_glob (s : State) (id lane : Nat) (f : Acc → Acc) : (s.updAcc id lane f).glob = s.glob := rfl
@[simp] theorem State.updAcc_modes (s : State) (id lane : Nat) (f : Acc → Acc) : (s.updAcc id lane f).modes = s.modes := rfl
@[simp] theorem State.updAcc_via (s : State) (id lane : Nat) (f : Acc → Acc) : (s.updAcc id lane f).via = s.via := rfl
@[simp] theorem State.updAcc_rounds (s : State) (id lane : Nat) (f : Acc → Acc) : (s.updAcc id lane f).rounds = s.rounds := rfl
@[simp] theorem State.updAcc_farScopes (s : State) (id lane : Nat) (f : Acc → Acc) : (s.updAcc id lane f).farScopes = s.farScopes := rfl
@[simp] theorem State.updAcc_chips (s : State) (id lane : Nat) (f : Acc → Acc) : (s.updAcc id lane f).chips = s.chips := rfl
@[simp] theorem State.updAcc_ms (s : State) (id lane : Nat) (f : Acc → Acc) : (s.updAcc id lane f).ms = s.ms := rfl
@[simp] theorem State.updAcc_routes (s : State) (id lane : Nat) (f : Acc → Acc) : (s.updAcc id lane f).routes = s.routes := rfl
@[simp] theorem State.updAcc_pkg (s : State) (id lane : Nat) (f : Acc → Acc) : (s.updAcc id lane f).pkg = s.pkg := rfl
@[simp] theorem State.updAcc_hdie (s : State) (id lane : Nat) (f : Acc → Acc) : (s.updAcc id lane f).hdie = s.hdie := rfl
@[simp] theorem State.updAcc_elogBase (s : State) (id lane : Nat) (f : Acc → Acc) : (s.updAcc id lane f).elogBase = s.elogBase := rfl
@[simp] theorem State.updAcc_elogHead (s : State) (id lane : Nat) (f : Acc → Acc) : (s.updAcc id lane f).elogHead = s.elogHead := rfl
@[simp] theorem State.updAcc_elogTail (s : State) (id lane : Nat) (f : Acc → Acc) : (s.updAcc id lane f).elogTail = s.elogTail := rfl
@[simp] theorem State.updAcc_elogLost (s : State) (id lane : Nat) (f : Acc → Acc) : (s.updAcc id lane f).elogLost = s.elogLost := rfl
@[simp] theorem State.updAcc_elogThresh (s : State) (id lane : Nat) (f : Acc → Acc) : (s.updAcc id lane f).elogThresh = s.elogThresh := rfl
@[simp] theorem State.updAcc_elogMsien (s : State) (id lane : Nat) (f : Acc → Acc) : (s.updAcc id lane f).elogMsien = s.elogMsien := rfl
@[simp] theorem State.updAcc_msiTab (s : State) (id lane : Nat) (f : Acc → Acc) : (s.updAcc id lane f).msiTab = s.msiTab := rfl
@[simp] theorem State.updAcc_msiDropped (s : State) (id lane : Nat) (f : Acc → Acc) : (s.updAcc id lane f).msiDropped = s.msiDropped := rfl
@[simp] theorem State.updAcc_sad (s : State) (id lane : Nat) (f : Acc → Acc) : (s.updAcc id lane f).sad = s.sad := rfl
@[simp] theorem State.updAcc_awls (s : State) (id lane : Nat) (f : Acc → Acc) : (s.updAcc id lane f).awls = s.awls := rfl
@[simp] theorem State.updAcc_host (s : State) (id lane : Nat) (f : Acc → Acc) : (s.updAcc id lane f).host = s.host := rfl
@[simp] theorem State.updAcc_sent (s : State) (id lane : Nat) (f : Acc → Acc) : (s.updAcc id lane f).sent = s.sent := rfl

/-! ## updMs -/

@[simp] theorem State.updMs_ms (s : State) (f : MemSide → MemSide) : (s.updMs f).ms = f s.ms := rfl
@[simp] theorem State.updMs_who (s : State) (f : MemSide → MemSide) : (s.updMs f).who = s.who := rfl
@[simp] theorem State.updMs_arg (s : State) (f : MemSide → MemSide) : (s.updMs f).arg = s.arg := rfl
@[simp] theorem State.updMs_agenda (s : State) (f : MemSide → MemSide) : (s.updMs f).agenda = s.agenda := rfl
@[simp] theorem State.updMs_upset (s : State) (f : MemSide → MemSide) : (s.updMs f).upset = s.upset := rfl
@[simp] theorem State.updMs_free (s : State) (f : MemSide → MemSide) : (s.updMs f).free = s.free := rfl
@[simp] theorem State.updMs_nextId (s : State) (f : MemSide → MemSide) : (s.updMs f).nextId = s.nextId := rfl
@[simp] theorem State.updMs_teams (s : State) (f : MemSide → MemSide) : (s.updMs f).teams = s.teams := rfl
@[simp] theorem State.updMs_launches (s : State) (f : MemSide → MemSide) : (s.updMs f).launches = s.launches := rfl
@[simp] theorem State.updMs_gangs (s : State) (f : MemSide → MemSide) : (s.updMs f).gangs = s.gangs := rfl
@[simp] theorem State.updMs_ctxs (s : State) (f : MemSide → MemSide) : (s.updMs f).ctxs = s.ctxs := rfl
@[simp] theorem State.updMs_cores (s : State) (f : MemSide → MemSide) : (s.updMs f).cores = s.cores := rfl
@[simp] theorem State.updMs_ops (s : State) (f : MemSide → MemSide) : (s.updMs f).ops = s.ops := rfl
@[simp] theorem State.updMs_copies (s : State) (f : MemSide → MemSide) : (s.updMs f).copies = s.copies := rfl
@[simp] theorem State.updMs_forwards (s : State) (f : MemSide → MemSide) : (s.updMs f).forwards = s.forwards := rfl
@[simp] theorem State.updMs_slots (s : State) (f : MemSide → MemSide) : (s.updMs f).slots = s.slots := rfl
@[simp] theorem State.updMs_glob (s : State) (f : MemSide → MemSide) : (s.updMs f).glob = s.glob := rfl
@[simp] theorem State.updMs_modes (s : State) (f : MemSide → MemSide) : (s.updMs f).modes = s.modes := rfl
@[simp] theorem State.updMs_via (s : State) (f : MemSide → MemSide) : (s.updMs f).via = s.via := rfl
@[simp] theorem State.updMs_rounds (s : State) (f : MemSide → MemSide) : (s.updMs f).rounds = s.rounds := rfl
@[simp] theorem State.updMs_farScopes (s : State) (f : MemSide → MemSide) : (s.updMs f).farScopes = s.farScopes := rfl
@[simp] theorem State.updMs_chips (s : State) (f : MemSide → MemSide) : (s.updMs f).chips = s.chips := rfl
@[simp] theorem State.updMs_routes (s : State) (f : MemSide → MemSide) : (s.updMs f).routes = s.routes := rfl
@[simp] theorem State.updMs_pkg (s : State) (f : MemSide → MemSide) : (s.updMs f).pkg = s.pkg := rfl
@[simp] theorem State.updMs_hdie (s : State) (f : MemSide → MemSide) : (s.updMs f).hdie = s.hdie := rfl
@[simp] theorem State.updMs_elogBase (s : State) (f : MemSide → MemSide) : (s.updMs f).elogBase = s.elogBase := rfl
@[simp] theorem State.updMs_elogHead (s : State) (f : MemSide → MemSide) : (s.updMs f).elogHead = s.elogHead := rfl
@[simp] theorem State.updMs_elogTail (s : State) (f : MemSide → MemSide) : (s.updMs f).elogTail = s.elogTail := rfl
@[simp] theorem State.updMs_elogLost (s : State) (f : MemSide → MemSide) : (s.updMs f).elogLost = s.elogLost := rfl
@[simp] theorem State.updMs_elogThresh (s : State) (f : MemSide → MemSide) : (s.updMs f).elogThresh = s.elogThresh := rfl
@[simp] theorem State.updMs_elogMsien (s : State) (f : MemSide → MemSide) : (s.updMs f).elogMsien = s.elogMsien := rfl
@[simp] theorem State.updMs_msiTab (s : State) (f : MemSide → MemSide) : (s.updMs f).msiTab = s.msiTab := rfl
@[simp] theorem State.updMs_msiDropped (s : State) (f : MemSide → MemSide) : (s.updMs f).msiDropped = s.msiDropped := rfl
@[simp] theorem State.updMs_sad (s : State) (f : MemSide → MemSide) : (s.updMs f).sad = s.sad := rfl
@[simp] theorem State.updMs_awls (s : State) (f : MemSide → MemSide) : (s.updMs f).awls = s.awls := rfl
@[simp] theorem State.updMs_host (s : State) (f : MemSide → MemSide) : (s.updMs f).host = s.host := rfl
@[simp] theorem State.updMs_sent (s : State) (f : MemSide → MemSide) : (s.updMs f).sent = s.sent := rfl

/-! ## soon -/

@[simp] theorem State.soon_agenda (s : State) (l : List Turn) : (s.soon l).agenda = l ++ s.agenda := rfl
@[simp] theorem State.soon_who (s : State) (l : List Turn) : (s.soon l).who = s.who := rfl
@[simp] theorem State.soon_arg (s : State) (l : List Turn) : (s.soon l).arg = s.arg := rfl
@[simp] theorem State.soon_upset (s : State) (l : List Turn) : (s.soon l).upset = s.upset := rfl
@[simp] theorem State.soon_free (s : State) (l : List Turn) : (s.soon l).free = s.free := rfl
@[simp] theorem State.soon_nextId (s : State) (l : List Turn) : (s.soon l).nextId = s.nextId := rfl
@[simp] theorem State.soon_teams (s : State) (l : List Turn) : (s.soon l).teams = s.teams := rfl
@[simp] theorem State.soon_launches (s : State) (l : List Turn) : (s.soon l).launches = s.launches := rfl
@[simp] theorem State.soon_gangs (s : State) (l : List Turn) : (s.soon l).gangs = s.gangs := rfl
@[simp] theorem State.soon_ctxs (s : State) (l : List Turn) : (s.soon l).ctxs = s.ctxs := rfl
@[simp] theorem State.soon_cores (s : State) (l : List Turn) : (s.soon l).cores = s.cores := rfl
@[simp] theorem State.soon_ops (s : State) (l : List Turn) : (s.soon l).ops = s.ops := rfl
@[simp] theorem State.soon_copies (s : State) (l : List Turn) : (s.soon l).copies = s.copies := rfl
@[simp] theorem State.soon_forwards (s : State) (l : List Turn) : (s.soon l).forwards = s.forwards := rfl
@[simp] theorem State.soon_slots (s : State) (l : List Turn) : (s.soon l).slots = s.slots := rfl
@[simp] theorem State.soon_glob (s : State) (l : List Turn) : (s.soon l).glob = s.glob := rfl
@[simp] theorem State.soon_modes (s : State) (l : List Turn) : (s.soon l).modes = s.modes := rfl
@[simp] theorem State.soon_via (s : State) (l : List Turn) : (s.soon l).via = s.via := rfl
@[simp] theorem State.soon_rounds (s : State) (l : List Turn) : (s.soon l).rounds = s.rounds := rfl
@[simp] theorem State.soon_farScopes (s : State) (l : List Turn) : (s.soon l).farScopes = s.farScopes := rfl
@[simp] theorem State.soon_chips (s : State) (l : List Turn) : (s.soon l).chips = s.chips := rfl
@[simp] theorem State.soon_ms (s : State) (l : List Turn) : (s.soon l).ms = s.ms := rfl
@[simp] theorem State.soon_routes (s : State) (l : List Turn) : (s.soon l).routes = s.routes := rfl
@[simp] theorem State.soon_pkg (s : State) (l : List Turn) : (s.soon l).pkg = s.pkg := rfl
@[simp] theorem State.soon_hdie (s : State) (l : List Turn) : (s.soon l).hdie = s.hdie := rfl
@[simp] theorem State.soon_elogBase (s : State) (l : List Turn) : (s.soon l).elogBase = s.elogBase := rfl
@[simp] theorem State.soon_elogHead (s : State) (l : List Turn) : (s.soon l).elogHead = s.elogHead := rfl
@[simp] theorem State.soon_elogTail (s : State) (l : List Turn) : (s.soon l).elogTail = s.elogTail := rfl
@[simp] theorem State.soon_elogLost (s : State) (l : List Turn) : (s.soon l).elogLost = s.elogLost := rfl
@[simp] theorem State.soon_elogThresh (s : State) (l : List Turn) : (s.soon l).elogThresh = s.elogThresh := rfl
@[simp] theorem State.soon_elogMsien (s : State) (l : List Turn) : (s.soon l).elogMsien = s.elogMsien := rfl
@[simp] theorem State.soon_msiTab (s : State) (l : List Turn) : (s.soon l).msiTab = s.msiTab := rfl
@[simp] theorem State.soon_msiDropped (s : State) (l : List Turn) : (s.soon l).msiDropped = s.msiDropped := rfl
@[simp] theorem State.soon_sad (s : State) (l : List Turn) : (s.soon l).sad = s.sad := rfl
@[simp] theorem State.soon_awls (s : State) (l : List Turn) : (s.soon l).awls = s.awls := rfl
@[simp] theorem State.soon_host (s : State) (l : List Turn) : (s.soon l).host = s.host := rfl
@[simp] theorem State.soon_sent (s : State) (l : List Turn) : (s.soon l).sent = s.sent := rfl

/-! ## drawn -/

@[simp] theorem State.drawn_free (s : State) : s.drawn.free = s.free + 1 := rfl
@[simp] theorem State.drawn_who (s : State) : s.drawn.who = s.who := rfl
@[simp] theorem State.drawn_arg (s : State) : s.drawn.arg = s.arg := rfl
@[simp] theorem State.drawn_agenda (s : State) : s.drawn.agenda = s.agenda := rfl
@[simp] theorem State.drawn_upset (s : State) : s.drawn.upset = s.upset := rfl
@[simp] theorem State.drawn_nextId (s : State) : s.drawn.nextId = s.nextId := rfl
@[simp] theorem State.drawn_teams (s : State) : s.drawn.teams = s.teams := rfl
@[simp] theorem State.drawn_launches (s : State) : s.drawn.launches = s.launches := rfl
@[simp] theorem State.drawn_gangs (s : State) : s.drawn.gangs = s.gangs := rfl
@[simp] theorem State.drawn_ctxs (s : State) : s.drawn.ctxs = s.ctxs := rfl
@[simp] theorem State.drawn_cores (s : State) : s.drawn.cores = s.cores := rfl
@[simp] theorem State.drawn_ops (s : State) : s.drawn.ops = s.ops := rfl
@[simp] theorem State.drawn_copies (s : State) : s.drawn.copies = s.copies := rfl
@[simp] theorem State.drawn_forwards (s : State) : s.drawn.forwards = s.forwards := rfl
@[simp] theorem State.drawn_slots (s : State) : s.drawn.slots = s.slots := rfl
@[simp] theorem State.drawn_glob (s : State) : s.drawn.glob = s.glob := rfl
@[simp] theorem State.drawn_modes (s : State) : s.drawn.modes = s.modes := rfl
@[simp] theorem State.drawn_via (s : State) : s.drawn.via = s.via := rfl
@[simp] theorem State.drawn_rounds (s : State) : s.drawn.rounds = s.rounds := rfl
@[simp] theorem State.drawn_farScopes (s : State) : s.drawn.farScopes = s.farScopes := rfl
@[simp] theorem State.drawn_chips (s : State) : s.drawn.chips = s.chips := rfl
@[simp] theorem State.drawn_ms (s : State) : s.drawn.ms = s.ms := rfl
@[simp] theorem State.drawn_routes (s : State) : s.drawn.routes = s.routes := rfl
@[simp] theorem State.drawn_pkg (s : State) : s.drawn.pkg = s.pkg := rfl
@[simp] theorem State.drawn_hdie (s : State) : s.drawn.hdie = s.hdie := rfl
@[simp] theorem State.drawn_elogBase (s : State) : s.drawn.elogBase = s.elogBase := rfl
@[simp] theorem State.drawn_elogHead (s : State) : s.drawn.elogHead = s.elogHead := rfl
@[simp] theorem State.drawn_elogTail (s : State) : s.drawn.elogTail = s.elogTail := rfl
@[simp] theorem State.drawn_elogLost (s : State) : s.drawn.elogLost = s.elogLost := rfl
@[simp] theorem State.drawn_elogThresh (s : State) : s.drawn.elogThresh = s.elogThresh := rfl
@[simp] theorem State.drawn_elogMsien (s : State) : s.drawn.elogMsien = s.elogMsien := rfl
@[simp] theorem State.drawn_msiTab (s : State) : s.drawn.msiTab = s.msiTab := rfl
@[simp] theorem State.drawn_msiDropped (s : State) : s.drawn.msiDropped = s.msiDropped := rfl
@[simp] theorem State.drawn_sad (s : State) : s.drawn.sad = s.sad := rfl
@[simp] theorem State.drawn_awls (s : State) : s.drawn.awls = s.awls := rfl
@[simp] theorem State.drawn_host (s : State) : s.drawn.host = s.host := rfl
@[simp] theorem State.drawn_sent (s : State) : s.drawn.sent = s.sent := rfl

/-! ## through -/

@[simp] theorem State.through_free (s : State) (m : Option Nat) : (s.through m).free = s.free := rfl
@[simp] theorem State.through_who (s : State) (m : Option Nat) : (s.through m).who = s.who := rfl
@[simp] theorem State.through_arg (s : State) (m : Option Nat) : (s.through m).arg = s.arg := rfl
@[simp] theorem State.through_agenda (s : State) (m : Option Nat) : (s.through m).agenda = s.agenda := rfl
@[simp] theorem State.through_upset (s : State) (m : Option Nat) : (s.through m).upset = s.upset := rfl
@[simp] theorem State.through_nextId (s : State) (m : Option Nat) : (s.through m).nextId = s.nextId := rfl
@[simp] theorem State.through_teams (s : State) (m : Option Nat) : (s.through m).teams = s.teams := rfl
@[simp] theorem State.through_launches (s : State) (m : Option Nat) : (s.through m).launches = s.launches := rfl
@[simp] theorem State.through_gangs (s : State) (m : Option Nat) : (s.through m).gangs = s.gangs := rfl
@[simp] theorem State.through_ctxs (s : State) (m : Option Nat) : (s.through m).ctxs = s.ctxs := rfl
@[simp] theorem State.through_cores (s : State) (m : Option Nat) : (s.through m).cores = s.cores := rfl
@[simp] theorem State.through_ops (s : State) (m : Option Nat) : (s.through m).ops = s.ops := rfl
@[simp] theorem State.through_copies (s : State) (m : Option Nat) : (s.through m).copies = s.copies := rfl
@[simp] theorem State.through_forwards (s : State) (m : Option Nat) : (s.through m).forwards = s.forwards := rfl
@[simp] theorem State.through_slots (s : State) (m : Option Nat) : (s.through m).slots = s.slots := rfl
@[simp] theorem State.through_glob (s : State) (m : Option Nat) : (s.through m).glob = s.glob := rfl
@[simp] theorem State.through_modes (s : State) (m : Option Nat) : (s.through m).modes = s.modes := rfl
@[simp] theorem State.through_via (s : State) (m : Option Nat) : (s.through m).via = m := rfl
@[simp] theorem State.through_chips (s : State) (m : Option Nat) : (s.through m).chips = s.chips := rfl
@[simp] theorem State.through_ms (s : State) (m : Option Nat) : (s.through m).ms = s.ms := rfl
@[simp] theorem State.through_routes (s : State) (m : Option Nat) : (s.through m).routes = s.routes := rfl
@[simp] theorem State.through_pkg (s : State) (m : Option Nat) : (s.through m).pkg = s.pkg := rfl
@[simp] theorem State.through_hdie (s : State) (m : Option Nat) : (s.through m).hdie = s.hdie := rfl
@[simp] theorem State.through_elogBase (s : State) (m : Option Nat) : (s.through m).elogBase = s.elogBase := rfl
@[simp] theorem State.through_elogHead (s : State) (m : Option Nat) : (s.through m).elogHead = s.elogHead := rfl
@[simp] theorem State.through_elogTail (s : State) (m : Option Nat) : (s.through m).elogTail = s.elogTail := rfl
@[simp] theorem State.through_elogLost (s : State) (m : Option Nat) : (s.through m).elogLost = s.elogLost := rfl
@[simp] theorem State.through_elogThresh (s : State) (m : Option Nat) : (s.through m).elogThresh = s.elogThresh := rfl
@[simp] theorem State.through_elogMsien (s : State) (m : Option Nat) : (s.through m).elogMsien = s.elogMsien := rfl
@[simp] theorem State.through_msiTab (s : State) (m : Option Nat) : (s.through m).msiTab = s.msiTab := rfl
@[simp] theorem State.through_msiDropped (s : State) (m : Option Nat) : (s.through m).msiDropped = s.msiDropped := rfl
@[simp] theorem State.through_sad (s : State) (m : Option Nat) : (s.through m).sad = s.sad := rfl
@[simp] theorem State.through_awls (s : State) (m : Option Nat) : (s.through m).awls = s.awls := rfl
@[simp] theorem State.through_host (s : State) (m : Option Nat) : (s.through m).host = s.host := rfl
@[simp] theorem State.through_sent (s : State) (m : Option Nat) : (s.through m).sent = s.sent := rfl

/-! ## Reading back -/

theorem State.ctx_updCtx_same (s : State) (c : Nat) (f : Ctx → Ctx) : (s.updCtx c f).ctx c = f (s.ctx c) := by simp [State.ctx]

theorem State.ctx_updCtx_other (s : State) {c d : Nat} (f : Ctx → Ctx) (h : d ≠ c) : (s.updCtx c f).ctx d = s.ctx d := by
  simp [State.ctx, Tab.get_put_other _ _ _ h]

theorem State.core_updCore_same (s : State) (c : Nat) (f : Core → Core) : (s.updCore c f).core c = f (s.core c) := by simp [State.core]

theorem State.core_updCore_other (s : State) {c d : Nat} (f : Core → Core) (h : d ≠ c) : (s.updCore c f).core d = s.core d := by
  simp [State.core, Tab.get_put_other _ _ _ h]

theorem State.look_updTeam_same (s : State) (tid : Nat) (f : Team → Team) : (s.updTeam tid f).teams.look tid = (s.teams.look tid).map f := by
  simp [Tab.look_upd_same]

theorem State.look_updTeam_other (s : State) {tid k : Nat} (f : Team → Team) (h : k ≠ tid) : (s.updTeam tid f).teams.look k = s.teams.look k := by
  simp [Tab.look_upd_other _ _ h]

end Sys2Proof.Machine
end

