-- ==== Sys2Proof/Laws/Issue.lean ====
section
/-! SUPPORT. The issue of a clause instruction: where the party may issue and the encoding is legal, the instruction ends as
its body says. -/

namespace Sys2Proof.Machine

theorem State.clean_eq {s : State} (h : s.upset = none) : ({ s with upset := none } : State) = s := by cases s; simp_all

/-- Everything that an issue does where no upset meets it: an illegal encoding raises 0x01, else the body's outcome is
settled. -/
theorem State.issue_eq {s : State} {msel : BitVec 4} {pclass : BitVec 2} {e : Env} (h : s.Issues msel pclass e) (engine : Nat)
    (lastOnly : Bool) (regs : Env → List (Nat × Nat)) (legal : Env → Bool) (body : Env → State → Res) (at_ : Env → Nat → Nat)
    (cmp : Compared) :
    s.issue msel.toNat pclass.toNat engine lastOnly regs legal body at_ cmp =
      if e.regsOk (regs e) = true ∧ legal e = true ∧ (lastOnly = true → e.last = true) then s.settle e engine (body e s)
      else s.raise e engine e.idx e.illegal := by
  obtain ⟨he, hu, hc⟩ := h
  have hp : (pclass.toNat != 0 && !s.feature 1) = false := by
    rcases hc with hc | hc <;> simp [hc]
  unfold State.issue
  simp only [he, State.clean_eq hu, hp, hu]
  cases hr : e.regsOk (regs e) <;> cases hl : legal e <;> cases lastOnly <;> cases hla : e.last <;> simp

theorem State.issue_legal {s : State} {msel : BitVec 4} {pclass : BitVec 2} {e : Env} (h : s.Issues msel pclass e) {engine : Nat}
    {lastOnly : Bool} {regs : Env → List (Nat × Nat)} {legal : Env → Bool} {body : Env → State → Res} {at_ : Env → Nat → Nat} {cmp : Compared}
    (hr : e.regsOk (regs e) = true) (hl : legal e = true) (hlast : lastOnly = true → e.last = true) :
    s.issue msel.toNat pclass.toNat engine lastOnly regs legal body at_ cmp = s.settle e engine (body e s) := by
  rw [State.issue_eq h, if_pos ⟨hr, hl, hlast⟩]

@[simp] theorem State.settle_done (s : State) (e : Env) (engine : Nat) (t : State) : s.settle e engine (.done t) = t.advance e .issuing := rfl
@[simp] theorem State.settle_fault (s : State) (e : Env) (engine : Nat) (r : Raise) : s.settle e engine (.fault r) = s.raise e engine e.idx r := rfl
@[simp] theorem State.settle_suspend (s : State) (e : Env) (engine : Nat) (t : State) (w : Why) : s.settle e engine (.suspend t w) = t.block e w := rfl
@[simp] theorem State.settle_park (s : State) (e : Env) (engine : Nat) (t : State) (w : Why) :
    s.settle e engine (.park t w) = t.advance e (.blocked w) := rfl
@[simp] theorem State.settle_jumped (s : State) (e : Env) (engine : Nat) (t : State) : s.settle e engine (.jumped t) = t.releasePort e := rfl
@[simp] theorem State.settle_handled (s : State) (e : Env) (engine : Nat) (t : State) : s.settle e engine (.handled t) = t := rfl

/-- A lead thread's environment names its team. -/
theorem Env.lead_of_none {e : Env} (h : e.fid = none) : e.lead = true := by simp [Env.lead, h]
theorem Env.lead_of_some {e : Env} (h : e.fid.isSome = true) : e.lead = false := by
  simp only [Env.lead]; cases hf : e.fid <;> simp_all
theorem Env.regsOk_lead {e : Env} (h : e.fid = none) (l : List (Nat × Nat)) : e.regsOk l = true := by simp [Env.regsOk, Env.lead_of_none h]

/-- A scalar instruction writes its result and goes on. -/
theorem leadResult_eq {s : State} {msel : BitVec 4} {pclass : BitVec 2} {e : Env} (h : s.LeadIssues msel pclass e) (dst : Nat)
    (val : Env → Nat) : leadResult s msel.toNat pclass.toNat dst val = s.leadWrote e dst (val e) := by
  unfold leadResult
  rw [State.issue_legal h.1 (Env.regsOk_lead h.2 _) (Env.lead_of_none h.2) (by simp)]
  rfl

/-- A LANE instruction whose registers are declared writes its results and goes on. -/
theorem laneOp_eq {s : State} {msel : BitVec 4} {pclass : BitVec 2} {e : Env} (h : s.LaneIssues msel pclass e)
    {regs : List (Nat × Nat)} (hr : e.regsOk regs = true) (f : Env → Nat → Thread → List (Nat × Nat)) (cmp : Compared) :
    laneOp s msel.toNat pclass.toNat regs f cmp = s.laneWrote e (f e) := by
  unfold laneOp
  rw [State.issue_legal h.1 hr (by simp [Env.lead_of_some h.2]) (by simp)]
  rfl

end Sys2Proof.Machine
end

