-- ==== Sys2Proof/Laws/Memory.lean ====
section
/-! SUPPORT. The laws of memory: every operation over a level keeps its canonical form, a write is read back, and the bytes outside it
stay; and what an update of one level leaves of the form of all. -/

namespace Sys2Proof.Machine

/-! ## Tables of bytes -/

theorem writeCells_wf (bs : List Byte) : ∀ (c : Tab Byte) (a : Nat), c.wf 0 = true → (writeCells c a bs).wf 0 = true := by
  induction bs with
  | nil => intro c a h; exact h
  | cons b bs ih => intro c a h; exact ih _ _ (Tab.wf_set 0 c a b h)

theorem writeCells_before (bs : List Byte) : ∀ (c : Tab Byte) (a x : Nat), x < a → (writeCells c a bs).get 0 x = c.get 0 x := by
  induction bs with
  | nil => intro c a x _; rfl
  | cons b bs ih =>
    intro c a x h
    rw [writeCells, ih _ _ _ (by omega), Tab.get_set_other 0 c b (by omega)]

theorem writeCells_after (bs : List Byte) :
    ∀ (c : Tab Byte) (a x : Nat), a + bs.length ≤ x → (writeCells c a bs).get 0 x = c.get 0 x := by
  induction bs with
  | nil => intro c a x _; rfl
  | cons b bs ih =>
    intro c a x h
    simp only [List.length_cons] at h
    rw [writeCells, ih _ _ _ (by omega), Tab.get_set_other 0 c b (by omega)]

theorem writeCells_inside (bs : List Byte) :
    ∀ (c : Tab Byte) (a i : Nat) (b : Byte), c.wf 0 = true → bs[i]? = some b → (writeCells c a bs).get 0 (a + i) = b := by
  induction bs with
  | nil => intro c a i b _ h; simp at h
  | cons x bs ih =>
    intro c a i b hc h
    have hr : Tab.rising c = true := by simp only [Tab.wf, Bool.and_eq_true] at hc; exact hc.1
    cases i with
    | zero =>
      simp only [List.getElem?_cons_zero, Option.some.injEq] at h
      subst h
      rw [Nat.add_zero, writeCells, writeCells_before bs _ _ _ (by omega), Tab.get_set_same 0 c a x hr]
    | succ i =>
      simp only [List.getElem?_cons_succ] at h
      rw [writeCells, show a + (i + 1) = (a + 1) + i by omega]
      exact ih _ _ _ _ (Tab.wf_set 0 c a x hc) h

/-! ## One level -/

/-- Writing bytes keeps the canonical form of a level. -/
theorem Space.write_wf (m : Space) (a : Nat) (bs : List Byte) (h : m.wf = true) : (m.write a bs).wf = true := writeCells_wf bs _ a h

@[simp] theorem Space.markPoison_wf (m : Space) (a n : Nat) : (m.markPoison a n).wf = m.wf := rfl
@[simp] theorem Space.markPoison_byte (m : Space) (a n x : Nat) : (m.markPoison a n).byte x = m.byte x := rfl

/-! ## All levels -/

theorem all_upd {α : Type} (p : Nat × α → Bool) (f : α → α) (q : Nat) (t : Tab α) (h : t.all p = true)
    (hf : ∀ x, p (q, x) = true → p (q, f x) = true) : (t.upd q f).all p = true := by
  induction t with
  | nil => rfl
  | cons e t ih =>
    obtain ⟨k, v⟩ := e
    simp only [List.all_cons, Bool.and_eq_true] at h
    simp only [Tab.upd]
    split
    · rename_i hk; subst hk; simp only [List.all_cons, Bool.and_eq_true]; exact ⟨hf v h.1, h.2⟩
    · simp only [List.all_cons, Bool.and_eq_true]; exact ⟨h.1, ih h.2⟩

/-- A change of one level that keeps its form keeps the form of all. -/
theorem State.updSpace_memoryWf (s : State) (h : Home) (f : Space → Space) (hs : s.memoryWf = true)
    (hf : ∀ m : Space, m.wf = true → (f m).wf = true) : (s.updSpace h f).memoryWf = true := by
  simp only [State.memoryWf, Bool.and_eq_true] at hs ⊢
  obtain ⟨⟨⟨hg, hc⟩, hk⟩, ht⟩ := hs
  cases h with
  | priv tid th =>
    refine ⟨⟨⟨hg, hc⟩, hk⟩, all_upd _ _ _ _ ht (fun x hx => ?_)⟩
    simp only [Bool.and_eq_true] at hx ⊢
    exact ⟨hx.1, all_upd _ _ _ _ hx.2 (fun y hy => hf _ hy)⟩
  | scratch tid =>
    refine ⟨⟨⟨hg, hc⟩, hk⟩, all_upd _ _ _ _ ht (fun x hx => ?_)⟩
    simp only [Bool.and_eq_true] at hx ⊢
    exact ⟨hf _ hx.1, hx.2⟩
  | cluster g => exact ⟨⟨⟨hg, hc⟩, all_upd _ _ _ _ hk (fun x hx => hf _ hx)⟩, ht⟩
  | chip k => exact ⟨⟨⟨hg, all_upd _ _ _ _ hc (fun x hx => hf _ hx)⟩, hk⟩, ht⟩
  | glob => exact ⟨⟨⟨hf _ hg, hc⟩, hk⟩, ht⟩
  | remote p => exact ⟨⟨⟨hg, hc⟩, hk⟩, ht⟩

@[simp] theorem State.drawn_memoryWf (s : State) : s.drawn.memoryWf = s.memoryWf := rfl
@[simp] theorem State.noteWrite_memoryWf (s : State) (h : Home) (a n : Nat) : (s.noteWrite h a n).memoryWf = s.memoryWf := rfl

theorem State.blurScopes_memoryWf (s : State) (h : Home) (a n : Nat) (hs : s.memoryWf = true) : (s.blurScopes h a n).memoryWf = true := by
  unfold State.blurScopes
  generalize (s.space h).objectsIn a n = l
  induction l generalizing s with
  | nil => exact hs
  | cons o l ih => exact ih _ (State.updSpace_memoryWf s h _ hs (fun _ hm => hm))

@[simp] theorem State.through_memoryWf (s : State) (m : Option Nat) : (s.through m).memoryWf = s.memoryWf := rfl
@[simp] theorem State.through_space (s : State) (m : Option Nat) (h : Home) : (s.through m).space h = s.space h := rfl

/-- Bytes put at a home keep the canonical form, whether the home takes them or drops them (R336). -/
theorem State.putHome_memoryWf (s : State) (h : Home) (a : Nat) (bs : List Byte) (hs : s.memoryWf = true) :
    (s.putHome h a bs).memoryWf = true := by
  have hw := State.updSpace_memoryWf s h (fun m => m.write a bs) hs (fun m hm => Space.write_wf m a bs hm)
  unfold State.putHome
  split
  · exact hs
  · dsimp only
    split <;> exact hw

/-- A plain write keeps the canonical form. -/
theorem State.writeHome_memoryWf (s : State) (h : Home) (a : Nat) (bs : List Byte) (hs : s.memoryWf = true) :
    (s.writeHome h a bs).memoryWf = true := by
  unfold State.writeHome
  split
  · exact hs
  · exact State.putHome_memoryWf _ h a bs (State.blurScopes_memoryWf s h a _ hs)

/-- The state after reset has the canonical form. -/
theorem reset_memoryWf : State.reset.memoryWf = true := rfl

end Sys2Proof.Machine
end

