-- ==== Sys2Proof/Tests/Slice0.lean ====
section
/-! SUPPORT. Tests: a term that each legality check refuses, words of the spec decoded, single steps on small states, and for each
statement states and operands that meet its hypotheses. -/

namespace Sys2Proof.Tests
open Sys2Proof.Machine
set_option Elab.async false

/-! ## Well-formedness: a term that fails each check is refused by that check -/

def zA : FmtA := { md := 0, zsel := 0, retain := 0, c := 0, b := 0, a := 0, dst := 0, msel := 0, pclass := 0 }
def zI : FmtI := { imm := 0, a := 0, dst := 0, msel := 0, pclass := 0 }
def zM : FmtM := { offset := 0, size := 2, space := 0, evict := 0, scope := 0, ord := 0, addr := 0, data := 0, msel := 0, pclass := 0 }
def zT : FmtT := { aop := 0, atype := 0, offset := 0, size := 2, space := 0, evict := 0, scope := 4, ord := 0, addr := 0, data := 0, msel := 0, pclass := 0 }
def zB : FmtB := { target := 0, kind := 0, reg := 0, msel := 0, pclass := 0 }
def zX : FmtX := { opsrc := 0, sparse := 0, nobar := 1, fmt := 0, shape := 0, bar := 0, bdesc := 0, arow := 0, acc := 0, msel := 0, pclass := 0 }

theorem test_ill_formed :
    illegal false (.iadd { zA with pclass := 3 }) = some .pclass
    ∧ illegal true (.sadd { zA with msel := 1 }) = some .msel
    ∧ illegal false (.sadd zA) = some .stream
    ∧ illegal false (.ineg { zA with b := 1 }) = some .reserved
    ∧ illegal true (.sadd { zA with dst := 128 }) = some .register
    ∧ illegal false (.ineg { zA with zsel := 2 }) = some .zsel
    ∧ illegal false (.mov { zA with retain := 2 }) = some .retain
    ∧ illegal true (.sadd { zA with md := 1 }) = some .variant
    ∧ illegal true (.sbr { zB with kind := 7 }) = some .kind
    ∧ illegal false (.ld { zM with ord := 2 }) = some .ord
    ∧ illegal false (.atom { zT with scope := 0 }) = some .scope
    ∧ illegal false (.ld { zM with evict := 7 }) = some .evict
    ∧ illegal false (.ld { zM with space := 6 }) = some .space
    ∧ illegal false (.ld { zM with size := 7 }) = some .size
    ∧ illegal false (.atom { zT with aop := 15 }) = some .aop
    ∧ illegal false (.atom { zT with atype := 7 }) = some .atype
    ∧ illegal false (.red { zT with atype := 4, size := 4, offset := 1 }) = some .offset
    ∧ illegal false (.movh { zI with imm := 0x10000 }) = some .immediate
    ∧ illegal true (.srd { zI with imm := 0xFFF }) = some .number := by decide

theorem test_unknown_opcode : decodeWord .lane false 0x0FF = .error .opcode := rfl

theorem test_well_formed : wellFormed false (.iadd zA) = true ∧ wellFormed true (.sadd zA) = true := by decide

/-! ## Decoding: words that the spec writes out bit by bit, and words put together from its encoding tables -/

/-- SLOOP of 05_grouping and 03_lead, SLI, DQPUSH (R112). -/
theorem test_decode_lead :
    decodeWord .lead true 0x00000000000A0110 = .ok (.sli { zI with dst := 10 })
    ∧ decodeWord .lead true 0x0000000014000060 = .ok (.dqpush { zA with a := 10 }) := ⟨rfl, rfl⟩

/-- The example of R159. -/
theorem test_decode_bperm : decodeWord .lane false 0x000018100401001A = .ok (.bperm { zA with dst := 1, a := 2, b := 4, c := 3 }) := rfl

/-- MEET and JOIN of R187's example, BRA.NZ backwards. -/
theorem test_decode_grp :
    decodeWord .grp false 0x0000000090140020 = .ok (.meet { zB with target := 9, reg := 20 })
    ∧ decodeWord .grp false 0x0000000000000005 = .ok (.exit zA) := ⟨rfl, rfl⟩

/-- FENCE of R238, KICK of R269. -/
theorem test_decode_mem :
    decodeWord .mem true 0x0000480008060006 = .ok (.kick { zM with space := 2, addr := 4, data := 6 }) := rfl

/-- MMA (R296). -/
theorem test_decode_mtx : decodeWord .mtx false 0x08200180B6001000 =
    .ok (.mma { zX with shape := 2, bdesc := 96, arow := 91, msel := 1 }) := rfl

/-- The custom instructions of the examples of R431 to R436. -/
theorem test_decode_awl :
    decodeAwl 0x015B82AB = some (.awlTswr 21 23 5) ∧ decodeAwl 0x0002D32B = some (.awlWaitev 5 6)
    ∧ decodeAwl 0x0009232B = some (.awlRcrd 18 6) ∧ decodeAwl 0x0653100B = some (.awlGst 3 5 6) := by decide

/-- Headers of the spec's examples (R44, R46). -/
theorem test_decode_header :
    getHeader 0xA700000A1FC00021 = {
      tag := 0xA7, reserved := 0, hint := 5, drain := false, aqsel := 0, waq := false, wdq := true, wbMax := 63,
      wbClass := 0, waMax := 0, waClass := 0, stream := 0, count := 2, cls := 1 }
    ∧ headerOk false 0xA700000A1FC00021 = true ∧ headerOk true 0xA70000000FC7E220 = true ∧ headerOk true 0xA700000A1FC00021 = false := by decide

/-- An opcode-table row as the table numbers it: a clause word follows its header (R38, R44). -/
theorem test_decode_table_word :
    decodeTableWord 128 (0xA70000000FC7E011 + 2 ^ 64 * 0x0000004002030100) = some (.iaddImm { zI with imm := 16, a := 1, dst := 3 })
    ∧ decodeTableWord 32 0x0059302B = some (.awlRcwr 5 18) := by decide

/-! ## Steps: the instruction placed runs first after reset -/

/-- The team that State.withFetchWord places. -/
def placed (o : Host.Outcome State Fault Refusal) : Option Team :=
  match o with
  | .next s => s.teams.look 0
  | _ => none

/-- IADD v3, v1, 16 with v1 = 0 gives 16 in every lane (R154). -/
theorem test_step_iadd :
    (placed (step (State.reset.withFetchWord 128 (0xA70000000FC7E011 + 2 ^ 64 * 0x0000004002030100)))).map
      (fun t => ((t.thread 0).vreg 3, (t.thread 15).vreg 3, (t.thread 0).vreg 1)) = some (16, 16, 0) := by decide

/-- SLI s10, 4 (R102). -/
theorem test_step_sli :
    (placed (step (State.reset.withFetchWord 128 (0xA70000000FC7E210 + 2 ^ 64 * 0x00000010000A0110)))).map
      (fun t => (t.lead.regs.get 0 10, t.lead.pc, t.lead.idx)) = some (4, 0x1010, 0) := by decide

/-- awl.rcwr of a counter that the port owns writes it; the pc moves on (R435). -/
theorem test_step_rcwr :
    (match step (State.reset.withFetchWord 32 0x0059302B) with
      | .next s => some ((s.awl 0).pc, (s.ctr 0).val)
      | _ => none) = some (4, 0) := by decide

/-- SETH h1, -1 (R406): all bits of the register. -/
theorem test_step_seth :
    (match step (State.reset.withFetchWord 32 ((encode32 (.ucSeth 1 0xFFFFF)).getD 0).toNat) with
      | .next s => ((s.port 0).handlers.look 0).map (fun h => (h.reg 1, h.pc))
      | _ => none) = some (2 ^ 64 - 1, 1) := by decide

/-! ## States for the witnesses -/

/-- A leaf that maps the first 2 MiB of virtual memory to the frame at 2 MiB of device memory, for reads, writes and code. -/
def leaf0 : Leaf := { frame := 0x200000, w := true, x := true, alias_ := 0, prot := 0, snap := false, cache := 0, coll := 0 }

/-- A lead header and a lane header of one instruction (R44). -/
def leadHeader : DWord := 0xA70000000FC7E210
def laneHeader : DWord := 0xA70000000FC7E011

/-- A package with every feature, one region of 8 MiB, a page table of context 0 for that page, its translation held by core 0 and base
die 0, and a lead header at 0x1008 and a lane header at 0x1010. -/
def base : State :=
  let s := State.reset.negotiated
  { s with
    nextId := 1
    ms := { s.ms with regions := [(0, { a := 2 ^ 63 + 8 * 2 ^ 56 + 2 ^ 44 + 4 * 2 ^ 22, b := 0 })], xlat := [(0, [(0, leaf0)])] }
    ctxs := [(0, { ptRoot := 0x4001 })]
    cores := [(0, { xlat := [(0, leaf0)], icache := [(0x201008, leadHeader), (0x201010, laneHeader)] })]
    glob := { cells := [(0x4000, 0x01), (0x4001, 0x80), (0x8000, 0x01), (0x8001, 0xC0), (0xC000, 0x0F), (0xC002, 0x20)] } }

/-- The lead thread of a team at the last instruction of a clause, and its environment. -/
def leadT : Team := clauseTeam true leadHeader [0]
def leadS : State := { base with teams := [(0, leadT)], who := .lead 0 }
def leadE : Env := { tid := 0, t := leadT, fid := none, w := noWarp, all := [], act := [], pc := 0x1000, idx := 0, header := leadHeader, core := 0, pclass := 0 }
theorem lead_issues : leadS.LeadIssues 0 0 leadE := ⟨⟨rfl, rfl, .inl rfl⟩, rfl⟩

/-- A formed warp of 16 threads at the last instruction of a clause, and its environment. -/
def laneT : Team := clauseTeam false laneHeader [0]
def laneS : State := { base with teams := [(0, laneT)], who := .warp 0 0 }
def laneW : Warp := { threads := upFrom 0 16, quarter := 0, pc := 0x1000, header := laneHeader, words := [0], run := .waiting }
def laneE : Env := { tid := 0, t := laneT, fid := some 0, w := laneW, all := upFrom 0 16, act := upFrom 0 16, pc := 0x1000, idx := 0,
                     header := laneHeader, core := 0, pclass := 0 }
theorem lane_issues : laneS.LaneIssues 0 0 laneE := ⟨⟨rfl, rfl, .inl rfl⟩, rfl⟩

/-- The page of `base` translates. -/
theorem base_walk : base.walk 0 0x1000 = .ok leaf0 := by decide

/-! ## Witnesses: encoding, the step, memory -/

theorem witness_EncodedInstructionsDecode :
    opcodeOf (.iadd zA) = some (.lane, 0) ∧ wellFormed false (.iadd zA) = true
    ∧ encode32 (.awlRcwr 5 18) = some 0x0059302B ∧ encode32 (.ucLdh 3 4) = some 0x03040000
    ∧ decodeMicro 0x03040000 = some (.ucLdh 3 4) ∧ decodeAwl 0x0059302B = some (.awlRcwr 5 18) := by decide

theorem witness_DecodedWordsEncodeBack : decodeWord .lane false 0x0000004002030100 = .ok (.iaddImm { zI with imm := 16, a := 1, dst := 3 }) := rfl

/-- A turn of a core's port, of a handler, of an Awl, and of an engine. -/
theorem witness_AStepRunsTheDecodedInstruction :
    (∃ (s : State) (c : Cand) (i : Instr), s.host.stopped = false ∧ s.agenda = [.port 0 0] ∧ ({ s with agenda := [] } : State).portPick 0 0 = some c
      ∧ c.req = none ∧ ({ s with agenda := [] } : State).nextWord c.tid c.fid = some (.lane, false, 0x0000004002030100)
      ∧ decodeWord .lane false 0x0000004002030100 = .ok i)
    ∧ (∃ (s : State) (c : Cand), s.agenda = [.port 0 0] ∧ ({ s with agenda := [] } : State).portPick 0 0 = some c ∧ c.req = none
      ∧ ({ s with agenda := [] } : State).nextWord c.tid c.fid = some (.lane, false, 0xFF) ∧ decodeWord .lane false 0xFF = .error .opcode)
    ∧ (let s := State.reset.withFetchWord 32 0x03040000
       s.host.stopped = false ∧ s.agenda = [.handler 0] ∧ (s.port 0).run = true ∧ ({ s with agenda := [] } : State).handlerPick 0 = some 0
        ∧ ((s.port 0).handlers.look 0).isSome = true ∧ decodeMicro ((s.port 0).store.get 0 0) = some (.ucLdh 3 4))
    ∧ (let s := State.reset.withFetchWord 32 0x0059302B
       let h := s.awl 0
       s.agenda = [.awl 0] ∧ h.run = true ∧ h.fault = false ∧ h.waiting = .no ∧ h.wait = none ∧ h.stale = [] ∧ h.pc.toNat + 4 ≤ localSize
        ∧ h.bad h.pc.toNat 2 = false ∧ h.bad (h.pc.toNat + 2) 2 = false
        ∧ natOf [h.mem.get 0 0, h.mem.get 0 1, h.mem.get 0 2, h.mem.get 0 3] = 0x0059302B)
    ∧ (let h := (State.reset.withFetchWord 32 0x00100093).awl 0
       natOf [h.mem.get 0 0, h.mem.get 0 1, h.mem.get 0 2, h.mem.get 0 3] % 4 = 3
        ∧ natOf [h.mem.get 0 0, h.mem.get 0 1, h.mem.get 0 2, h.mem.get 0 3] % 128 = 0x13)
    ∧ (let h := (State.reset.withFetchWord 32 0x00000001).awl 0
       natOf [h.mem.get 0 0, h.mem.get 0 1, h.mem.get 0 2, h.mem.get 0 3] % 4 ≠ 3)
    ∧ ({ State.reset with agenda := [.event .getVersion {}] } : State).agenda = [.event .getVersion {}] ∧ State.reset.agenda = [] :=
  ⟨⟨State.reset.withFetchWord 128 (0xA70000000FC7E011 + 2 ^ 64 * 0x0000004002030100), _, _, rfl, rfl, rfl, rfl, rfl, rfl⟩,
   ⟨State.reset.withFetchWord 128 (0xA70000000FC7E011 + 2 ^ 64 * 0xFF), _, rfl, rfl, rfl, rfl, rfl⟩, by decide, by decide, by decide, by decide, by decide⟩

theorem witness_WritesChangeTheirBytesOnly :
    ({ cells := [(5, 1)] } : Space).wf = true ∧ ([0, 7] : List Byte)[1]? = some 7 ∧ base.memoryWf = true
    ∧ (({ cells := [(5, 1)] } : Space).write 5 [0, 7]).cells = [(6, 7)] := by decide

theorem witness_EveryStepKeepsMemoryCanonical : base.memoryWf = true ∧ ∃ t, step base = .next t := ⟨by decide, _, rfl⟩

/-! ## Witnesses: the lead stream -/

theorem witness_ScalarInstructionsWriteTheirResult : leadS.LeadIssues zA.msel zA.pclass leadE ∧ leadS.LeadIssues zI.msel zI.pclass leadE
    ∧ wellFormed true (.scmp { zA with md := 5 }) = true ∧ wellFormed true (.sli zI) = true :=
  ⟨lead_issues, lead_issues, by decide, by decide⟩

theorem witness_LeadResultsChangeOneRegister : leadS.LeadIssues 0 0 leadE ∧ leadE.t.lead.regs.rising = true ∧ leadE.last = true :=
  ⟨lead_issues, by decide, by decide⟩

/-- The lead thread with a header's address in s1. -/
def leadT1 : Team := { leadT with lead := { leadT.lead with regs := [(1, 0x1008)] } }
def leadS1 : State := { leadS with teams := [(0, leadT1)] }
def leadE1 : Env := { leadE with t := leadT1 }

theorem witness_LeadTransfersGoToTheirTargets :
    leadS.LeadIssues 0 0 leadE ∧ leadE.last = true ∧ leadE.t.sreg 0 = 0
    ∧ leadS.GoodTarget leadE true (wrap ((leadE.pc : Int) + 8 * (1 : BitVec 36).toInt) 64)
    ∧ leadS1.LeadIssues 0 0 leadE1 ∧ leadS1.GoodTarget leadE1 true (leadE1.t.sop ({ zA with a := 1 } : FmtA).za 1) :=
  ⟨lead_issues, by decide, by decide, ⟨by decide, leadHeader, rfl, by decide⟩, ⟨⟨rfl, rfl, .inl rfl⟩, rfl⟩, ⟨by decide, leadHeader, rfl, by decide⟩⟩

theorem witness_PushesAppendOrSuspend :
    leadS.LeadIssues zA.msel zA.pclass leadE ∧ leadS.LeadIssues zI.msel zI.pclass leadE
    ∧ leadS.teams.look 0 = some leadT ∧ leadT.threads.look 3 = some (leadT.thread 3) ∧ (leadT.thread 3).live = true
    ∧ (leadT.thread 3).posOf 0 = (leadT.queue 0).base := ⟨lead_issues, lead_issues, rfl, rfl, rfl, rfl⟩

/-- The lead thread in handler mode. -/
def leadTH : Team := { leadT with lead := { leadT.lead with hmode := true } }
def leadSH : State := { leadS with teams := [(0, leadTH)] }
def leadEH : Env := { leadE with t := leadTH }

theorem witness_SpecialRegistersAreReadAndWritten :
    leadS.LeadIssues 0 0 leadE ∧ leadE.t.lead.hmode = false ∧ leadSH.LeadIssues 0 0 leadEH ∧ leadEH.t.lead.hmode = true
    ∧ (0x118 : BitVec 30).toNat = 0x118 ∧ (0x127 : BitVec 30).toNat = 0x127 ∧ (0x103 : BitVec 30).toNat = 0x103 :=
  ⟨lead_issues, rfl, ⟨⟨rfl, rfl, .inl rfl⟩, rfl⟩, rfl, by decide, by decide, by decide⟩

/-! ## Witnesses: the lane stream -/

theorem witness_IntegerAndBitInstructionsWriteTheirResult :
    laneS.LaneIssues zA.msel zA.pclass laneE ∧ laneE.regsOk (regsA zA 2 2 2 2) = true
    ∧ laneE.regsOk (regsA { zA with dst := 254, a := 254 } 2 2 0 2) = true := ⟨lane_issues, by decide, by decide⟩

theorem witness_ImmediateAndWordInstructionsWriteTheirResult :
    laneS.LaneIssues zI.msel zI.pclass laneE ∧ laneS.LaneIssues zA.msel zA.pclass laneE
    ∧ laneE.regsOk [(zI.a.toNat, 1), (zI.dst.toNat, 1)] = true ∧ laneE.regsOk (regsA { zA with dst := 252 } 2 2 1 4) = true :=
  ⟨lane_issues, lane_issues, by decide, by decide⟩

theorem witness_FloatInstructionsWriteTheirResult :
    laneS.LaneIssues zA.msel zA.pclass laneE ∧ laneE.regsOk (regsA zA 1 1 1 1) = true
    ∧ laneE.regsOk [(254, 2), (0, 0), (254, 2)] = true := ⟨lane_issues, by decide, by decide⟩

/-- A home warp of laneT writes mask 3. -/
theorem witness_LaneResultsChangeOnlyDestinations :
    laneS.LaneIssues 0 0 laneE ∧ (∀ th ∈ laneE.all, (laneE.t.threads.look th).isSome = true) ∧ laneE.all.Nodup
    ∧ laneS.teams.look 0 = some laneT ∧ laneE.t = laneS.seen 0 laneT ∧ laneT.warps.look 0 = some {} ∧ ({} : HomeWarp).masks.rising = true
    ∧ laneT.warps.rising = true ∧ 15 < laneT.width ∧ laneT.width ≤ 64 ∧ laneE.act.Nodup
    ∧ (∀ th ∈ laneE.act, (laneT.warps.look (th / laneT.width)).isSome = true)
    ∧ (laneT.thread 3).regs.rising = true ∧ (([(4, 5), (5, 6)] : List (Nat × Nat)).map (·.1)).Nodup :=
  by refine ⟨lane_issues, ?_⟩; and_intros <;> first | decide | rfl

theorem witness_IllegalIssueTraps :
    laneS.Issues 0 0 laneE ∧ (∃ r ∈ ([(255, 2)] : List (Nat × Nat)), r.2 ≠ 0 ∧ laneE.t.nregs < r.1 + r.2) ∧ laneE.fid.isSome = true
    ∧ leadS.Issues 0 0 leadE ∧ leadE.fid = none := ⟨lane_issues.1, by decide, rfl, lead_issues.1, rfl⟩

/-- The warp with values in the registers of its threads and an entry in the decision queue and in aq0. -/
def laneT2 : Team := { laneT with
  threads := laneT.threads.map (fun p => (p.1, { p.2 with regs := [(0, 0x1010), (2, 2), (4, 0x2000), (6, 128)] }))
  queues := [(0, { ents := [{ val := 0, clock := 9 }] }), (1, { ents := [{ val := 0x2000000000000100, clock := 9 }] })] }
def laneS2 : State := { laneS with teams := [(0, laneT2)] }
def laneE2 : Env := { laneE with t := laneT2 }
theorem lane_issues2 : laneS2.LaneIssues 0 0 laneE2 := ⟨⟨rfl, rfl, .inl rfl⟩, rfl⟩

theorem good_lane (n : Nat) (h : n = 0x1010) : laneS2.GoodTarget laneE2 false n := h ▸ ⟨by decide, laneHeader, rfl, by decide⟩

theorem witness_LaneTransfersSendEachThread :
    laneS2.LaneIssues 0 0 laneE2 ∧ laneE2.last = true
    ∧ laneS2.GoodTarget laneE2 false (wrap ((laneE2.pc : Int) + 8 * (2 : BitVec 36).toInt) 64)
    ∧ (∃ th ∈ laneE2.act, condHolds 1 32 ((laneE2.t.thread th).vreg 2) = true)
    ∧ laneE2.Same (fun th => if condHolds 1 32 ((laneE2.t.thread th).vreg 2) then 1 else 0)
    ∧ laneE2.act = 0 :: upFrom 1 15 ∧ laneS2.entriesFor laneE2.t 0 laneE2.act = true
    ∧ laneS2.entriesFor { laneE2.t with queues := [] } 0 laneE2.act = false
    ∧ (∃ th ∈ laneE2.act, (laneS2.entryFor laneE2.t 0 th = some 0 ↔ 4 = 4))
    ∧ (∀ th ∈ laneE2.act, laneS2.GoodTarget laneE2 false ((laneE2.t.thread th).vreg 0 + 2 ^ 32 * (laneE2.t.thread th).vreg 1))
    ∧ (∀ th ∈ laneE2.act, laneS2.GoodTarget laneE2 false (wrap ((laneE2.pc : Int) + 8 * sext ((laneE2.t.thread th).vreg 2) 32) 64)) := by
  refine ⟨lane_issues2, by decide, good_lane _ (by decide), by decide, by unfold Env.Same; decide, rfl, by decide, by decide,
    ⟨0, by decide, by decide⟩, fun th h => good_lane _ ?_, fun th h => good_lane _ ?_⟩
  · revert th; decide
  · revert th; decide

theorem witness_MeetAndMaskInstructionsComplete :
    laneS2.LaneIssues 0 0 laneE2 ∧ 2 + 2 ≤ laneE2.t.nregs ∧ laneE2.w.split = []
    ∧ laneS2.GoodTarget laneE2 false (wrap ((laneE2.pc : Int) + 8 * (2 : BitVec 36).toInt) 64)
    ∧ laneE2.Same (fun th => (laneE2.t.thread th).vreg 0 + 2 ^ 32 * (laneE2.t.thread th).vreg 1) :=
  ⟨lane_issues2, by decide, rfl, good_lane _ (by decide), by unfold Env.Same; decide⟩

theorem witness_CrossLaneAndPopsWriteTheirResult :
    laneS2.LaneIssues 0 0 laneE2 ∧ laneE2.w.split = [] ∧ laneE2.regsOk (regsA { zA with dst := 254 } 2 1 0 2) = true
    ∧ laneE2.Same (fun th => (laneE2.t.thread th).vreg 6 % 64) ∧ laneE2.act = 0 :: upFrom 1 15
    ∧ laneS2.entriesFor laneE2.t 0 laneE2.act = true
    ∧ laneS2.entriesFor laneE2.t 2 laneE2.act = false :=
  ⟨lane_issues2, rfl, by decide, by unfold Env.Same; decide, rfl, by decide, by decide⟩

/-! ## Witnesses: memory instructions -/

/-- The memory format of the witnesses: global memory at the pair (4, 5), scratchpad at 6, data in 8. -/
def gM : FmtM := { zM with addr := 4, data := 8 }
def sM : FmtM := { zM with space := 2, addr := 6, data := 8 }
def gT : FmtT := { zT with addr := 4, data := 8 }

/-- The lead thread with the same addresses. -/
def leadT2 : Team := { leadT with lead := { leadT.lead with regs := [(4, 0x2000), (6, 128)] } }
def leadS2 : State := { leadS with teams := [(0, leadT2)] }
def leadE2 : Env := { leadE with t := leadT2 }
theorem lead_issues2 : leadS2.LeadIssues 0 0 leadE2 := ⟨⟨rfl, rfl, .inl rfl⟩, rfl⟩

def noData (_ : Nat) : Nat := 0

/-- An access that can go out at once: each part is a fact about closed terms. -/
theorem goes_of {s : State} {e : Env} {u : Use} {c : Nat} {ws : List Want} (hn : ws ≠ [])
    (hf : s.accessFault e u ws = none) (h : (!e.full c && ws.all (fun w => !s.needsWalk e w)) = true) : s.Goes e u c ws := by
  simp only [Bool.and_eq_true, List.all_eq_true, Bool.not_eq_true'] at h
  exact ⟨hn, h.1, hf, h.2⟩

theorem goesStore_of {s : State} {e : Env} {u : Use} {ws : List Want} (hn : ws ≠ []) (hf : s.accessFault e u ws = none)
    (h : (!e.full 6 && !e.full 1 && ws.all (fun w => !s.needsWalk e w)) = true) : s.GoesStore e u ws := by
  simp only [Bool.and_eq_true, List.all_eq_true, Bool.not_eq_true'] at h
  exact ⟨hn, hf, h.2, fun _ => h.1.1, fun _ => h.1.2⟩

/-- A read and a write of n bytes. -/
def reads (n : Nat) : Use := { bytes := n, align := n, write := false, access := 0 }
def writes (n : Nat) : Use := { bytes := n, align := n, write := true, access := 1, store := true }

theorem witness_LoadsAndPrefetchesGoOn :
    laneS2.LaneIssues gM.msel gM.pclass laneE2 ∧ laneE2.regsOk [(gM.addr.toNat, 2), (gM.data.toNat, 1)] = true
    ∧ laneE2.Same (fun th => laneE2.baseOf 0 4 th) ∧ (laneS2.core laneE2.core).deltas = []
    ∧ laneS2.Goes laneE2 (reads 4) 0 (laneE2.wants 0 4 (fun _ => 0) noData noData)
    ∧ laneS2.Goes laneE2 (reads 4) 0 (laneE2.wants 0 4 (fun th => 0 + ((laneE2.t.laneOf th * 2 ^ 2 : Nat) : Int)) noData noData)
    ∧ laneS2.Goes laneE2 (reads 1) 0 (laneE2.wants 2 6 (fun _ => 0) noData noData)
    ∧ leadS2.LeadIssues gM.msel gM.pclass leadE2
    ∧ leadS2.Goes leadE2 (reads 4) 0 (leadE2.wants 0 4 (fun _ => 0) noData noData) :=
  by and_intros <;> first | exact .inl rfl | exact goes_of (by decide) rfl (by decide +kernel) | decide | rfl | (unfold Env.Same; decide)

/-- The page of alias_ is an alias page in the second state; aq0 names scratchpad address 256 in the third clause. -/
def laneSA : State := { laneS2 with cores := [(0, { xlat := [(0, { leaf0 with alias_ := 1 })] })] }

theorem witness_StoresAndQueueAddressesGoInFlight :
    laneS2.LaneIssues gM.msel gM.pclass laneE2 ∧ laneE2.regsOk [(gM.addr.toNat, 2), (gM.data.toNat, 1)] = true
    ∧ laneE2.Same (fun th => laneE2.baseOf 0 4 th)
    ∧ (let ws := laneE2.wants 0 4 (fun _ => 0) (laneE2.dataOf 8 4) noData
       laneS2.GoesStore laneE2 (writes 4) ws ∧ (∃ w ∈ ws, (laneS2.accOf laneE2 w).alias_ = 0)
         ∧ laneSA.GoesStore laneE2 (writes 4) ws ∧ (∃ w ∈ ws, (laneSA.accOf laneE2 w).alias_ ≠ 0))
    ∧ laneS2.GoesStore laneE2 (writes 4)
        (laneE2.wants 0 4 (fun th => 0 + ((laneE2.t.laneOf th * 2 ^ 2 : Nat) : Int)) (laneE2.dataOf 8 4) noData)
    ∧ laneSA.LaneIssues gM.msel gM.pclass laneE2
    ∧ leadS2.GoesStore leadE2 (writes 4) (leadE2.wants 0 4 (fun _ => 0) (leadE2.dataOf 8 4) noData) :=
  by
    and_intros <;> first
      | exact goesStore_of (by decide) rfl (by decide +kernel) | decide | (unfold Env.Same; decide) | rfl | exact .inl rfl

/-- The entry that aq0 holds names the scratchpad, and a load and a store can go there. -/
theorem witness_StoresAndQueueAddressesGoInFlight_queues :
    laneE2.regsOk [(10, 1), (8, 1)] = true ∧ laneE2.act ≠ [] ∧ laneE2.full 0 = false
    ∧ laneS2.entriesFor laneE2.t 1 laneE2.act = true ∧ laneS2.entriesFor laneE2.t 2 laneE2.act = false
    ∧ (laneS2.popFor 0 1 laneE2.act).Goes laneE2 (reads 4) 0
        (laneE2.act.map (fun th => queueWant laneE2 10 0 ((laneS2.entryFor laneE2.t 1 th).getD 0) noData th))
    ∧ laneS2.GoesStore laneE2 (writes 4)
        (laneE2.act.map (fun th => queueWant laneE2 10 0 ((laneS2.entryFor laneE2.t 1 th).getD 0) (laneE2.dataOf 8 4) th)) :=
  ⟨by decide, by decide, rfl, by decide, by decide, goes_of (by decide) rfl (by decide +kernel), goesStore_of (by decide) rfl (by decide +kernel)⟩

theorem witness_AtomicsPutUpdatesInFlight :
    laneS2.LaneIssues gT.msel gT.pclass laneE2 ∧ laneE2.regsOk [(4, 2), (8, 2)] = true
    ∧ laneS2.Goes laneE2 { bytes := 4, align := 4, write := true, access := 2 } 2
        (laneE2.wants 0 4 (fun _ => 0) (laneE2.dataOf 8 4) (laneE2.dataOf 9 4))
    ∧ laneS2.Goes laneE2 { bytes := 4, align := 4, write := true, access := 2 } 5 (laneE2.wants 0 4 (fun _ => 0) (laneE2.dataOf 8 4) noData)
    ∧ laneS2.Goes laneE2 (reads 16) 5 (laneE2.wants 0 4 (fun _ => 0) noData noData) :=
  by and_intros <;> first | rfl | exact .inl rfl | exact goes_of (by decide) rfl (by decide +kernel) | decide

/-- A team one of whose home warps has an operation in oc0. -/
def laneTW : Team := { laneT2 with warps := [(0, { oc := [(0, [{ op := 5, done := false }])] })] }

/-- A team whose threads name a line at 2^52. -/
def laneTH : Team := { laneT2 with threads := laneT2.threads.map (fun p => (p.1, { p.2 with regs := [(5, 0x100000)] })) }

theorem witness_BarrierInstructionsAndWaitsOrder :
    laneS2.LaneIssues sM.msel sM.pclass laneE2 ∧ laneE2.regsOk [(6, 1), (8, 1)] = true
    ∧ (let ws := laneE2.wants 2 6 (fun _ => 0) (fun th => (laneE2.t.thread th).vreg 8) noData
       laneS2.Goes laneE2 { bytes := 16, align := 16, write := true, access := 2 } 2 ws ∧ ∀ w ∈ ws, w.data < 4096)
    ∧ (let ws := laneE2.wants 2 6 (fun _ => 0) (fun th => (laneE2.t.thread th).vreg 4) noData
       laneS2.Goes laneE2 { bytes := 16, align := 16, write := true, access := 2 } 1 ws ∧ ws.filter (fun w => decide (4096 ≤ w.data)) ≠ [])
    ∧ laneS2.Goes laneE2 (reads 16) 0 (laneE2.wants 2 6 (fun _ => 0) (fun th => (laneE2.t.thread th).vreg 8) noData)
    ∧ (∀ h ∈ laneE2.hws, countOf (laneE2.t.warps.get {} h).oc 0 ≤ 0)
    ∧ (∃ h ∈ ({ laneE2 with t := laneTW } : Env).hws, 0 < countOf (laneTW.warps.get {} h).oc 0)
    ∧ laneE2.act ≠ [] ∧ laneE2.full 1 = false ∧ leadS2.LeadIssues 0 0 leadE2
    ∧ (∀ th ∈ laneE2.act, wrap (wrap (((laneE2.t.thread th).vpair 4 : Int) + 0) 64 : Nat) 64 < 2 ^ 52)
    ∧ (∃ th ∈ laneE2.act, 2 ^ 52 ≤ wrap (wrap (((laneTH.thread th).vpair 4 : Int) + 0) 64 : Nat) 64) :=
  by and_intros <;> first | exact .inl rfl | exact goes_of (by decide) rfl (by decide +kernel) | decide | rfl

/-! ## Witnesses: engines, scheduling, traps -/

/-- A context with a trap handler, a service ring of four slots, two interrupts, and queue 0 of two slots enabled for SPAWN. -/
def ctx1 : Ctx := { ptRoot := 0x4001, trapBase := 0x1008, svcBase := 0x2012, irqCount := 2, queues := [(0, { cfg := 0x3107 })] }
def mkOp (k : OpKind) (fid : Option Nat) (l : List Acc) : Op :=
  { kind := k, tid := 0, fid := fid, core := 0, hws := [0], counter := none, clause := 0x1000, index := 0, cls := 0, pclass := 0, lanes := l }
def leadC : State := { leadS2 with ctxs := [(0, ctx1)] }
def laneC : State := { laneS2 with ctxs := [(0, ctx1)] }
theorem lead_issues_c : leadC.LeadIssues 0 0 leadE2 := ⟨⟨rfl, rfl, .inl rfl⟩, rfl⟩
theorem lane_issues_c : laneC.LaneIssues 0 0 laneE2 := ⟨⟨rfl, rfl, .inl rfl⟩, rfl⟩

/-- A result that is a value, and that is this value. -/
def okE {α : Type} (r : Except Nat α) : Bool := match r with
  | .ok _ => true
  | .error _ => false
theorem okE_ok {α : Type} {r : Except Nat α} (h : okE r = true) : ∃ x, r = .ok x := by
  cases r with
  | ok x => exact ⟨x, rfl⟩
  | error e => cases h
def okIs {α : Type} [DecidableEq α] (r : Except Nat α) (y : α) : Bool := match r with
  | .ok x => x == y
  | .error _ => false
theorem okIs_ok {α : Type} [DecidableEq α] {r : Except Nat α} {y : α} (h : okIs r y = true) : r = .ok y := by
  cases r with
  | ok x => simpa [okIs] using h
  | error e => cases h
def errIs {α : Type} (r : Except Nat α) (e : Nat) : Bool := match r with
  | .ok _ => false
  | .error x => x == e
theorem errIs_error {α : Type} {r : Except Nat α} {e : Nat} (h : errIs r e = true) : r = .error e := by
  cases r with
  | ok x => cases h
  | error x => simpa [errIs] using h

def crowded : State := { laneC with cores := [(0, { xlat := [(0, leaf0)], kicks := (upFrom 0 241).map (fun n => ⟨9, 0, 0, n⟩) })] }

/-- The first slot of queue 0 lies in a poisoned sector. -/
def spoiled : State := { leadC with glob := { leadC.glob with poison := [0x203000 / 32] } }

theorem witness_KicksAndSpawnsAreQueuedOrSuspend :
    laneC.Issues 0 0 laneE2 ∧ laneE2.regsOk [(6, 1), (8, 1)] = true
    ∧ laneC.Goes laneE2 { bytes := 128, align := 128, write := false, access := 0 } 3
        (laneE2.wants 2 6 (fun _ => 0) (fun th => laneE2.dataOf 8 1 th) noData)
    ∧ (laneC.core 0).kicks.length + laneC.unhanded 0 + 16 ≤ 256
    ∧ crowded.Issues 0 0 laneE2 ∧ ¬((crowded.core 0).kicks.length + crowded.unhanded 0 + 16 ≤ 256)
    ∧ leadC.Issues 0 0 leadE2 ∧ leadE2.pair false 4 0 % 16 = 0 ∧ leadC.replayable leadE2.t = false ∧ leadC.agentsQuiet 0 leadC.nextId [leadThread] = true
    ∧ bit (leadC.queueRegs 0 0).cfg 0 = true ∧ bit (leadC.queueRegs 0 0).cfg 1 = true ∧ ((leadC.doneAhead 0 0).queueRegs 0 0).full = false
    ∧ (∃ bs, leadC.engineRead 0 0x2000 256 = .ok bs) ∧ leadC.engineXlat 0 0x3000 256 true = .ok (.glob, 0x203000)
    ∧ (leadC.recall .glob 0x203000 256).poisonAt .glob 0x203000 256 = false
    ∧ ({ cfg := 0x3107, write := 2 } : QueueRegs).full = true
    ∧ (leadC.doneAhead 0 0).slotPoisoned 0 0x3000 = false ∧ spoiled.slotPoisoned 0 0x3000 = true
    ∧ laneE2.Same (laneE2.pair false 4) ∧ laneE2.Same (laneE2.single true 0)
    ∧ ({ leadC with ops := [(5, mkOp .st none [{ lane := 0, thread := leadThread, space := 0, addr := 0 }])] } : State).agentsQuiet 0 9 [leadThread] = false :=
by
  refine ⟨lane_issues_c.1, by decide, goes_of (by decide) rfl (by decide +kernel), by decide +kernel, ⟨rfl, rfl, .inl rfl⟩, by decide +kernel, lead_issues_c.1, ?_⟩
  unfold Env.Same
  and_intros <;> first | decide +kernel | exact okE_ok (by decide +kernel) | exact okIs_ok (by decide +kernel)

theorem witness_OperationsEnterTheirCounters :
    (mkOp .ld none []).counter = none ∧ ({ mkOp .ld none [] with counter := some 0 } : Op).counter = some 0
    ∧ laneS2.teams.look laneE2.tid = some laneE2.t ∧ laneE2.hws.Nodup ∧ leadS2.teams.look leadE2.tid = some leadE2.t
    ∧ laneE2.t.warps.look 0 = some {} ∧ 0 ∈ laneE2.hws := ⟨rfl, rfl, rfl, by decide, rfl, rfl, by decide⟩

/-- A warp whose mask 1 names nobody: an instruction under it has no active thread. -/
def laneE0 : Env := { laneE2 with act := [] }
theorem lane_issues0 : laneC.LaneIssues 1 0 laneE0 := ⟨⟨rfl, rfl, .inl rfl⟩, rfl⟩
def gX : FmtX := { zX with acc := 32, arow := 8, bdesc := 10 }

theorem witness_MatrixInstructionsEnterTheArray :
    laneC.LaneIssues gX.msel gX.pclass laneE2 ∧ gX.sparse = 0 ∧ laneE2.regsOk (mtxRegs gX) = true
    ∧ laneE2.act ≠ [] ∧ laneE2.Same (fun th => (laneE2.t.thread th).vpair 10) ∧ gX.nobar.toNat = 1
    ∧ (let m := mtxOf gX false true laneE2 (laneE2.act.headD 0)
       let row := fun th => m.high + (laneE2.t.thread th).vreg 8
       laneC.itemFault laneE2 (m.alignItems laneE2 row ++ laneE2.act.flatMap (fun th => m.barItem th (laneE2.t.laneOf th)) ++ m.winItems laneE2
         ++ m.items laneE2 row) = none)
    ∧ (let m := mtxOf gX false true laneE0 0
       laneC.itemFault laneE0 (m.barItem (laneE0.all.headD 0) (laneE0.t.laneOf (laneE0.all.headD 0))) = none)
    ∧ laneE2.full 4 = false ∧ laneC.arrayFull 0 0 = false
    ∧ ({ laneC with cores := [(0, { arrays := [(0, [1, 2, 3, 4])] })] } : State).arrayFull 0 0 = true
    ∧ laneC.LaneIssues { gX with msel := 1 }.msel gX.pclass laneE0 ∧ laneE0.act = []
    ∧ laneE2.regsOk [(4, 2), (8, 1), (12, 1)] = true ∧ laneE2.Same (fun th => (laneE2.t.thread th).vpair 4)
    ∧ laneE2.agents ≠ [] ∧ 0x2000 % 128 = 0
    ∧ laneC.itemFault laneE2 (pageItems 0 0 0 0x2000 128) = none ∧ (∀ i ∈ pageItems 0 0 0 0x2000 128, laneC.needsWalk laneE2 i.want = false) :=
by
  refine ⟨lane_issues_c, rfl, by decide, by decide, by unfold Env.Same; decide, rfl, rfl, rfl, rfl, by decide, by decide, lane_issues0, ?_⟩
  unfold Env.Same
  and_intros <;> first | decide | rfl

/-- An elastic launch of the team. -/
def elastic : Launch := { ctx := 0, queue := 0, slot := 0, image := List.replicate 256 0xFF, ident := 1 }

theorem witness_SchedulingAndSystemInstructionsComplete :
    laneC.Issues 0 0 laneE2 ∧ laneE2.act ≠ [] ∧ (1 : BitVec 6).toNat % 2 = 1
    ∧ leadC.Issues 0 0 leadE2 ∧ leadE2.fid = none ∧ elastic.elastic = true ∧ leadE2.t.withdrawn = false
    ∧ leadE2.last = true ∧ leadE2.t.lead.hmode = false
    ∧ laneE2.regsOk [(2, 1), (3, 1), (4, 1)] = true ∧ laneE2.Same (fun th => (laneE2.t.thread th).vreg 2) :=
by
  refine ⟨lane_issues_c.1, by decide, by decide, lead_issues_c.1, ?_⟩
  unfold Env.Same
  and_intros <;> first | decide | rfl

def svcOp : Op := { mkOp .svc none [] with started := true, args := [1, 2, 3, 4, 5, 6, 0] }
def leadSvc (o : Op) : State := { leadC with ops := [(5, o)], arg := { a := 5 } }

theorem witness_ServiceCallsAndInterruptsAreQueuedAndGoOut :
    leadC.Issues 0 0 leadE2 ∧ leadC.replayable leadE2.t = false ∧ leadE2.full 7 = false
    ∧ ¬(bit ctx1.svcBase 4 = false ∨ 12 < ctx1.svcBase % 16 ∨ (ctx1.svcReserved + 2 ^ 32 - ctx1.svcTail) % 2 ^ 32 = 2 ^ (ctx1.svcBase % 16))
    ∧ leadE2.single true 0 0 < ctx1.irqCount ∧ ctx1.irqCount ≤ leadE2.single false 6 0
    ∧ laneC.Issues 0 0 laneE2 ∧ laneE2.regsOk [(0, 2), (2, 2), (8, 8)] = true
    ∧ laneE2.Same (laneE2.pair false 0) ∧ (∀ i < 4, laneE2.Same (fun th => laneE2.pair false (8 + 2 * i) th))
    ∧ (leadSvc svcOp).liveOp 5 = some svcOp ∧ svcOp.started = true ∧ (leadSvc svcOp).accessesDone 5 svcOp = true
    ∧ ((leadSvc svcOp).ctx 0).svcWritten.has 0 = false ∧ (∃ u, (leadSvc svcOp).engineWrite 0 0x2000 (svcRecord (leadSvc svcOp) svcOp leadT2) = .ok u)
    ∧ (∃ c, (leadSvc svcOp).engineWrite 0 0x200000 (svcRecord (leadSvc svcOp) svcOp leadT2) = .error c) :=
by
  refine ⟨lead_issues_c.1, rfl, rfl, by decide, by decide, by decide, lane_issues_c.1, ?_⟩
  unfold Env.Same
  and_intros <;> first | decide | rfl | exact okE_ok (by decide +kernel) | exact ⟨8, rfl⟩

theorem witness_LeadFaultsEnterTheHandlerOrKillTheLaunch :
    leadC.LeadIssues 0 0 leadE2 ∧ leadE2.t.lead.hmode = false ∧ (leadC.ctx leadE2.t.ctx).trapBase ≠ 0 ∧ ({ code := 0x0D } : Raise).code ≠ 0x0A
    ∧ ({ leadS2 with launches := [(0, elastic)] } : State).Issues 0 0 leadE2
    ∧ ({ leadS2 with launches := [(0, elastic)] } : State).launches.look leadE2.t.launch = some elastic ∧ (leadS2.ctx 0).trapBase = 0 :=
  ⟨lead_issues_c, rfl, by decide, by decide, ⟨rfl, rfl, .inl rfl⟩, rfl, rfl⟩

theorem witness_LaneFaultsParkTheWarp :
    laneC.LaneIssues 0 0 laneE2 ∧ laneE2.fid = some 0 ∧ (laneC.ctx laneE2.t.ctx).trapBase ≠ 0 ∧ laneE2.t.lead.canEnter = true
    ∧ ({ hmode := true } : Lead).canEnter = false := ⟨lane_issues_c, rfl, by decide, by decide, by decide⟩

/-- A lead thread with two instructions in its clause; one in handler mode that may resume at 0x1008. -/
def leadT3 : Team := { leadT2 with lead := { leadT2.lead with header := 0xA70000000FC7E220, words := [0, 0] } }
def leadT4 : Team := { leadT2 with lead := { leadT2.lead with hmode := true, resume := 0x1008, trap := { leadf := true } } }
theorem witness_TrapAndEretEnterAndLeaveTheHandler :
    ({ leadC with teams := [(0, leadT3)] } : State).LeadIssues 0 0 { leadE2 with t := leadT3, header := 0xA70000000FC7E220 }
    ∧ ({ leadE2 with t := leadT3, header := 0xA70000000FC7E220 } : Env).last = false ∧ leadT3.lead.hmode = false ∧ ctx1.trapBase ≠ 0
    ∧ leadE2.header ≠ 0 ∧ leadE2.idx < leadE2.count ∧ leadS2.ctx 0 = { ptRoot := 0x4001 } ∧ leadE2.last = true
    ∧ laneC.LaneIssues 1 0 laneE0 ∧ laneE0.act = []
    ∧ ({ leadC with teams := [(0, leadT4)] } : State).LeadIssues 0 0 { leadE2 with t := leadT4 } ∧ ({ leadE2 with t := leadT4 } : Env).last = true
    ∧ leadT4.lead.hmode = true ∧ leadT4.lead.trap.kind = 0
    ∧ ({ leadC with teams := [(0, leadT4)] } : State).GoodTarget { leadE2 with t := leadT4 } true leadT4.lead.resume.toNat
    ∧ ({ leadC with teams := [(0, leadT4)] } : State).headerAt { leadE2 with t := leadT4 } true leadT4.lead.resume.toNat = true
    ∧ ({ leadC with teams := [(0, leadT4)] } : State).headerAt { leadE2 with t := leadT4 } true 0x2000000 = false
    ∧ ({ leadC with teams := [(0, leadT4)] } : State).checkTarget { leadE2 with t := leadT4 } true 0 0x1009 = .fault 0x03
    ∧ ({ index := 31 } : TrapRec).kind = 0 :=
by
  and_intros <;> first | rfl | exact .inl rfl | decide | exact ⟨leadHeader, rfl, by decide⟩

theorem witness_ReturnsRestoreTheLeadThread :
    ({ leadC with teams := [(0, leadT4)] } : State).teams.look 0 = some leadT4 ∧ leadT4.lead.hmode = true ∧ leadT4.lead.revived = false
    ∧ leadT4.lead.retWhy = none ∧ leadT4.lead.queue = [] ∧ leadT4.lead.regs.rising = true
    ∧ (leadT4.lead.trap.leadf = true ∧ leadT4.lead.trap.kind = 0) ∧ leadT4.lead.trap.count ≤ leadT4.lead.trap.index + 1 :=
  ⟨rfl, rfl, rfl, rfl, rfl, by decide, ⟨rfl, rfl⟩, by decide⟩

/-! ## Witnesses: Saddle and Awl -/

/-- The page of `base` is also held by port 0. -/
def baseP : State := { base with ms := { base.ms with xlat := [(0, [(0, leaf0)]), (4, [(0, leaf0)])] } }

/-- An access of a port goes, to a state and pieces with a property. -/
def goesTo (r : Reach) (p : State → List Piece → Bool) : Bool := match r with
  | .go t l => p t l
  | _ => false
theorem goesTo_go {r : Reach} {p : State → List Piece → Bool} (h : goesTo r p = true) : ∃ t l, r = .go t l ∧ p t l = true := by
  cases r with
  | go t l => exact ⟨t, l, rfl, h⟩
  | wait _ _ => cases h
  | fail _ _ _ => cases h
theorem goes_go {r : Reach} (h : goesTo r (fun _ _ => true) = true) : ∃ t l, r = .go t l := by
  obtain ⟨t, l, e, -⟩ := goesTo_go h
  exact ⟨t, l, e⟩

/-- An entry of a reduction of two contributors, and a chunk context of it at index 7. -/
def entry1 : TileEntry := { op := 0, fmt := 0, ncontrib := 2, myidx := 0, timeout := 0, result := 0x2000, barrier := 0x3000, bkfor := 0xFFFF, bkto := 0xFFFF, bksrc := 0, pkgs := [0, 1], sites := [0, 0] }
def chunk1 : Chunk := { coll := 3, tile := 1, chunk := 0, round := 0, entry := entry1 }
def tile1 : Tile := { known := true, entry := some entry1, fired := true }

/-- Packet context 0 of port 0 executes, with chunk context 7 in r4 and a leaf's range in r3 and r5. -/
def hand (pkt : Packet) (regs : Tab DWord) : Handler := { pc := 0, pkt := pkt, regs := regs }
def sadS (h : Handler) : State :=
  { baseP with who := .handler 0 0, sad := { ports := [(0, { handlers := [(0, h)], chunks := [(7, chunk1)], run := true })], tiles := [(tileKey 3 1, tile1)] } }
def hComb : Handler := hand { kind := 4, coll := 3, tile := 1, data := [0, 0] } [(4, 1), (5, 7)]
def hPart : Handler := hand { kind := 4, coll := 3, tile := 1 } [(3, 1), (4, 3), (5, 7)]
def chunkSeen : Chunk := { chunk1 with covered := [0] }
def chunkGone : Chunk := { chunk1 with gone := [0] }

theorem witness_MicrocodeMovesCombinesAndSends :
    (sadS hComb).who = .handler 0 0 ∧ ((sadS hComb).port 0).handlers.look 0 = some hComb ∧ hComb.count < 256
    ∧ hComb.reg 5 = 7 ∧ ((sadS hComb).port 0).chunks.look 7 = some chunk1
    ∧ isNode treeFuel 0 entry1.ncontrib (hComb.reg 3 % 2 ^ 16) (hComb.reg 4 % 2 ^ 16) = true ∧ chunk1.tomb = false
    ∧ (∀ j ∈ upFrom 0 1, chunk1.gone.has j = false) ∧ (∀ j ∈ upFrom 0 1, chunk1.covered.has j = false)
    ∧ (∃ j ∈ upFrom 0 1, chunkSeen.covered.has j = true) ∧ (∃ j ∈ upFrom 0 1, chunkGone.gone.has j = true)
    ∧ ((sadS hPart).port 0).handlers.look 0 = some hPart
    ∧ isNode treeFuel 0 entry1.ncontrib (hPart.reg 3 % 2 ^ 16) (hPart.reg 4 % 2 ^ 16) = false
    ∧ ((sadS hComb).coll 3).kind ≠ 3 ∧ ({ cfg := 7 } : Coll).kind = 3 ∧ ((sadS hComb).tile 3 1).entry = some entry1 ∧ (5 : BitVec 4).toNat < 6 := by
  and_intros <;> first | decide | rfl

/-- The timeout of a gather whose one absent contributor has a backup: into a page that is mapped, into one that is not, and denied. -/
def gatherOf (result : Nat) (w : Wait) : Gathered :=
  let x : Chunk := { chunk1 with backups := [{ lo := 0, hi := 1, vals := some [0] }] }
  let s := (sadS hComb).updSad (fun d => { d with colls := [(3, { cfg := 7 })] })
  s.gatherTimeout 0 7 x { entry1 with result := result } w [0]

theorem witness_MicrocodeMovesCombinesAndSends_gather :
    (∃ t, gatherOf 0x2000 none = .done t) ∧ (∃ t w, gatherOf 0x400000 none = .wait t w)
    ∧ (∃ t va, gatherOf 0x400000 (some (0, true)) = .fail t va) := by
  have h : ∀ g : Gathered, (match g with
      | .done _ => 0
      | .wait _ _ => 1
      | .fail _ _ => 2) = 0 → ∃ t, g = .done t := by
    intro g; cases g <;> simp
  refine ⟨h _ (by decide +kernel), ?_, ?_⟩
  · exact ⟨_, _, rfl⟩
  · exact ⟨_, _, rfl⟩

def hPut : Handler := hand { kind := 10, data := [1, 2], flags := 0 } [(1, 0x2000), (2, 5)]
def hRes : Handler := hand { kind := 6, coll := 3, tile := 1, data := [1, 2] } [(1, 0x2000)]

theorem witness_MicrocodeDisposesOfPacketsOrFaults :
    ((sadS hRes).port 0).handlers.look 0 = some hRes ∧ hRes.count < 256
    ∧ (((sadS hRes).updSad (fun d => { d with colls := [(3, { cfg := 2 ^ 48 })] })).cbufFull 3 98) = false
    ∧ (∃ t l, (sadS hRes).reach 0 0 0x2000 2 true none = .go t l)
    ∧ ((sadS hPut).port 0).handlers.look 0 = some hPut ∧ hPut.pkt.kind = 10 ∧ hPut.err = false ∧ hPut.counted = false ∧ hPut.reg 2 < 4096
    ∧ bit hPut.pkt.flags 2 = false
    ∧ (({ sadS hPut with sad := { (sadS hPut).sad with ctrs := [(0, { en := true })], keys := [(0, { valid := true })], trust := [(0, 1)] } } : State).putRefused 0 hPut.pkt) = false
    ∧ tile1.entry = some entry1 ∧ entry1.result ≠ 0 ∧ tile1.round = hRes.pkt.round
    ∧ ({ hRes with disposed := true } : Handler).disposed = true ∧ hRes.disposed = false ∧ 256 ≤ ({ hRes with count := 256 } : Handler).count
    ∧ 0x1000 ≤ (({ hRes with regs := [(6, 0x1001)] } : Handler).regs.get 0 6).toNat := by
  refine ⟨rfl, by decide, by decide, goes_go (by decide), ?_⟩
  and_intros <;> first | decide | rfl

/-- Awl 0 with an address, a local address, an event mask and an image in its registers; it owns sends 0 and 1. -/
def awl1 : Awl := { x := [(5, 0x2000), (6, 64), (7, 6), (8, 2)], rangeBase := 0, rangeCount := 2, pend := 4 }
def awlS (a : Awl) : State := { baseP with who := .awl 0, awls := [(0, a)] }

theorem witness_AwlContextAccessesMoveBytesOrTrap :
    (awlS awl1).who = .awl 0 ∧ awl1.xr 5 % 2 ^ 3 = 0 ∧ awl1.xr 5 < 2 ^ 52 ∧ awl1.xr 6 % 64 = 0 ∧ awl1.xr 6 + 64 ≤ 0x40000
    ∧ (∃ t l, (awlS awl1).reach 0 0 0x2000 8 false none = .go t l ∧ (t.readPieces l).2.all (fun b => !b.2) = true)
    ∧ (∃ t l, (awlS awl1).reach 0 0 0x2000 64 false none = .go t l ∧ (t.readPieces l).2.all (fun b => !b.2) = true)
    ∧ (∃ t l, (awlS awl1).reach 0 0 0x2000 64 true none = .go t l) ∧ awl1.bad 64 64 = false
    ∧ awl1.xr 8 % 2 ^ 3 ≠ 0 := by
  refine ⟨rfl, by decide, by decide, by decide, by decide, goesTo_go ?_, goesTo_go ?_, goes_go (by decide), by decide, by decide⟩
  · decide +kernel
  · decide +kernel

theorem witness_AwlCustomInstructionsComplete :
    (awlS awl1).who = .awl 0 ∧ awl1.xr 6 % 64 = 0 ∧ awl1.xr 6 + 64 ≤ 0x40000 ∧ awl1.rangeBase ≤ awl1.xr 9 ∧ awl1.xr 9 < awl1.rangeBase + awl1.rangeCount
    ∧ awl1.xr 9 ≤ 8191 ∧ awl1.bad 64 64 = false
    ∧ awl1.xr 8 < 4096 ∧ ((awlS awl1).ctr (awl1.xr 8)).owner = 0 ∧ awl1.xr 8 % 64 ≠ 0
    ∧ ¬(awl1.rangeBase ≤ awl1.xr 8 ∧ awl1.xr 8 < awl1.rangeBase + awl1.rangeCount ∧ awl1.xr 8 ≤ 8191)
    ∧ ¬(awl1.xr 5 < 4096 ∧ ((awlS awl1).ctr (awl1.xr 5)).owner = 0)
    ∧ awl1.xr 7 % 32 ≠ 0 ∧ Nat.land awl1.pend (awl1.xr 7 % 32) ≠ 0 ∧ awl1.xr 6 % 32 = 0 ∧ Nat.land awl1.pend (awl1.xr 8 % 32) = 0 := by
  and_intros <;> first | decide | rfl

/-! ## Witnesses: steps of the machine -/

/-- `base` with code in memory for both streams, so that a clause of one word can be fetched. -/
def codeS : State := { base with cores := [(0, { xlat := [(0, leaf0)], icache := [(0x201008, leadHeader), (0x201010, laneHeader),
                                                                                  (0x201018, 0), (0x202008, leadHeader), (0x202010, 0)] })] }
def leadT5 : Team := { leadT with lead := { pc := 0x2008, run := .running .unfetched } }
def warp5 : Warp := { threads := upFrom 0 16, quarter := 0, pc := 0x1010 }
def laneT5 : Team := { laneT with threads := laneT.threads.map (fun p => (p.1, { p.2 with pc := 0x1010 })), formed := [(0, warp5)] }
/-- Threads held at a meeting, one of them for long, and threads that wait to reform. -/
def heldT : Team := { laneT with threads := laneT.threads.map (fun p => (p.1, { p.2 with run := .held, meet := 0x1010, pc := 0x1010, holdcnt := 65536 })), formed := [] }
def stopT (why : Why) : Team := { leadT with lead := { leadT.lead with run := .running (.blocked why), stall := 2 ^ 20 }, queues := [(1, { ents := [] })] }
def stopW (why : Why) : Team := { laneT2 with formed := [(0, { laneW with run := .blocked why })] }
def putT (t : Team) : State := { codeS with teams := [(0, t)], ctxs := [(0, ctx1)] }
/-- The last word of this clause is a vote, under mask 0. -/
def voteS : State := { codeS with teams := [(0, { heldT with threads := heldT.threads.map (fun p => (p.1, { p.2 with run := .reforming })) })], cores := [(0, {
  xlat := [(0, leaf0)]
  icache := [(0x201010, laneHeader + 1), (0x201018, 0x27)] })] }
def timed (l : Lead) : Lead := { l with timer := { armed := true } }
def isOk (f : Fetched) : Bool := match f with
  | .ok _ _ => true
  | _ => false
theorem isOk_ok {f : Fetched} (h : isOk f = true) : ∃ w ws, f = .ok w ws := by
  cases f with
  | ok w ws => exact ⟨w, ws, rfl⟩
  | _ => cases h

theorem witness_ClausesAreFetchedReleasedAndEnded :
    (putT leadT5).teams.look 0 = some leadT5 ∧ (putT leadT5).mayIssue leadT5 = true ∧ (∃ e, (putT leadT5).partyEnv 0 none = some e)
    ∧ (∃ ws, (putT leadT5).readClause 0 0 0x2008 true = .ok leadHeader ws) ∧ headerOk true leadHeader = true
    ∧ (∀ c, Cls.ofCode (getHeader leadHeader).cls = some c → classOk true c = true)
    ∧ headerOk true 0 = false ∧ (putT laneT5).mayIssue laneT5 = true ∧ laneT5.standing 0 0x1010 .ready = []
    ∧ laneT5.unfetched 0 0x1010 = [(0, warp5)] ∧ (∃ ws, (putT laneT5).readClause 0 0 0x1010 false = .ok laneHeader ws)
    ∧ laneT5.standing 0 0x1010 .reforming = [] ∧ (warp5.reformed = true ∨ ∀ th ∈ warp5.threads, (laneT5.thread th).mustMeet 0x1010 = false) ∧ reformMsel laneHeader [0] = none
    ∧ (∃ e, (putT laneT5).partyEnv 0 (some 0) = some e ∧ e.core = 0 ∧ e.pc = 0x1010) ∧ headerOk false laneHeader = true
    ∧ (∀ p ∈ heldT.threads, heldT.hwOf p.1 = 0 → p.2.live = true → p.2.meet = 0x1010 → p.2.done = false →
        (p.2.run = .held ∧ p.2.pc = 0x1010) ∨ (putT heldT).parked 0 heldT p.1 = true)
    ∧ (∃ th ∈ heldT.heldAt 0 0x1010, 65536 ≤ (heldT.thread th).holdcnt)
    ∧ (stopW (.queueEmpty 0 [0, 1])).whyOf (some 0) = some (.queueEmpty 0 [0, 1])
    ∧ (∀ th ∈ [0, 1], ((putT (stopW (.queueEmpty 0 [0, 1]))).entryFor (stopW (.queueEmpty 0 [0, 1])) 0 th).isSome = true)
    ∧ (stopT (.queueFull 1 7 none)).whyOf none = some (.queueFull 1 7 none) ∧ (stopT (.queueFull 1 7 none)).occupancy 1 < queueDepth 1
    ∧ (stopW (.counterWait 0 0 [0])).whyOf (some 0) = some (.counterWait 0 0 [0]) ∧ (stopW (.counterWait 0 0 [0])).countLe [0] false 0 0 = true
    ∧ (stopW (.counterFull 0 [0])).whyOf (some 0) = some (.counterFull 0 [0]) ∧ (stopW (.counterFull 0 [0])).countLe [0] false 0 62 = true
    ∧ (timed leadT.lead).timer.armed = true ∧ (timed leadT.lead).timer.remain = 0 ∧ heldT.formed = []
    ∧ 2 ^ 20 ≤ (stopT (.queueFull 1 7 none)).lead.stall ∧ ({ leadT.lead with queue := [{}] } : Lead).canEnter = true
    ∧ (∀ c ∈ ({ run := .halting } : Lead).oc, c.2 = []) := by
  refine ⟨rfl, rfl, ⟨_, rfl⟩, ⟨_, rfl⟩, ?_⟩
  have fetched : ∃ ws, (putT laneT5).readClause 0 0 0x1010 false = .ok laneHeader ws := ⟨_, rfl⟩
  have party : ∃ e, (putT laneT5).partyEnv 0 (some 0) = some e ∧ e.core = 0 ∧ e.pc = 0x1010 := ⟨_, rfl, rfl, rfl⟩
  and_intros <;> first | exact fetched | exact party | decide | rfl

/-- A fetch that needs nothing from the L2; a spawn whose earlier accesses are done; threads that stand at a meeting header. -/
def spawnT : Team := { leadT with lead := { leadT.lead with run := .running (.blocked (.access 5)) } }
def spawnS : State := { putT spawnT with ops := [(5, { mkOp .spawn none [] with args := [0x2000, 0] })] }
def meetT : Team := { laneT with threads := laneT.threads.map (fun p => (p.1, { p.2 with pc := 0x1010, meet := 0x1010, run := .ready })), formed := [] }
theorem witness_ClausesAreFetchedReleasedAndEnded_3 :
    (putT leadT5).codeNeeds 0 0 0x2008 = [] ∧ (putT leadT5).ms.asks = [] ∧ (putT leadT5).tainted (.fetch 0) = false
    ∧ (putT leadT5).ms.retry.look (Requester.fetch 0).key = none ∧ (putT laneT5).codeNeeds 0 0 0x1010 = []
    ∧ (putT meetT).codeNeeds 0 0 0x1010 = [] ∧ meetT.unfetched 0 0x1010 = [] ∧ meetT.standing 0 0x1010 .ready = upFrom 0 16
    ∧ (putT meetT).laneHeader (meetT.coreOf 0) 0 0x1010 = true
    ∧ spawnS.blockedBy 0 none = some (.access 5) ∧ (spawnS.liveOp 5).isSome = true ∧ spawnS.agentsQuiet 0 5 [leadThread] = true
    ∧ laneT5.formed ≠ [] ∧ stopT (.queueEmpty 0 []) ≠ leadT
    ∧ (stopT (.access 5)).whyOf none = some (.access 5) ∧ ({ mkOp .waita none [] with parks := true } : Op).cuttable = true
    ∧ (let t := { stopW (.queueEmpty 0 [0]) with warps := [(0, { timer := { armed := true } })] }
       (t.warps.get {} 0).timer.armed = true ∧ (t.warps.get {} 0).timer.remain = 0
        ∧ t.formed = [(0, { laneW with run := .blocked (.queueEmpty 0 [0]) })] ∧ (∃ th ∈ upFrom 0 16, t.hwOf th = 0)) := by
  and_intros <;> first | decide +kernel | rfl

/-- A request of 32 bytes from scratchpad address 1024 to 2048. -/
def plainCopy : Copy :=
  { tid := 0, core := 0, record := some 128, mode := 0, scope := 4, credit := false, srcSpace := 2, dstSpace := 2, barSpace := 2, evict := 0,
    src := 1024, dst := 2048, bar := 0, total := 32, gaps := [(0, 32)] }

/-- A clause of one cross-lane instruction, at which every participant waits to reform; a finished team; a retired one. -/
def doneT : Team := { leadT with threads := leadT.threads.map (fun p => (p.1, { p.2 with run := .exited })), lead := { run := .ended } }
theorem witness_ClausesAreFetchedReleasedAndEnded_2 :
    (∃ h ws m, voteS.readClause 0 0 0x1010 false = .ok h ws ∧ reformMsel h ws = some m
      ∧ ∀ th ∈ (voteS.teams.get doneT 0).participants m 0, ((voteS.teams.get doneT 0).thread th).run = .reforming
          ∧ ((voteS.teams.get doneT 0).thread th).pc = 0x1010)
    ∧ doneT.resident = true ∧ doneT.finished = true ∧ ((putT doneT).mayIssue doneT) = true
    ∧ ({ putT doneT with copies := [(0, plainCopy)] } : State).copies.any (fun p => p.2.tid == 0) = true ∧ (putT { doneT with place := .retired }).teamSpent 0 = true :=
  ⟨⟨_, _, 0, rfl, rfl, by decide⟩, by decide, by decide, by decide, by decide⟩

/-- A load, a store and the like of one lane in flight at a home. -/
def oneLane (h : Home) (x : Nat) : Acc := { lane := 0, thread := 0, space := 0, addr := 0x2000, home := some (h, x) }
def inFlight (o : Op) : State := { laneS2 with ops := [(5, o)], arg := { a := 5, b := 0 } }
def opG (k : OpKind) : Op := { mkOp k (some 0) [oneLane .glob 0x202000] with size := 2 }
def opR (k : OpKind) : Op := { mkOp k (some 0) [oneLane (.remote 3) 0x202000] with size := 2 }
def onChipLane : Acc := { oneLane (.scratch 0) 128 with space := 2, addr := 128 }
def opC (k : OpKind) : Op := mkOp k (some 0) [onChipLane]
def gapT : Team := { laneT2 with scratch := { absent := [1] } }
/-- The same with the Saddle link of core 0's base die down, and a far core whose way to this home is cut. -/
def cutOff (s : State) : State := { s with ms := { s.ms with down := [3] } }
def farCore (o : Op) : Op := { o with core := 159 }
def cutAll (s : State) : State := { s with ms := { s.ms with down := upFrom 0 16 } }
def parkedLane : Acc := { onChipLane with phase := .absent }

theorem witness_AccessesArePerformedAtTheirHomes :
    (inFlight (opG .ld)).liveOp 5 = some (opG .ld) ∧ (opG .ld).lanes.find? (fun a => a.lane == 0) = some (oneLane .glob 0x202000)
    ∧ (oneLane .glob 0x202000).alias_ = 0 ∧ (opG .ld).bytesNow (oneLane .glob 0x202000) 0 = upFrom 0 4 ∧ (opG .ld).updateOnly (oneLane .glob 0x202000) = false
    ∧ (inFlight (opG .ld)).contested .glob 0x202000 4 = []
    ∧ (oneLane .glob 0x202000).onChip = false ∧ (inFlight (opG .ld)).canPerform 5 (opG .ld) (oneLane .glob 0x202000) = true
    ∧ (opG .ld).lanesAhead (oneLane .glob 0x202000) = true ∧ (∀ b ∈ (opG .ld).lanes, b.onChip = true → b.performed = true)
    ∧ (inFlight (opG .ld)).mixed 5 (opG .ld) (oneLane .glob 0x202000) = [] ∧ (inFlight (opG .ld)).snapDrops (opG .ld) (oneLane .glob 0x202000) = false
    ∧ ((inFlight (opG .ld)).sendLane 5 (opG .ld) (oneLane .glob 0x202000)).2 = true
    ∧ ((inFlight (opR .ld)).sendLane 5 (opR .ld) (oneLane (.remote 3) 0x202000)).2 = true
    ∧ ((cutOff (inFlight (opR .ld))).sendLane 5 (opR .ld) (oneLane (.remote 3) 0x202000)).2 = false
    ∧ ((cutOff (inFlight (opR .barr))).sendLane 5 (opR .barr) (oneLane (.remote 3) 0x202000)).2 = false := by
  refine ⟨rfl, rfl, rfl, ?_⟩
  and_intros <;> first | decide | rfl

theorem witness_AccessesArePerformedAtTheirHomes_2 :
    (inFlight (opR .ld)).canPerform 5 (opR .ld) (oneLane (.remote 3) 0x202000) = true ∧ OpKind.ld.byAccess = true ∧ OpKind.barr.byBarrier = true
    ∧ onChipLane.onChip = true ∧ (inFlight (opC .st)).canPerform 5 (opC .st) onChipLane = true ∧ (inFlight (opC .st)).absentFor (opC .st) onChipLane = false
    ∧ (opC .st).begun = false ∧ ({ inFlight (opC .ld) with teams := [(0, gapT)] } : State).absentFor (opC .ld) onChipLane = true
    ∧ parkedLane.onChip = true ∧ (inFlight (mkOp .ld (some 0) [parkedLane])).absentFor (mkOp .ld (some 0) [parkedLane]) parkedLane = false := by
  and_intros <;> first | decide | rfl

theorem witness_DeltasAndFarOperationsAreApplied :
    (inFlight (opG .red)).liveOp 5 = some (opG .red) ∧ (inFlight (opG .red)).canPerform 5 (opG .red) (oneLane .glob 0x202000) = true
    ∧ (opG .red).lanesAhead (oneLane .glob 0x202000) = true ∧ (inFlight (opG .red)).snapDrops (opG .red) (oneLane .glob 0x202000) = false
    ∧ (inFlight (opG .red)).ms.holders.get [] (0x202000 / 128) = [] ∧ ((inFlight (opG .red)).core 0).deltas.look (0x202000 / 128) = none
    ∧ ({ ms := { holders := [(9, [4])] }, cores := [(4, { deltas := [(9, { kind := ⟨0, 0, 2, 0⟩, words := [(0, 3)] })] })] } : State).ms.holders.get [] 9 = [4]
    ∧ (⟨0, 0, 2, 0⟩ : DeltaKind) = (opG .red).deltaKind ∧ (⟨1, 0, 2, 0⟩ : DeltaKind) ≠ (opG .red).deltaKind := by
  and_intros <;> first | decide | rfl

theorem witness_DeltasAndFarOperationsAreApplied_far :
    OpKind.racc.far = true ∧ OpKind.racc.delta = true ∧ (inFlight (opG .racc)).canPerform 5 (opG .racc) (oneLane .glob 0x202000) = true
    ∧ (opG .racc).allPerformed = false ∧ (inFlight (opG .racc)).mixed 5 (opG .racc) (oneLane .glob 0x202000) = []
    ∧ ((inFlight (opG .racc)).sendLane 5 (opG .racc) (oneLane .glob 0x202000)).2 = true
    ∧ ((cutAll (inFlight (farCore (opG .racc)))).sendLane 5 (farCore (opG .racc)) (oneLane .glob 0x202000)).2 = false
    ∧ (let t := ((((inFlight (opG .racc)).through none).flushOwn .glob 0 0x202000).recall .glob 0x202000 4).intoAdder 0x202000
       t.poisonAt .glob 0x202000 4 = false)
    ∧ ((({ inFlight (opG .racc) with glob := { poison := [0x202000 / 32] } } : State).recall .glob 0x202000 4).intoAdder 0x202000).poisonAt .glob
        0x202000 4 = true
    ∧ ({ opG .racc with lanes := [{ oneLane .glob 0x202000 with phase := .applied }] } : Op).allPerformed = true
    ∧ (inFlight (opR .racc)).canPerform 5 (opR .racc) (oneLane (.remote 3) 0x202000) = true := by
  and_intros <;> first | decide | rfl

theorem witness_BarrierObjectsFollowTheirRule :
    (let x : Bar := { phase := false, err := false, poison := false, abandon := false, pending := 1, parts := 1, tx := 0 }
     0 < x.pending ∧ 0 < x.parts ∧ ({ x with parts := 0 } : Bar).parts = 0)
    ∧ (let t := laneC.recall (.scratch 0) 128 16
       t.poisonAt (.scratch 0) 128 16 = false ∧ (t.space (.scratch 0)).wf = true ∧ ∀ f, (t.updSpace (.scratch 0) f).space (.scratch 0) = f (t.space (.scratch 0)))
    ∧ (({ glob := { poison := [4] } } : State).recall .glob 128 16).poisonAt .glob 128 16 = true :=
  ⟨by decide, ⟨by decide, by decide, fun _ => rfl⟩, by decide⟩

/-- One lane whose access has been performed, and one that waits at a barrier object or a word. -/
def doneLane : Acc := { oneLane .glob 0x202000 with phase := .applied, result := 1 }
def watchLane : Acc := { oneLane .glob 0x202000 with phase := .watching, monitor := true, seen := true }
def opD (k : OpKind) : Op := { mkOp k (some 0) [doneLane] with size := 2 }
def opW (k : OpKind) : Op := { mkOp k (some 0) [watchLane] with size := 2 }
theorem witness_OperationsCompleteAndWaitersWake :
    (inFlight (opD .ld)).liveOp 5 = some (opD .ld) ∧ (∀ a ∈ (opD .ld).lanes, a.phase = .applied) ∧ (∀ a ∈ (opD .ld).lanes, a.poisoned = false)
    ∧ ¬((opD .ld).acquires = true) ∧ (inFlight (opD .ld)).acquiresWide (opD .ld) doneLane = false
    ∧ (inFlight (opD .ld)).acquiresWide { opD .ld with ord := 1, scope := 4 } doneLane = true ∧ (inFlight (opD .ld)).wide (opD .ld) 4 = true
    ∧ (inFlight (opD .ld)).wide (opD .ld) 1 = false
    ∧ (∀ a ∈ (opD .btest).lanes, a.result % 2 = 1)
    ∧ (inFlight (mkOp .fence none [])).earlierDone 5 (decide (0 = 2 ∨ 0 = 3)) (decide (0 = 2 ∨ 0 = 3)) (decide (0 = 1 ∨ 0 = 3)) = true
    ∧ ((inFlight (opW .waita)).sendLane 5 (opW .waita) watchLane).2 = true
    ∧ ((cutAll (inFlight (farCore (opW .waita)))).sendLane 5 (farCore (opW .waita)) watchLane).2 = false
    ∧ (inFlight (opW .waita)).liveOp 5 = some (opW .waita) ∧ (opW .waita).lanes.find? (fun a => a.lane == 0) = some watchLane
    ∧ watchLane.phase = .watching ∧ watchLane.monitor = true ∧ watchLane.seen = true
    ∧ ({ watchLane with monitor := false } : Acc).poll ≤ ((inFlight (opW .waita)).core 0).clock
    ∧ (let t := (inFlight (opW .waita)).recall .glob 0x202000 4
       t.poisonAt .glob 0x202000 4 = false ∧ t.contested .glob 0x202000 4 = [] ∧ natOf (t.readHome .glob 0x202000 4) = watchLane.data)
    ∧ (let t := (inFlight (opW .bwait)).recall .glob 0x202000 16
       t.poisonAt .glob 0x202000 16 = false ∧ (t.barAt .glob 0x202000).phase ≠ (1 % 2 == 1)) := by
  and_intros <;> first | decide | rfl

/-- A walk that is going on, one that has failed and one whose record is posted. -/
def walk0 : Walk := { ctx := 0, va := 0x1000, core := 0, agent := 0, access := 0, launch := 1, vdie := 0 }
def walkS (w : Walk) (m : MemSide) : State := { base with ms := { m with regions := base.ms.regions, walks := [(3, w)] }, arg := { a := 3, b := 0 } }
/-- What a walk's request comes to, from a port of base die 3: it goes; it waits where every link is down; it is lost after 63 answers. -/
def portWalk : Walk := { walk0 with core := 3, agent := 5 }
def walkSent (m : MemSide) : Sending :=
  let s := walkS portWalk m
  (s.request (.walk 3) portWalk.router (((s.walkPath 0 0x1000).map s.physPlace).filterMap (fun p => s.routerOf p.1 p.2)) (s.ms.clocks.get 0 3)).2
def badTable : State := { walkS walk0 {} with glob := { base.glob with poison := [0x8000 / 32] } }

theorem witness_TranslationsAreWalkedAnsweredAndInvalidated :
    walkSent {} = .go ∧ walkSent { down := upFrom 0 16 } = .wait
    ∧ walkSent { down := upFrom 0 16, retry := [((Requester.walk 3).key, (63, 0))] } = .lost
    ∧ (walkS walk0 {}).tainted (.walk 3) = false ∧ (∃ a, badTable.walk 0 0x1000 = .bad a)
    ∧     (walkS walk0 {}).ms.walks.look 3 = some walk0 ∧ (walkS walk0 {}).walk 0 0x1000 = .ok leaf0
    ∧ (∃ c e, (walkS walk0 {}).walk 0 0x400000 = .miss c e)
    ∧ (walkS { walk0 with failed := some (1, 0) } {}).copiesDrained 3 = true
    ∧ bit (walkS walk0 {}).ms.xfqBase 4 = false ∧ bit ({ xfqBase := 0x1010 } : MemSide).xfqBase 4 = true
    ∧ (0 + 2 ^ 32 - 0) % 2 ^ 32 ≠ ({ xfqBase := 0x1010 } : MemSide).xfqSize
    ∧ (walkS { walk0 with failed := some (1, 0), tag := some 3 } {}).tagged 3 = some 3
    ∧ ({ invalBusy := true } : MemSide).invalBusy = true ∧ bit (2 ^ 28) 28 = true := by
  refine ⟨by decide, by decide, by decide, by decide, ⟨_, rfl⟩, rfl, by decide, ⟨_, _, rfl⟩, ?_⟩
  and_intros <;> first | decide | rfl

theorem witness_RegisterWritesFollowTheirRules :
    ((ctx1.elogHead + 2 ^ 32 - 0) % 2 ^ 32 ≤ 4096) ∧ (4096 < (ctx1.elogHead + 2 ^ 32 - 5) % 2 ^ 32)
    ∧ ((ctx1.svcHead + 2 ^ 32 - 0) % 2 ^ 32 ≤ 2 ^ (ctx1.svcBase % 16)) ∧ (2 ^ (ctx1.svcBase % 16) < (ctx1.svcHead + 2 ^ 32 - 9) % 2 ^ 32)
    ∧ ((leadC.doneAhead 0 0).queueRegs 0 0).slots = 2
    ∧ ({ base with launches := [(4, elastic)] } : State).launches.filter (fun p => p.2.ctx == 0 && p.2.ident == 1) = [(4, elastic)]
    ∧ (∀ p ∈ ({ base with launches := [(4, elastic)] } : State).launches, p.2.ctx = 0 → p.2.ident ≠ 2) := by
  refine ⟨by decide, by decide, by decide, by decide, by decide, rfl, by decide⟩

/-! ## Witnesses: the scheduler and the engines -/

/-- Bytes of a record from its fields. -/
def image (n : Nat) (l : List (Nat × List Byte)) : List Byte :=
  let c := l.foldl (fun c p => writeCells c p.1 p.2) []
  (upFrom 0 n).map (fun i => c.get 0 i)
def launchBytes : List Byte := image 256 [(1, [16, 16, 1]), (4, [16]), (6, [1, 1]), (9, [4]), (0x14, [1]), (0x18, bytesOf 8 0x1008), (0x20, bytesOf 8 0x1010)]
def launch1 : Launch := { ctx := 0, queue := 0, slot := 0, image := launchBytes, ident := 1 }
def ctx2 : Ctx := { ctx1 with schedEn := true, queues := [(0, { cfg := 0x3107, write := 1 })], vdieMap := [(0, 8)], saveCfg := 3 }
def schedS : State := { base with ctxs := [(0, ctx2)], glob := { cells := writeCells base.glob.cells 0x203000 launchBytes } }

def launchD : Launch := { launch1 with state := 2, counted := true, dies := 1, teams := 1 }
/-- Every team dispatched; a launch of a pair that takes every home warp of two cores. -/
def launchX : Launch := { launchD with state := 3, next := [(0, 1)] }
def launchP : Launch := { launchD with image := image 256 [(1, [16, 1, 1]), (4, [0x10, 4]), (6, [1, 1])] }
def teamX : Team := newTeam launchX 4 0 0 0 9 0 0 { core := 0, slot := 0, quarters := [0] }
def waitS (t : Team) (l : Launch) : State := { schedS with launches := [(4, launchX), (6, l)], teams := [(0, t)] }

theorem witness_LaunchesAndTeamsStart :
    (schedS.ctx 0).schedEn = true ∧ bit (schedS.queueRegs 0 0).cfg 0 = true ∧ (let r := (schedS.doneAhead 0 0).queueRegs 0 0
       r.disp ≠ r.write ∧ (schedS.doneAhead 0 0).prevAllows 0 0 r.disp = true
       ∧ (schedS.doneAhead 0 0).engineRead 0 (r.slotAt r.disp) 256 = .ok launchBytes)
    ∧ (schedS.doneAhead 0 0).invalidCause launch1 = none ∧ (schedS.doneAhead 0 0).readSync launch1 = some []
    ∧ (∃ x, schedS.invalidCause { launch1 with image := [] } = some x) ∧ (∃ x, schedS.engineRead 0 0x400000 256 = .error x)
    ∧ launch1.state = 1 ∧ (∀ i ∈ setBits launch1.waitEn 4, launch1.thresh i ≤ 0)
    ∧ launchX.state = 3 ∧ launchX.allSent = true ∧ launchX.sigEn = false
    ∧ launchD.counted = true ∧ launchD.allSent = false
    ∧ ({ schedS with launches := [(4, launchD)] } : State).bestAt 0 [] = some { lid := 4, vdie := 0, eprio := 0, number := 0, saved := none, gang := 0 }
    ∧ launchD.listed = false ∧ launchD.gang ≤ 1 ∧ launchD.cluster = 0 ∧ launchD.membersOf 0 = [0]
    ∧ ({ schedS with launches := [(4, launchD)] } : State).spots launchD 0 0 [none] [] = some [{ core := 0, slot := 0, quarters := [0] }]
    ∧ schedS.processed 0 0 = true ∧ base.processed 0 0 = false ∧ launch1.killing = none ∧ launch1.restoring = false
    ∧ (∀ p ∈ schedS.teams, p.2.launch ≠ 4) := by
  refine ⟨rfl, by decide, ⟨by decide, by decide, okIs_ok (by decide +kernel)⟩, by decide +kernel, by decide, ⟨2, by decide +kernel⟩,
    ⟨8, errIs_error (by decide +kernel)⟩, ?_⟩
  and_intros <;> decide +kernel

/-- A launch over a tile list at an address, and one that waits for an event. -/
def launchL (a : Nat) : Launch := { launch1 with image := image 256 [(0, [1]), (1, [16, 16, 1]), (4, [16]), (6, [1, 1]), (0x30, bytesOf 8 a)] }
def launchW : Launch := { launch1 with image := image 256 [(1, [16, 16, 1]), (4, [16]), (6, [1, 1]), (0x13, [1]), (0xD0, [1])] }

/-- The team count of a tile list: within 2^24, above it, and where it cannot be read. -/
theorem witness_LaunchesAndTeamsStart_lists :
    launch1.listed = false ∧ (launchL 0x3000).listed = true ∧ (launchL 0x3000).counted = false ∧ (launchL 0x3000).list = 0x3000
    ∧ (∃ bs, base.engineRead 0 0x3000 4 = .ok bs ∧ natOf bs ≤ 2 ^ 24) ∧ (∃ bs, schedS.engineRead 0 0x3000 4 = .ok bs ∧ 2 ^ 24 < natOf bs)
    ∧ (launchL 0x400000).list = 0x400000 ∧ (∃ c, base.engineRead 0 0x400000 4 = .error c)
    ∧ (∃ i ∈ setBits launchW.waitEn 4, 0 < launchW.thresh i) := by
  refine ⟨by decide +kernel, by decide +kernel, rfl, by decide +kernel, ⟨[0, 0, 0, 0], okIs_ok (by decide +kernel), by decide⟩,
    ⟨[0, 16, 16, 1], okIs_ok (by decide +kernel), by decide⟩, by decide +kernel, ⟨8, errIs_error (by decide +kernel)⟩, by decide +kernel⟩

/-- A step boundary that every team has arrived at. -/
def launchE : Launch := { launchX with image := image 256 [(0, [4]), (1, [16, 16, 1]), (4, [16]), (6, [1, 1]), (0x14, [1])] }
def waitE : State := { schedS with launches := [(4, launchE)], teams := [(0, { teamX with arrived := 1 })] }
theorem witness_LaunchesAndTeamsStart_2 :
    launchE.elastic = true ∧ launchE.dies ≠ 0 ∧ launchE.allSent = true
    ∧ (let live := waitE.teams.filter (fun p => p.2.launch == 4 && !p.2.withdrawn && !p.2.finished)
       live ≠ [] ∧ ∀ p ∈ live, launchE.boundaries + 1 ≤ p.2.arrived) ∧ waitE.targetDies launchE ≤ launchE.dies := by
  and_intros <;> decide +kernel

def teamE : Team := { teamX with expired := true }
def teamV : Team := { teamX with place := .saved 0 }
theorem witness_TeamsLeaveAndLaunchesEnd :
    (waitS teamX launchP).teams.look 0 = some teamX ∧ teamX.quantum = 0 ∧ teamX.expired = false ∧ teamX.finished = false
    ∧ (waitS teamX launchP).mayIssue teamX = true ∧ (waitS teamX launchP).gangMates 0 = [0]
    ∧ (waitS teamX launchX).bestOf ((waitS teamX launchX).coresFreed [0]) [0] = none
    ∧ (waitS teamX launchP).bestOf ((waitS teamX launchP).coresFreed [0]) [0]
        = some { lid := 6, vdie := 0, eprio := 0, number := 0, saved := none, gang := 0 }
    ∧ ((waitS teamX launchP).freeSlots 0 1) = some [0] ∧ (waitS teamX launchP).forwardFree ((waitS teamX launchP).survivorsOn 0) = true
    ∧ teamE.expired = true ∧ teamE.resident = true ∧ (waitS teamE launchP).preemptible 0 teamE = true ∧ teamE.clusterBytes = 0
    ∧ ((waitS teamE launchP).slotParts 0 ((schedS.ctx 0).saveSlot 0) (256 + State.imageBytes teamE false) 8).isSome = true
    ∧ ({ waitS teamE launchP with ctxs := [(0, ctx1)] } : State).freeSlots 0 1 = none := by
  and_intros <;> decide +kernel

def waitV : State := waitS teamV { launchP with counted := false }
/-- A network whose links are all down, and a packet of the scheduler in context 0 that has been answered 63 times. -/
def shutNet (s : State) (tries : Tab (Nat × Nat)) : State := { s with ms := { s.ms with down := upFrom 0 16, retry := tries } }
def lastTry : Tab (Nat × Nat) := [((Requester.sched 0).key, (63, 0))]
theorem witness_LaunchesAndTeamsStart_network :
    ((schedS.doneAhead 0 0).schedSent 0 ((schedS.doneAhead 0 0).enginePieces 0 0x3000 256 false) false).2 = .go
    ∧ (let s := shutNet schedS []
       ((s.doneAhead 0 0).schedSent 0 ((s.doneAhead 0 0).enginePieces 0 0x3000 256 false) false).2 = .wait)
    ∧ (let s := shutNet schedS lastTry
       ((s.doneAhead 0 0).schedSent 0 ((s.doneAhead 0 0).enginePieces 0 0x3000 256 false) false).2 = .lost)
    ∧ (let parts := ((waitS teamE launchP).slotParts 0 ((schedS.ctx 0).saveSlot 0) (256 + State.imageBytes teamE false) 8).getD []
       ((waitS teamE launchP).schedSent 0 parts true).2 = .go ∧ ((shutNet (waitS teamE launchP) []).schedSent 0 parts true).2 = .wait
        ∧ ((shutNet (waitS teamE launchP) lastTry).schedSent 0 parts true).2 = .lost) := by
  and_intros <;> decide +kernel
theorem witness_TeamsLeaveAndLaunchesEnd_2 :
    waitV.bestAt 0 [] = some { lid := 4, vdie := 0, eprio := 0, number := 0, saved := some [0], gang := 0 }
    ∧ waitV.fitsAt { lid := 4, vdie := 0, eprio := 0, number := 0, saved := some [0], gang := 0 } 0 [] = some [{ core := 0, slot := 0, quarters := [0] }]
    ∧ teamX.declined = false ∧ 2 ≠ teamX.core ∧ ((waitS teamX launchP).launchOf teamX).gang ≤ 1 ∧ ((waitS teamX launchP).launchOf teamX).cluster = 0
    ∧ (waitS teamX launchP).bigWaits 0 0 [0] 2 = true
    ∧ (waitS teamX launchP).moveSpot ((waitS teamX launchP).launchOf teamX) 0 teamX 2 = some { core := 2, slot := 0, quarters := [0] }
    ∧ (waitS teamX launchP).preemptible 0 teamX = true ∧ (waitS teamX launchP).forwardFree ((waitS teamX launchP).coresHeld [0]) = true
    ∧ ({ waitS teamX launchP with forwards := (upFrom 0 32).map (fun n => { core := 0, tid := n }) } : State).forwardFree [0] = false := by
  and_intros <;> decide +kernel

/-- A replayable launch with one declared region of 64 KiB and its area, and a store on its way into it. -/
def launchR : Launch := { launchX with image := image 256 [(0, [2]), (0x38, bytesOf 8 0x20000), (0x90, bytesOf 8 0x10001)] }
def snapOp : Op := mkOp .st none [{ lane := 0, thread := leadThread, space := 0, addr := 0x10000, home := some (.glob, 0x210000), snap := true }]
def snapS (l : Launch) : State := { waitS { teamX with launch := 4 } launchP with
  launches := [(4, l)], ops := [(9, snapOp)], cores := [(0, { xlat := [(0, { leaf0 with snap := true })] })] }
/-- The same launch with its snapshot area at an address; the second page is mapped for reads only. -/
def areaAt (a : Nat) : Launch := { launchR with image := image 256 [(0, [2]), (0x38, bytesOf 8 a), (0x90, bytesOf 8 0x10001)] }
def readOnly (s : State) : State := { s with glob := s.glob.write 0xC008 (bytesOf 8 0x40000B) }

theorem witness_TeamsLeaveAndLaunchesEnd_3 :
    (snapS { launchR with killing := some 0x14 }).launches.look 4 = some { launchR with killing := some 0x14 }
    ∧ launchR.snapWait = none ∧ launchR.copied.has 0 = false ∧ launchR.lost.has 0 = false ∧ (snapS launchR).granuleWanted 4 0 ≠ none
    ∧ ((snapS launchR).granuleHome launchR 0).isSome = true
    ∧ (∃ qs, (snapS launchR).areaHome launchR 0 (2 ^ 16) = .ok qs)
    ∧ ((snapS launchR).snapSent 4 0 [(.glob, 0x210000, 2 ^ 16)] [(.glob, 0x220000, 2 ^ 16)]).2 = .go :=
  ⟨rfl, rfl, by decide, by decide, by decide +kernel, by decide +kernel, okE_ok (by decide +kernel), by decide +kernel⟩

theorem witness_TeamsLeaveAndLaunchesEnd_4 :
    (snapS (areaAt 0x600000)).areaHome (areaAt 0x600000) 0 (2 ^ 16) = .error 0x08
    ∧ (readOnly (snapS (areaAt 0x200000))).areaHome (areaAt 0x200000) 0 (2 ^ 16) = .error 0x09 :=
  ⟨errIs_error (by decide +kernel), errIs_error (by decide +kernel)⟩

theorem witness_TeamsLeaveAndLaunchesEnd_5 :
    (let l := { launchR with restoring := true, copied := [0] }
     l.restoring = true ∧ (snapS l).areaFault l = none ∧ ((snapS l).restoreSent 4 l).2 = .go) := by decide +kernel

/-- A request record in the scratchpad at 128: 32 bytes from 1024 to 2048. -/
def record : List Byte := image 128 [(0, [7]), (2, [1]), (4, [2, 2]), (8, bytesOf 8 1024), (0x10, bytesOf 8 2048), (0x20, [32])]
def kickT : Team := { leadT with scratch := { cells := writeCells [] 128 record } }
def kick1 : Kick := ⟨0, 128, 7, 3⟩
def kickS (k : List Kick) (c : Tab Copy) : State := { base with
  teams := [(0, kickT)], cores := [(0, { kicks := k })], copies := c
  slots := [(1, { cluster := 0, req := 2, off := 0, data := [(1, false)], targets := [some 0, some 0] })], arg := { a := 0, c := 32 } }
def copy1 : Copy := (kickS [kick1] []).kickRequest kickT 0 kick1
def castOf (c : Copy) : Copy := { c with mode := 4, targets := [some 0, some 0] }
def goodSides (p : Placed × Placed) : Bool := match p with
  | (.ok _ _, .ok _ false) => true
  | _ => false

theorem witness_KicksAreAcceptedAndCopied :
    (let u := ((kickS [kick1] []).acceptInputs 0).handKicks 0
     (u.core 0).kicks = [kick1] ∧ u.teams.look 0 = some kickT ∧ u.kickCause kickT (u.kickRequest kickT 0 kick1) kick1 = none
      ∧ u.withinLimits 0 (u.copyLines kickT (u.kickRequest kickT 0 kick1)) = true)
    ∧ (((kickS [] []).acceptInputs 0).handKicks 0).core 0 = {}
    ∧ fieldAt (kickT.scratch.bytes 128 128) 0 1 = 7 ∧ fieldAt (kickT.scratch.bytes 128 128) 0 1 ≠ ({ kick1 with sealByte := 6 } : Kick).sealByte
    ∧ ((kickS [kick1] []).kickCause kickT { copy1 with mode := 9 } kick1).isSome = true := by
  and_intros <;> decide +kernel

theorem witness_KicksAreAcceptedAndCopied_pieces :
    (kickS [] [(0, copy1)]).copies.look 0 = some copy1 ∧ kickT.place = .resident ∧ copy1.state = 1 ∧ copy1.closed = false ∧ copy1.wait = none
    ∧ copy1.doomed = none ∧ copy1.owed = [] ∧ copy1.credit = false
    ∧ copy1.gaps.find? (fun g => decide (g.1 ≤ 0) && decide (0 < g.2)) = some (0, 32) ∧ 0 = copy1.progress
    ∧ min ((kickS [] [(0, copy1)]).clip kickT copy1 (copy1.runAt 0) (min 32 32)) (2 ^ 21) = 32
    ∧ goodSides ((kickS [] [(0, copy1)]).sides kickT copy1 (copy1.runAt 0) 32) = true
    ∧ (kickS [] [(0, copy1)]).copyHeld kickT copy1 (copy1.runAt 0) 32 false = false
    ∧ ((kickS [] [(0, copy1)]).request (.copy 0) 0 [] 0).2 = .go
    ∧ ((cutAll (kickS [] [(0, copy1)])).request (.copy 0) 3 [0] 0).2 = .wait := by
  and_intros <;> decide +kernel

theorem witness_KicksAreAcceptedAndCopied_multicasts :
    (kickS [] []).slotFree 0 (castOf copy1) = true
    ∧ ({ kickS [] [] with slots := (upFrom 0 64).map (fun n => (n, ⟨0, 9, 0, [], []⟩)) } : State).slotFree 0 (castOf copy1) = false
    ∧ (let f := (kickS [] [(2, castOf copy1)]).fetchRun kickT copy1 0 (copy1.runAt 0) (.ok [(.scratch 0, 1024, 32)] false) 32 []
       f.1.tainted (.copy 0) = false ∧ f.2.length ≠ 0)
    ∧ (kickS [] [(2, castOf copy1)]).copies.look 2 = some (castOf copy1) ∧ (kickS [] []).holder 0 = some 0 := by
  and_intros <;> decide +kernel

/-- A matrix instruction at the head of its array: its pages to be checked, its last run to be started, its results to be written. -/
def mtxOp (runs : Nat) (started checked : Bool) : Op :=
  { mkOp .mma (some 0) [{ lane := 0, thread := 0, space := 0, addr := 0x2000 }] with runs := runs, started := started, mtx := { n := 16, checked := checked, metaOk := checked } }
def mtxS (o : Op) (budget : Nat) : State := { laneS2 with ops := [(5, o)], arg := { a := 5 }, cores := [(0, { arrays := [(0, [5])], budget := budget })] }
/-- An upset that its copies meet at the comparison, and one that they do not. -/
def tripleOp : Op := { mtxOp 0 true true with upset := some { diff := 1 }, pclass := 1 }

theorem witness_MatrixRunsReadStartAndWriteBack :
    (mtxS (mtxOp 1 false false) 1024).liveOp 5 = some (mtxOp 1 false false) ∧ OpKind.mma.multiplies = true ∧ (mtxOp 1 false false).walking = false
    ∧ (mtxS (mtxOp 1 false true) 1024).runReady 0 0 = some (5, mtxOp 1 false true) ∧ (mtxS (mtxOp 0 true true) 1024).runReady 0 0 = none
    ∧ ((mtxS (mtxOp 1 false true) 1024).core 0).allows .mma = true ∧ ({ budget := 0 } : Core).allows .mma = false
    ∧ ({ mtxOp 0 true true with outs := [(0, [(4, 1)])] } : Op).outs ≠ [] ∧ (mtxOp 0 true true).outs = []
    ∧ (mtxS (mtxOp 0 true true) 1024).firstInOrder 5 (mtxOp 0 true true) = true
    ∧ ((mtxS (mtxOp 0 true true) 1024).opEnv (mtxOp 0 true true)).isSome = true
    ∧ (∀ p ∈ ((mtxS (mtxOp 0 true true) 1024).core 0).arrays, p.2.head? = some 5 → ((mtxS (mtxOp 0 true true) 1024).core 0).busy.get 0 p.1 = 0)
    ∧ ({} : Upset).compare laneE2 (fun _ _ => 0) (fun _ => []) = none
    ∧ (({ diff := 1 } : Upset).compare { laneE2 with pclass := 1 } (fun _ _ => 0) (fun _ => [])).isSome = true
    ∧ (({ clock := 256 } : Core).clock % 256 = 0 ∧ ({ clock := 256 } : Core).window ≠ ({ clock := 256 } : Core).clock / 256)
    ∧ (mtxS (mkOp .mpin (some 0) []) 1024).liveOp 5 = some (mkOp .mpin (some 0) []) ∧ (mkOp .mpin (some 0) []).allPerformed = true := by
  and_intros <;> decide +kernel

/-- A granule to be read and another that is still to come. -/
def granOp : Op := { mtxOp 1 false true with mtx := { n := 16, checked := true, grans := [(0, { home := .scratch 0, addr := 0 }), (1, { home := .scratch 0, addr := 32 })] } }
theorem witness_MatrixRunsReadStartAndWriteBack_granules :
    (mtxS granOp 1024).ops.look 5 = some granOp ∧ granOp.mtx.grans.look 0 = some { home := .scratch 0, addr := 0 }
    ∧ (mtxS granOp 1024).teams.look 0 = some laneT2 ∧ (mtxS granOp 1024).storesDone 5 granOp { home := .scratch 0, addr := 0 } = true
    ∧ ((mtxS granOp 1024).space (.scratch 0)).isAbsent 0 32 = false ∧ (mtxS granOp 1024).tainted (.tile 5) = false ∧ granOp.mtx.src ≠ 2
    ∧ (∃ p ∈ granOp.mtx.grans, p.1 ≠ 0 ∧ p.2.data = none)
    ∧ ((mtxS granOp 1024).request (.tile 5) 0 ((mtxS granOp 1024).routerOf (.scratch 0) 0).toList 0).2 = .go := by
  and_intros <;> decide +kernel

/-! ## Witnesses: memory side, Saddle, Awls, host -/

def awayLane : Acc := { oneLane (.remote 3) 0x202000 with phase := .away, retries := 1 }
def awayOp (n : Nat) : Op := mkOp .ld (some 0) [{ awayLane with retries := n }]
theorem witness_MemorySideAndNetworksWork :
    base.ms.gap 0 ≠ 0 ∧ ({ linegap := [(0, 0)] } : MemSide).gap 0 = 0 ∧ base.ms.holdsLine 0 = false ∧ ({ l2 := [(0, 0)] } : MemSide).holdsLine 0 = true
    ∧ ({ base with modes := [(0, 1)], ctxs := [] } : State).fixes .glob 0 0 = true ∧ ({ base with modes := [(0, 1)], ctxs := [] } : State).fixes .glob 0 3 = false
    ∧ (ctx1.chip 0).valid = false ∧ bit 0x104 10 = false ∧ bit 0x104 8 = true ∧ base.carved 1 = false ∧ ({ base with chips := [(1, {})] } : State).carved 1 = true
    ∧ (base.chips.filter (fun p => p.1 / 64 == 0)).length < 16
    ∧ ({ chipMap := [(2, { valid := true, die := 0, slice := 1 })] } : Ctx).chip 2 = { valid := true, die := 0, slice := 1 }
    ∧ (∀ p ∈ base.ms.pins, p.slice ≠ 1) := by
  refine ⟨by decide +kernel, by decide +kernel, by decide +kernel, by decide +kernel, by decide +kernel, by decide +kernel, rfl, by decide, by decide, by decide, by decide,
    by decide, rfl, by decide⟩

theorem witness_MemorySideAndNetworksWork_links :
    5 < 16 ∧ 5 % 4 ≠ 0 ∧ base.ms.down.has 5 = false ∧ ({ fails := [(5, 15)] } : MemSide).fails.get 0 5 + 1 = 16
    ∧ (base.failLink 5).ms.escape 5 true = true ∧ (base.failLink 3).ms.escape 3 false = false
    ∧ (inFlight (farCore (opG .ld))).laneEnds 5 0 = some (3, 0) ∧ (linksBetween 3 0).any (fun l => (linkEnds l).contains 3) = true
    ∧ requesterOf (0 / 4) 5 = none ∧ requesterOf (4 / 4) 9 = some (.copy 9) ∧ requesterOf (20 / 4) 159 = some (.fetch 159)
    ∧ (base.requesterEnds (.fetch 159)).filter (fun e => (linksBetween e.1 e.2).any (fun l => (linkEnds l).contains 3)) ≠ []
    ∧ 16 ≤ 20 ∧ 20 - 16 < 18 ∧ base.sad.extDown.has 4 = false
    ∧ (inFlight (awayOp 1)).ops.look 5 = some (awayOp 1)
    ∧ (awayOp 1).lanes.find? (fun a => a.lane == 0 && a.phase == .away && a.retries != 0) = some awayLane
    ∧ awayLane.poll ≤ ((inFlight (awayOp 1)).core 0).clock ∧ ({ awayLane with retries := 64 } : Acc).retries = 64
    ∧ (awayOp 1).lanes.find? (fun a => a.lane == 0 && a.phase == .away) = some awayLane ∧ (awayOp 1).kind = .ld
    ∧ inWindows 0x202000 = false ∧ ((base.recall .glob 0x202000 4).mixEngine none none .glob 0x202000 4 0 0).poisonAt .glob 0x202000 4 = false := by
  and_intros <;> first | decide +kernel | rfl

/-- Collective 3 is a reduction of one chunk and two tiles in context 0 whose table is at 0x6000 and whose window is at 4 MiB. -/
def coll3 : Coll := { cfg := 1 + 2 * 2 + 2 ^ 24 + 2 * 2 ^ 32 + 2 ^ 48, win := 0x400000, tab := 0x6000 }
def collS (t : Tile) : State := { baseP with arg := { a := 3, b := 1 }, sad := { colls := [(3, coll3)], tiles := [(tileKey 3 1, t)], keys := [(0, { valid := true })], trust := [(0, 1)] } }
def readyS : State := { collS { tile1 with fired := false } with glob := { cells := writeCells base.glob.cells 0x206080 [1] } }
theorem witness_TilesFireAndComplete :
    (let v := readyS.moreBackups 3 1
     (v.coll 3).enabled = true ∧ 1 < (v.coll 3).ntiles ∧ (v.tile 3 1).fired = false ∧ bit ((v.entryRead 3 1 0 1).getD 0) 0 = true
      ∧ (v.keyOf 3).valid = true)
    ∧ (∃ u e, (readyS.moreBackups 3 1).openTile 3 1 (homePort 3 1 0) = .ready u e ∧ e.bkfor = 0xFFFF)
    ∧ (let v := (collS { tile1 with fired := false }).moreBackups 3 1
       ¬(bit ((v.entryRead 3 1 0 1).getD 0) 0 = true) ∧ bit ((v.entryRead 3 1 0 1).getD 0) 1 = false ∧ (v.tile 3 1).wait = none)
    ∧ tile1.touched = false ∧ tile1.erring = none
    ∧ (∃ u l, (collS { tile1 with written := [0] }).reach (homePort 3 1 0) 0 ((collS tile1).entryVa 3 1) 128 true none = .go u l)
    ∧ ({} : Coll).enabled = false
    ∧ (collS { tile1 with written := [0] }).sad.credits = [] ∧ (collS { tile1 with written := [0] }).chunksIn 3 1 entry1 = true
    ∧ (tile1.fired = true ∧ ({ entry1 with timeout := 4 } : TileEntry).timeout ≠ 0) := by
  have goes : ∃ u l, (collS { tile1 with written := [0] }).reach (homePort 3 1 0) 0 ((collS tile1).entryVa 3 1) 128 true none = .go u l :=
    goes_go (by decide +kernel)
  refine ⟨by decide +kernel, ⟨_, _, rfl, rfl⟩, by decide +kernel, ?_⟩
  and_intros <;> first | exact goes | decide +kernel | rfl

/-- A store of four bytes into the window, at element 0 of tile 1. -/
def aliasLane : Acc := { lane := 0, thread := 0, space := 0, addr := 0x400000 + 1024, alias_ := 2, coll := 3, data := 7 }
def aliasS (t : Tile) (a : Acc) : State := { collS t with ops := [(5, { mkOp .st (some 0) [a] with size := 2 })], teams := [(0, laneT2)], arg := { a := 5, b := 0 } }
theorem witness_CollectivesTakeStoresAndConfiguration :
    (let s := aliasS { tile1 with fired := false } aliasLane
     let o := ({ mkOp .st (some 0) [aliasLane] with size := 2 } : Op)
     s.liveOp 5 = some o ∧ o.lanes.find? (fun a => a.lane == 0) = some aliasLane ∧ s.teams.look o.tid = some laneT2 ∧ aliasLane.alias_ ≠ 0
      ∧ aliasLane.phase = .ready ∧ s.clearAhead 5 o aliasLane = true ∧ o.lanesAhead aliasLane = true
      ∧ (s.coll 3).enabled = true ∧ aliasLane.alias_ = (s.coll 3).kind ∧ laneT2.ctx = (s.coll 3).ctx ∧ s.aliasTile aliasLane = some (3, 1)
      ∧ s.aliasTile { aliasLane with addr := 0x500000 } = none ∧ s.aliasTile { aliasLane with alias_ := 1 } = none
      ∧ (∃ u e, s.openTile 3 1 (homePort 3 1 0) = .ready u e
        ∧ ¬(1024 % 4 ≠ 0 ∨ o.bytes % 4 ≠ 0 ∨ (u.tile 3 1).fired = true ∨ (u.tile 3 1).got.has 0 = true ∨ u.cbufFull 3 o.bytes = true)
        ∧ ∃ v j, u.openChunk (homePort 3 1 0) 3 1 0 (u.tile 3 1).round e = (v, some j)))
    ∧ ((aliasS tile1 aliasLane).tile 3 1).fired = true
    ∧ (3 < 1024 ∧ coll3.cfg = Nat.land coll3.cfg 0x00FFFFFF7FFFF3FF ∧ bit base.host.ack0.toNat 3 = true ∧ bit State.reset.host.ack0.toNat 3 = false) := by
  refine ⟨?_, rfl, by decide⟩
  have taken : ∃ u e, (aliasS { tile1 with fired := false } aliasLane).openTile 3 1 (homePort 3 1 0) = .ready u e
      ∧ ¬(1024 % 4 ≠ 0 ∨ 4 % 4 ≠ 0 ∨ (u.tile 3 1).fired = true ∨ (u.tile 3 1).got.has 0 = true ∨ u.cbufFull 3 4 = true)
      ∧ ∃ v j, u.openChunk (homePort 3 1 0) 3 1 0 (u.tile 3 1).round e = (v, some j) := ⟨_, _, rfl, by decide, _, _, rfl⟩
  dsimp only
  and_intros <;> first | exact taken | decide | rfl

def putPkt : Packet := { kind := 10, data := [1, 2], coll := 5, send := 4 }
def portS (p : SadPort) : State := { baseP with arg := { a := 0, b := 7 }, sad := { ports := [(0, p)], tiles := [(tileKey 3 1, { tile1 with answers := 1 })], held := [(0, ⟨putPkt, false, 3⟩)],
                                                                                    sends := [(4, { fired := true, left := 1 })] } }
theorem witness_PacketsEnterTheirHandlers :
    (let s := portS { run := true, inbox := [putPkt], table := [(0, BitVec.ofNat 64 (2 ^ 63 + 10 * 2 ^ 56 + 12))] }
     (s.port 0).run = true ∧ (s.port 0).inbox.find? Packet.handled = some putPkt ∧ putPkt.kind = 10 ∧ (s.port 0).freeCtx false = some 0
      ∧ (s.port 0).matching 10 5 = some 12 ∧ ({} : SadPort).matching 10 5 = none)
    ∧ (({} : SadPort).run = false ∧ (portS { run := true, chunks := [(7, chunk1)] }).arg.data = [])
    ∧ (let s := portS { run := true, chunks := [(7, { chunk1 with deadline := some 0 })] }
       (s.port 0).run = true ∧ (s.port 0).arriving { chunk1 with deadline := some 0 } = false ∧
       (s.port 0).chunks.look 7 = some { chunk1 with deadline := some 0 } ∧ (∃ k, (s.port 0).freeCtx true = some k) ∧ chunk1.tomb = false ∧ chunk1.raised = false
        ∧ 0 ≤ (s.port 0).clock)
    ∧ (portS {}).sad.held.look 0 = some ⟨putPkt, false, 3⟩
    ∧ ((portS { inbox := [{ kind := 9, coll := 3, tile := 1 }] }).port 0).inbox.find? (fun q => q.kind == if false then 8 else 9) = some { kind := 9, coll := 3, tile := 1 }
    ∧ ((portS {}).tile 3 1).fired = true ∧ ((portS {}).tile 3 1).round = 0
    ∧ (7 ≠ baseP.pkg ∧ ({ baseP with routes := [(7, [1])] } : State).reachable 7 = true) := by
  have timed : ∃ k, ((portS { run := true, chunks := [(7, { chunk1 with deadline := some 0 })] }).port 0).freeCtx true = some k := ⟨_, rfl⟩
  and_intros <;> first | exact timed | decide +kernel | rfl

/-- A send of 16 bytes from 0x2000 on counter 2 of port 0 to this package. -/
def sendImage (thresh : Nat) : List Byte :=
  image 64 [(0, [2]), (2, [1]), (8, [BitVec.ofNat 8 thresh]), (0x10, bytesOf 8 0x2000), (0x18, [16]), (0x1C, [0xFF, 0xFF])]
def sendX (thresh : Nat) : Send := { image := sendImage thresh, arm := true }
def sendS (x : Send) (a : Awl) : State := { baseP with
  awls := [(0, a)], arg := { a := 4 }
  sad := { ctrs := [(2, { val := 1 })], sends := [(4, x)], ports := [(0, { puts := [(0, putPkt)], inbox := [{ kind := 11, send := 4 }] })] } }
def okAwl : Awl := { awl1 with allow := [(0, 1)], rate := 4096 }
theorem witness_SendsAreWrittenFiredAndAcknowledged :
    (let s := sendS {} okAwl
     ¬((s.send 4).fired = true ∧ (s.send 4).done = false) ∧ s.imageOk 0 (sendX 1) = true ∧ s.imageOk 0 { sendX 1 with image := [] } = false
      ∧ s.sendAllowed 0 (sendX 1).dpkg = true ∧ (sendS {} {}).sendAllowed 0 0 = false
      ∧ (s.updSend 4 (fun _ => sendX 1)).sendDue 4 = true ∧ (s.updSend 4 (fun _ => sendX 2)).sendDue 4 = false)
    ∧ (({ fired := true } : Send).fired = true ∧ ({ fired := true } : Send).done = false)
    ∧ (let s := sendS (sendX 1) okAwl
       (s.send 4).arm = true ∧ (s.send 4).thresh ≤ (s.ctr (s.send 4).counter).val.toNat
       ∧ (∃ u l, (s.updSend 4 (fun x => { x with arm := false, fired := true, reading := true, left := 0, failed := false })).reach 0 0 (sendX 1).src
            (sendX 1).length false none = .go u l))
    ∧ ((sendS {} okAwl).port 0).puts = [(0, putPkt)] ∧ ((sendS {} okAwl).port 0).used + putPkt.data.length ≤ max okAwl.rate 4096
    ∧ (({} : Awl).rate = 0 ∧ 0 < ((sendS {} {}).port 0).used + putPkt.data.length)
    ∧ ((sendS {} okAwl).port 0).inbox.find? (fun k => k.kind == 11 && !k.seen) = some { kind := 11, send := 4 }
    ∧ (let x := ({ fired := true, left := 1 } : Send)
       x.fired = true ∧ x.done = false ∧ x.left ≠ 0) := by
  refine ⟨by decide +kernel, by decide, ⟨rfl, by decide +kernel, goes_go (by decide +kernel)⟩, rfl, by decide, by decide, rfl, by decide⟩

theorem witness_AwlStandardInstructionsComplete :
    (awlS awl1).who = .awl 0 ∧ ({ awlS awl1 with arg := { a := 0x33 } } : State).arg.a = 0x33
    ∧ (let at' := (awl1.xr 5 + ((8 : BitVec 12).signExtend 64).toNat) % 2 ^ 64
       at' % 8 = 0 ∧ at' + 8 ≤ 0x40000 ∧ awl1.bad at' 8 = false)
    ∧ (awl1.xr 5 + ((-1 : BitVec 12).signExtend 64).toNat) % 2 ^ 64 % 8 ≠ 0
    ∧ awl1.standard 0 0 0 = none ∧ (awl1.standard 0 0 0x00100093).isSome = true := by
  refine ⟨rfl, rfl, by decide, by decide, by decide, by decide⟩

/-- Awl 0 loads; memory at 0x240000 holds the header of an image that is too large, and at 0x280000 nothing. -/
def loadS (at' : Nat) : State :=
  { base with awls := [(0, { loadStatus := 1, loadAddr := at' })], arg := { a := 0, b := 1 },
              glob := { cells := writeCells base.glob.cells 0x240000 (image 0x50 [(0, bytesOf 4 0x4C574154), (4, [1]), (8, bytesOf 4 0x40000), (0x0C, [8])]) } }
theorem witness_AwlsAreRunLoadedAndWoken :
    (loadS 0).arg.a = 0 ∧ (loadS 0).arg.b = 1 ∧ awl1.waiting = .no ∧ ({ waiting := .halt 3 true } : Awl).waiting = .halt 3 true ∧ awl1.run = false
    ∧ (bit 1 0 = true ∧ awl1.run = false ∧ awl1.loadStatus ≠ 1 ∧ base.feature 8 = true)
    ∧ (imageOf ((loadS 0x280000).physBytes 0x280000 0x80)).headOk 0x4C574154 0 = false
    ∧ (let head := imageOf ((loadS 0x240000).physBytes 0x240000 0x80)
       head.headOk 0x4C574154 0 = true ∧ head.codeSize = 8 ∧ head.codeSize ≤ 0x40000)
    ∧ (loadS 0x240000).loadCheck 0 (imageOf ((loadS 0x240000).physBytes 0x240000 0x80)) = 5
    ∧ ({ timer := 1 } : Awl).timer = 1 ∧ Nat.land awl1.pend 6 ≠ 0 ∧ Nat.land awl1.pend 3 = 0 := by
  refine ⟨rfl, rfl, rfl, rfl, rfl, by decide, by decide +kernel, by decide +kernel, by decide +kernel, rfl, by decide, by decide⟩

theorem witness_ThePackageResetsBootsAndStops :
    (8 = 8 ∨ 8 = 9) ∧ bit 5 0 = true ∧ bit 5 2 = true ∧ bit (2 ^ 63) 63 = true
    ∧ ({ started := true, wdog := 1 } : HostCx).started = true ∧ ({ started := true, wdog := 1 } : HostCx).wdog = 1
    ∧ 880 ≤ ({ arg := { b := 880 } } : State).arg.b ∧ 10000 ≤ ({ hotTicks := 10000 } : HostCx).hotTicks
    ∧ (let s := ({ arg := { a := 1, b := 1 } } : State)
       1 ≤ s.arg.a ∧ s.arg.a ≤ 5 ∧ s.host.fail = false ∧ s.host.stage + 1 = s.arg.a ∧ s.arg.b = 1)
    ∧ ({} : HostCx).imageGood 1 (2 ^ 20) (imageOf []) = false
    ∧ (let s := ({ arg := { a := 3 }, host := { stage := 2 } } : State)
       s.arg.a = 3 ∧ s.host.fail = false ∧ s.host.stage = 2 ∧ s.arg.b ≠ 1 ∧ s.arg.data = [])
    ∧ (let s := ({ arg := { a := 5 }, host := { stage := 4 } } : State)
       s.arg.a = 5 ∧ s.host.fail = false ∧ s.host.stage = 4 ∧ s.arg.b ≠ 1) := by
  and_intros <;> first | decide | rfl

theorem witness_HostCreditsFeaturesAndLocks :
    ({} : HostCx).featStatus ≠ 1 ∧ bit (2 ^ 29) 29 = true ∧ (base.hostCredit 3).going = none
    ∧ (let s := ({ base with arg := { a := 3 }, host := { base.host with credits := [(3, { going := some ⟨0x2000, 0, 8, false⟩ })] } } : State)
       (s.hostCredit 3).going = some ⟨0x2000, 0, 8, false⟩ ∧ 0x2000 % 16 = 0 ∧ s.engineXlat 0 0x2000 16 true = .ok (.glob, 0x202000)
        ∧ s.engineXlat 0 0x400000 16 true = .error 8) ∧ 0x2004 % 16 ≠ 0 := by
  refine ⟨by decide, by decide, by decide, ⟨rfl, by decide, okIs_ok (by decide +kernel), errIs_error (by decide +kernel)⟩, by decide⟩

theorem witness_HostAccessesGoThroughTheirWindows :
    (let h := ({ inwin := [(0, { bus := 1, pages := 2, rd := true, wr := true, phys := 0x202 })] } : HostCx)
     h.windowOf 0x1000 = some { bus := 1, pages := 2, rd := true, wr := true, phys := 0x202 } ∧ h.windowOf 0x3000 = none
      ∧ ¬((1 + 2) * 4096 < 0x1000 + 16 ∨ base.reachable (0x202000 / 2 ^ 43) = false ∨ inWindows 0x202000 = true
        ∨ (0x202000 / 2 ^ 43 = base.pkg ∧ base.inRegion (0x202000 % 2 ^ 43) 16 = false)))
    ∧ ({ pcieBase := 2 ^ 30, pcieLog2 := 30 } : HostCx).outbounds (2 ^ 30) = true ∧ ({} : HostCx).outbounds 0x202000 = false
    ∧ inWindows 0x7F000000000 = true ∧ 0x7F000000000 / 2 ^ 43 % 512 = base.pkg ∧ inWindows 0x202000 = false
    ∧ base.host.inMgmtWin 0x202000 8 = false ∧ base.host.inDump 0x202000 8 = false ∧ base.inRegion 0x202000 8 = true
    ∧ ({ released := [0] } : HostCx).released ≠ [] ∧ base.host.sramEcc = [] := by
  and_intros <;> first | decide | rfl

theorem witness_AttestationRequestsAreAnswered :
    base.host.started = false
    ∧ (let s := ({ host := { started := true, spdm := [(0, { stage := 3, exchanged := true, secured := true })] }, arg := { a := 0, b := 0xFF } } : State)
       s.host.started = true ∧ (s.conn 0).stage = 3 ∧ (s.conn 0).exchanged = true ∧ (s.conn 0).secured = true ∧ s.arg.b = 0xFF)
    ∧ (let s := ({ host := { started := true } } : State)
       let d := List.replicate 32 (0 : Byte) ++ bytesOf 48 s.measureDigest.toNat
       d.length = 80 ∧ (s.conn 0).stage ≠ 3 ∧ (s.conn 0).secured = false
        ∧ ¬((s.sad.keys.get {} 1).valid = true ∧ (s.sad.keys.get {} 1).job ≠ 4)) := by
  refine ⟨rfl, by decide, ⟨by simp [bytesOf], by decide, by decide, by decide⟩⟩

/-! ## Witnesses: clauses at their boundaries -/

/-- A clause of two words in either stream; a lane whose jump goes to a lead header. -/
def laneW3 : Warp := { laneW with header := laneHeader + 0x10, words := [0, 0] }
def laneT3 : Team := { laneT2 with formed := [(0, laneW3)] }
def laneE3 : Env := { laneE2 with t := laneT3, w := laneW3, header := laneHeader + 0x10 }
def laneTJ : Team := { laneT2 with threads := laneT.threads.map (fun p => (p.1, { p.2 with regs := [(0, 1)] })) }
def laneEJ : Env := { laneE2 with t := laneTJ }
theorem bad_lane (e : Env) (h : e.core = 0 ∧ e.t.ctx = 0) : laneC.BadTarget e false 0x1008 := by
  refine .inr ⟨leadHeader, ?_, by decide⟩
  rw [h.1, h.2]
  rfl

theorem witness_IllegalIssueTraps_ends :
    ({ laneC with teams := [(0, laneT3)] } : State).Issues 0 0 laneE3 ∧ laneE3.last = false ∧ laneE3.fid.isSome = true
    ∧ ({ leadC with teams := [(0, leadT3)] } : State).Issues 0 0 { leadE2 with t := leadT3, header := 0xA70000000FC7E220 }
    ∧ ({ leadE2 with t := leadT3, header := 0xA70000000FC7E220 } : Env).last = false ∧ leadE2.t.lead.hmode = false ∧ leadEH.t.lead.hmode = true :=
  ⟨⟨rfl, rfl, .inl rfl⟩, by decide, rfl, ⟨rfl, rfl, .inl rfl⟩, by decide, rfl, rfl⟩

theorem witness_IllegalIssueTraps_targets :
    leadC.LeadIssues 0 0 leadE2 ∧ leadE2.last = true ∧ leadC.BadTarget leadE2 true (wrap ((leadE2.pc : Int) + 8 * (2 : BitVec 36).toInt) 64)
    ∧ leadC.BadTarget leadE2 true (leadE2.t.sop false 5) = leadC.BadTarget leadE2 true 0 ∧ leadC.BadTarget leadE2 true 0x1009
    ∧ laneC.LaneIssues 0 0 laneE2 ∧ laneC.BadTarget laneE2 false (wrap ((laneE2.pc : Int) + 8 * (1 : BitVec 36).toInt) 64)
    ∧ laneE2.act.filter (fun th => condHolds 1 32 ((laneE2.t.thread th).vreg 2)) ≠ []
    ∧ laneE2.act.filter (fun th => (laneC.entryFor laneE2.t 0 th == some 0) == true) ≠ [] ∧ laneC.entriesFor laneE2.t 0 laneE2.act = true
    ∧ (∀ th ∈ laneE2.act, laneC.BadTarget laneE2 false ((laneE2.t.thread th).vreg 2 + 2 ^ 32 * (laneE2.t.thread th).vreg 3))
    ∧ ({ laneC with teams := [(0, laneTJ)] } : State).LaneIssues 0 0 laneEJ
    ∧ (∀ th ∈ laneEJ.act, laneC.BadTarget laneEJ false (wrap ((laneEJ.pc : Int) + 8 * sext ((laneEJ.t.thread th).vreg 0) 32) 64)) := by
  refine ⟨lead_issues_c, by decide, .inr ⟨laneHeader, rfl, by decide⟩, rfl, .inl (by decide), lane_issues_c, bad_lane _ ⟨rfl, rfl⟩, by decide, by decide,
    by decide, fun th h => .inl ?_, ⟨⟨rfl, rfl, .inl rfl⟩, rfl⟩, fun th h => ?_⟩
  · revert th; decide
  · have e : wrap ((laneEJ.pc : Int) + 8 * sext ((laneEJ.t.thread th).vreg 0) 32) 64 = 0x1008 := by revert th; decide
    exact e ▸ bad_lane _ ⟨rfl, rfl⟩

/-- Copies that differ in lane 0, of which two agree, or of which none agree. -/
def upS (u : Upset) : State := { laneC with upset := some u }
def upL (u : Upset) : State := { leadC with upset := some u }
theorem witness_IllegalIssueTraps_copies :
    (upS { diff := 1 }).upset = some { diff := 1 } ∧ (upS { diff := 1 }).feature 1 = true
    ∧ (upS { diff := 1 }).env 0 1 = some { laneE2 with pclass := 1 } ∧ Nat.land 1 (laneE2.t.laneMask laneE2.act) ≠ 0
    ∧ (upS { diff := 1, vote := 1 }).env 0 2 = some { laneE2 with pclass := 2 } ∧ Nat.land ({ diff := 1 } : Upset).vote (laneE2.t.laneMask laneE2.act) = 0
    ∧ Nat.land ({ diff := 1 } : Upset).ecc (laneE2.t.laneMask laneE2.act) = 0
    ∧ (upL { diff := 1 }).env 0 2 = some { leadE2 with pclass := 2 } ∧ 1 % 2 ≠ 0 ∧ laneE2.regsOk (regsA zA 2 2 2 2) = true :=
  ⟨rfl, rfl, rfl, by decide, rfl, by decide, by decide, rfl, by decide, by decide⟩

/-- A lane that waits for its answer; a watched line on chip that is absent; a core that is a holder already; an object that an engine has credited. -/
def unanswered : Op := { opD .ld with core := 159, lanes := [{ doneLane with net := 1 }] }
def watchChip : Op := mkOp .bwait (some 0) [{ onChipLane with phase := .watching, monitor := true, seen := true }]
def held0 : State := { inFlight (opG .red) with ms := { base.ms with holders := [(0x202000 / 128, [0])] } }
def engineCredited : State := { inFlight (opW .bwait) with glob := { credited := [0x202000] } }
theorem witness_OperationsCompleteAndWaitersWake_answers :
    (∃ t, (cutAll (inFlight unanswered)).answersIn 5 unanswered = (t, false)) ∧ (∃ a ∈ unanswered.lanes, a.net = 1)
    ∧ (∀ a ∈ (opD .ld).lanes, a.net ≠ 1) ∧ ({ inFlight watchChip with teams := [(0, gapT)] } : State).absentFor watchChip
        { onChipLane with phase := .watching, monitor := true, seen := true } = true
    ∧ (opG .red).core ∈ held0.ms.holders.get [] (0x202000 / 128)
    ∧ (engineCredited.space .glob).credited.has 0x202000 = true ∧ OpKind.bwait.barrier = true ∧ (opW .bwait).acquires = true
    ∧ watchLane.home = some (.glob, 0x202000) := by
  refine ⟨⟨_, Prod.ext rfl (by decide +kernel)⟩, ?_⟩
  and_intros <;> first | decide +kernel | rfl

/-- A context whose last table lies in package 1, to which there is a way. -/
def farS : State := { base with glob := base.glob.write 0x8005 [8], routes := [(1, [0])], ms := { base.ms with walks := [(3, walk0)] } }
theorem witness_TranslationsAreWalkedAnsweredAndInvalidated_far :
    farS.farEntry (farS.walkPath 0 0x1000) ≠ [] ∧ farS.ms.asks = [] ∧ walk0.failed = none
    ∧ (farS.request (.walk 3) walk0.router (((farS.walkPath 0 0x1000).map farS.physPlace).filterMap (fun p => farS.routerOf p.1 p.2))
        (farS.ms.clocks.get 0 walk0.router)).2 = .go
    ∧ ((walkS walk0 {}).farEntry ((walkS walk0 {}).walkPath 0 0x1000)) = []
    ∧ (kickS [] []).ms.asks = [] ∧ ((kickS [] []).ask (.copy 0) []).2 = some [] ∧ (farS.ask (.copy 0) [(1, 0, 128)]).2 = none
    ∧ ((kickS [] []).core 0).decided ≠ ((kickS [] []).core 0).clock + 1 := by
  and_intros <;> decide +kernel

theorem witness_TilesFireAndComplete_waits :
    (∃ u w, ({ collS tile1 with ms := { base.ms with xlat := [] } } : State).reach (homePort 3 1 0) 0 ((collS tile1).entryVa 3 1) 128 true none = .wait u w)
    ∧ (collS { tile1 with fired := false }).mustFire 3 entry1 = true ∧ (collS tile1).mustFire 3 { entry1 with result := 0 } = true
    ∧ ({ tile1 with answers := 1 } : Tile).answers ≠ 0 := by
  refine ⟨?_, ?_⟩
  · have h : (match ({ collS tile1 with ms := { base.ms with xlat := [] } } : State).reach (homePort 3 1 0) 0 ((collS tile1).entryVa 3 1) 128 true none with
      | .wait _ _ => true
      | _ => false) = true := by decide +kernel
    revert h
    generalize ({ collS tile1 with ms := { base.ms with xlat := [] } } : State).reach (homePort 3 1 0) 0 ((collS tile1).entryVa 3 1) 128 true none = r
    cases r with
    | wait u w => exact fun _ => ⟨u, w, rfl⟩
    | go _ _ => exact fun h => nomatch h
    | fail _ _ _ => exact fun h => nomatch h
  · and_intros <;> decide +kernel

/-- A port with a put for job 0, for which a key is there, or is not. -/
theorem witness_PacketsEnterTheirHandlers_keys :
    (portS {}).jobKey 0 = false ∧ ({ portS {} with sad := { keys := [(0, { valid := true })] } } : State).jobKey 0 = true ∧ putPkt.src ≠ 1
    ∧ (sendS {} okAwl).wayTo 9 = false ∧ ({ sendS {} okAwl with routes := [(9, [0])] } : State).wayTo 9 = true
    ∧ (∀ q ∈ (sendS (sendX 1) okAwl).sad.sends, q.1 < 4 → q.2.reading = true → q.2.stamp ≠ 0) := by
  and_intros <;> decide +kernel

/-- Credits, requests and harts on their way. -/
def creditS (c : HostCredit) : State := { base with arg := { a := 3 }, host := { base.host with credits := [(3, c)] } }
def hartS (down : List Nat) : State := { base with arg := { a := 0x202000, b := 8, c := 1 }, host := { base.host with released := [0, 1] }, ms := { base.ms with down := down } }
def mHart : Hart := { mode := .m, csrs := [] }
theorem witness_HostAccessesGoThroughTheirWindows_sent :
    ((creditS {}).request (.hostCredit 3) 4 ((creditS {}).routerOf .glob 0x202000).toList ((creditS {}).ms.clocks.get 0 0)).2 = .go
    ∧ (hartS []).hartRuns 1 = true ∧ (hartS []).hartRuns 2 = false ∧ mHart.pmpAllows 0x202000 8 true = true
    ∧ ({ mode := .u } : Hart).pmpAllows 0x202000 8 true = false
    ∧ ((hartS []).piecesSent (.hart 1) 4 0 true ((hartS []).physPieces 0x202000 8)).2.1 = .go
    ∧ ((hartS (upFrom 0 16)).piecesSent (.hart 1) 4 0 true ((hartS []).physPieces 0x202000 8)).2.1 = .wait
    ∧ ((hartS []).piecesSent .root 4 0 false ((hartS []).physPieces 0x202000 8)).2.1 = .go
    ∧ base.host.freeTag = some 0 ∧ ({ outReads := [{ tag := 0, who := 1, len := 8 }] } : HostCx).freeTag = some 1
    ∧ mHart.csrs.wf 0 = true ∧ base.host.dpc = false ∧ base.host.inWaits = [] := by
  and_intros <;> first | decide +kernel | rfl

theorem witness_AttestationRequestsAreAnswered_secured :
    (let c : Spdm := { stage := 3, exchanged := true, secured := true, seqIn := 2, seqOut := 2 }
     let s : State := { host := { started := true, spdm := [(0, c)] }, arg := { a := 0, opt := some 2 } }
     s.arg.opt = some (s.conn 0).seqIn ∧ (s.conn 0).exchanged = true ∧ (s.conn 0).secured = true)
    ∧ (let s : State := { host := { started := true }, arg := { a := 0, opt := some 2 } }
       s.arg.opt ≠ none ∧ (s.conn 0).exchanged = false)
    ∧ (let s : State := { host := { released := [0] }, arg := { a := 7, b := 1 } }
       s.arg.a = 7 ∧ s.host.released.has 0 = true ∧ 1 ≤ s.arg.b ∧ s.arg.b < 8 ∧ s.host.released.has s.arg.b = false) := by
  decide

end Sys2Proof.Tests
end

section
/-! SUPPORT. The error log leaves the parties of the machine alone: no record that is written, lost or reported by an MSI changes a team, a
launch or the handler of a context (R75 to R80). -/

namespace Sys2Proof.Machine

/-- No team, no launch and no context's handler has changed. -/
structure State.SameParties (s t : State) : Prop where
  teams : t.teams = s.teams
  launches : t.launches = s.launches
  trapBase : ∀ c, (t.ctx c).trapBase = (s.ctx c).trapBase

namespace State.SameParties

theorem of_eq {s t : State} (ht : t.teams = s.teams) (hl : t.launches = s.launches) (hc : t.ctxs = s.ctxs) : s.SameParties t :=
  ⟨ht, hl, fun c => by rw [State.ctx, State.ctx, hc]⟩

theorem refl (s : State) : s.SameParties s := of_eq rfl rfl rfl

theorem trans {s t u : State} (h : s.SameParties t) (h' : t.SameParties u) : s.SameParties u :=
  ⟨h'.teams.trans h.teams, h'.launches.trans h.launches, fun c => (h'.trapBase c).trans (h.trapBase c)⟩

theorem foldl {α : Type} {f : State → α → State} (hf : ∀ (s : State) (x : α), s.SameParties (f s x)) (l : List α) (s : State) :
    s.SameParties (l.foldl f s) :=
  List.foldlRecOn (motive := s.SameParties) l f (refl s) (fun t h x _ => h.trans (hf t x))

end State.SameParties

theorem State.sameParties_drawn (s : State) : s.SameParties s.drawn := .of_eq rfl rfl rfl

theorem State.sameParties_through (s : State) (mode : Option Nat) : s.SameParties (s.through mode) := .of_eq rfl rfl rfl

theorem State.sameParties_updMs (s : State) (f : MemSide → MemSide) : s.SameParties (s.updMs f) := .of_eq rfl rfl rfl

theorem State.sameParties_updCore (s : State) (c : Nat) (f : Core → Core) : s.SameParties (s.updCore c f) := .of_eq rfl rfl rfl

/-! ## Memory outside the teams -/

/-- Global memory, of this package or of another. -/
def Home.global : Home → Bool
  | .glob | .remote _ => true
  | _ => false

theorem State.place_global (s : State) (l : Leaf) (va : Nat) : (s.place l va).1.global = true := by
  unfold State.place
  dsimp only
  split <;> rfl

theorem State.sameParties_updSpace (s : State) {h : Home} (hh : h.global = true) (f : Space → Space) : s.SameParties (s.updSpace h f) := by
  cases h with
  | glob => exact .of_eq rfl rfl rfl
  | remote p => exact .of_eq rfl rfl rfl
  | _ => cases hh

theorem State.sameParties_blurScopes (s : State) {h : Home} (hh : h.global = true) (a n : Nat) : s.SameParties (s.blurScopes h a n) := by
  refine .foldl (fun t o => .trans ?_ (State.sameParties_drawn _)) _ s
  exact t.sameParties_updSpace hh _

theorem State.sameParties_putHome (s : State) {h : Home} (hh : h.global = true) (a : Nat) (bs : List Byte) :
    s.SameParties (s.putHome h a bs) := by
  unfold State.putHome
  split
  · exact .refl s
  · refine (s.sameParties_updSpace hh (fun m => m.write a bs)).trans ?_
    dsimp only
    split <;> exact .of_eq rfl rfl rfl

theorem State.sameParties_writeHome (s : State) {h : Home} (hh : h.global = true) (a : Nat) (bs : List Byte) :
    s.SameParties (s.writeHome h a bs) := by
  unfold State.writeHome
  split
  · exact .refl s
  · exact (s.sameParties_blurScopes hh a _).trans (State.sameParties_putHome _ hh a bs)

theorem State.sameParties_touchL2 (s : State) (h : Home) (a n evict : Nat) : s.SameParties (s.touchL2 h a n evict) := by
  unfold State.touchL2
  split
  · exact s.sameParties_updMs _
  · exact .refl s

theorem State.sameParties_afterRead (s : State) (h : Home) (a n : Nat) : s.SameParties (s.afterRead h a n) := by
  unfold State.afterRead
  split
  · exact s.sameParties_drawn
  · exact .refl s

/-! ## Recalls (R316) -/

theorem State.sameParties_redAtHome (s : State) (tid a : Nat) (k : DeltaKind) (d : Nat) : s.SameParties (s.redAtHome tid .glob a k d) := by
  unfold State.redAtHome
  have touched : ∀ f, s.SameParties ((s.touchL2 .glob a k.bytes).updMs f) :=
    fun f => (s.sameParties_touchL2 .glob a k.bytes 0).trans (State.sameParties_updMs _ f)
  dsimp only
  split
  · exact touched _
  · exact ((touched _).trans (State.sameParties_writeHome _ rfl a _)).trans (State.sameParties_afterRead _ _ _ _)

theorem State.sameParties_recallOne (s : State) (line core : Nat) : s.SameParties (s.recallOne line core) := by
  unfold State.recallOne
  split
  · exact s.sameParties_updMs _
  · refine .trans (.trans ?_ (State.sameParties_updCore _ _ _)) (State.sameParties_updMs _ _)
    refine .trans (.trans (s.sameParties_through _) (.foldl (fun t p => ?_) _ _)) (State.sameParties_through _ _)
    exact t.sameParties_redAtHome _ _ _ _

theorem State.sameParties_recall (s : State) (h : Home) (a n : Nat) : s.SameParties (s.recall h a n) := by
  unfold State.recall
  split
  · exact .foldl (fun t line => .foldl (fun u c => u.sameParties_recallOne line c) _ t) _ s
  · exact .refl s

/-! ## Writes by engines -/

theorem State.sameParties_enginePut (s : State) {h : Home} (hh : h.global = true) (a : Nat) (bs : List Byte) (bad : List Bool) :
    s.SameParties (s.enginePut h a bs bad) := by
  unfold State.enginePut
  split
  · split <;> exact .of_eq rfl rfl rfl
  · refine ((s.sameParties_recall h a bs.length).trans (State.sameParties_writeHome _ hh a bs)).trans (.foldl (fun t x => ?_) _ _)
    split
    · exact t.sameParties_updSpace hh _
    · exact .refl t

theorem State.sameParties_engineWrite {s t : State} {c va : Nat} {bs : List Byte} (h : s.engineWrite c va bs = .ok t) : s.SameParties t := by
  unfold State.engineWrite at h
  split at h
  · cases h
  · cases h
    refine .foldl (fun u p => ?_) _ s
    split
    · next l _ =>
      exact (((u.sameParties_touchL2 _ _ p.2 _).trans (State.sameParties_through _ _)).trans
        (State.sameParties_enginePut _ (u.place_global l p.1) _ _ _)).trans (State.sameParties_through _ _)
    · exact .refl u

theorem State.sameParties_physPut (s : State) (a : Nat) (bs : List Byte) : s.SameParties (s.physPut a bs) := by
  unfold State.physPut
  split
  · refine .foldl (fun t p => .trans ?_ (State.sameParties_writeHome _ rfl _ _)) _ s
    exact t.sameParties_touchL2 _ _ _ _
  · exact s.sameParties_enginePut (h := .remote _) rfl _ _ _

/-! ## MSIs and the log -/

theorem State.sameParties_deliverMsi (s : State) (hart file eiid : Nat) : s.SameParties (s.deliverMsi hart file eiid) := by
  unfold State.deliverMsi
  dsimp only
  split
  · exact .of_eq rfl rfl rfl
  · exact .of_eq rfl rfl rfl

theorem State.sameParties_sendMsi (s : State) (entry : Nat) (hart : Option Nat) : s.SameParties (s.sendMsi entry hart) := by
  unfold State.sendMsi
  split
  · exact .of_eq rfl rfl rfl
  · exact s.sameParties_deliverMsi _ _ _

/-- Stated for any state, so that no written memory has to be evaluated to see it. -/
theorem State.sameParties_elogHead (s : State) (n : Nat) : s.SameParties { s with elogHead := n } := .of_eq rfl rfl rfl

theorem State.sameParties_updCtx (s : State) (c : Nat) (f : Ctx → Ctx) (hf : ∀ k, (f k).trapBase = k.trapBase) :
    s.SameParties (s.updCtx c f) := by
  refine ⟨rfl, rfl, fun d => ?_⟩
  by_cases hd : d = c
  · rw [hd, State.ctx_updCtx_same, hf]
  · rw [State.ctx_updCtx_other _ _ hd]

theorem State.sameParties_ctxMsi (s : State) (c n : Nat) : s.SameParties (s.ctxMsi c n) := by
  unfold State.ctxMsi
  split
  · exact s.sameParties_sendMsi _ _
  · exact .refl s

theorem State.sameParties_pkgLog (s : State) (r : LogRec) : s.SameParties (s.pkgLog r) := by
  have written : ∀ a n, s.SameParties { s.physPut a r.bytes with elogHead := n } :=
    fun a n => (s.sameParties_physPut a r.bytes).trans (State.sameParties_elogHead _ n)
  refine State.pkgLog.fun_cases_unfolding s r s.SameParties (fun dropped => ?_) (fun _ msi => ?_) (fun _ silent => ?_)
  · exact .of_eq rfl rfl rfl
  · exact (written _ _).trans (State.sameParties_sendMsi _ _ _)
  · exact written _ _

theorem State.sameParties_ctxLog (s : State) (c : Nat) (r : LogRec) : s.SameParties (s.ctxLog c r).1 := by
  have counted : s.SameParties (s.updCtx c (fun k => { k with elogLost := satNat (k.elogLost + 1) 0xFFFF })) :=
    s.sameParties_updCtx c _ (fun _ => rfl)
  refine State.ctxLog.fun_cases_unfolding s c r (fun x => s.SameParties x.1) (fun noLog => ?_) (fun _ full => ?_)
    (fun _ _ code failed => ?_) (fun _ _ t ht => ?_)
  · exact s.sameParties_pkgLog r
  · exact counted
  · exact counted.trans (State.sameParties_pkgLog _ r)
  · have written := (State.sameParties_engineWrite ht).trans
      (t.sameParties_updCtx c (fun k => { k with elogHead := (k.elogHead + 1) % 2 ^ 32 }) (fun _ => rfl))
    dsimp only
    split
    · exact written.trans (State.sameParties_ctxMsi _ c 1)
    · exact written

theorem State.sameParties_showRecord (s : State) (t : Team) (index : Option Nat) : s.SameParties (s.showRecord t index) := by
  refine State.showRecord.fun_cases_unfolding s t (fun _ u => s.SameParties u) ?_ (fun n a inGlobal => ?_) (fun n elsewhere => ?_) index
  · exact .refl s
  · exact s.sameParties_updCore _ _
  · exact .refl s

end Sys2Proof.Machine
end

section
/-! SUPPORT. What a team shows to its instructions, a blocked party, a killed launch and the entry of the handler (R40, R63, R71, R82). -/

namespace Sys2Proof

theorem mem_upFrom {a n x : Nat} : x ∈ upFrom a n ↔ a ≤ x ∧ x < a + n := by
  induction n generalizing a with
  | zero => simp [upFrom]
  | succ n ih => simp only [upFrom, List.mem_cons, ih]; omega

/-- Values set in turn at the keys of a list read back there. -/
theorem Tab.get_foldl_set {α : Type} [DecidableEq α] (d : α) (f : Nat → α) (q : Nat) (l : List Nat) :
    ∀ t : Tab α, t.wf d = true → (l.foldl (fun m i => m.set d i (f i)) t).get d q = if q ∈ l then f q else t.get d q := by
  induction l with
  | nil => intro t _; simp
  | cons k l ih =>
    intro t ht
    have hr : t.rising = true := by simp only [Tab.wf, Bool.and_eq_true] at ht; exact ht.1
    rw [List.foldl_cons, ih _ (Tab.wf_set d t k (f k) ht)]
    by_cases hq : q = k
    · subst hq; simp [Tab.get_set_same d t q (f q) hr]
    · simp [Tab.get_set_other d t (f k) hq, hq]

namespace Machine

/-! ## What instructions read -/

/-- A team is another but for the registers of its lead thread and its threads. -/
def Team.SameButAgents (t x : Team) : Prop := ∃ regs threads, x = { t with lead := { t.lead with regs := regs }, threads := threads }

/-- Operations in flight change only registers in what the instructions of a team read (R40). -/
theorem State.seen_sameButAgents (s : State) (tid : Nat) (t : Team) : t.SameButAgents (s.seen tid t) := by
  refine List.foldlRecOn (motive := t.SameButAgents) _ _ ⟨_, _, rfl⟩
    (fun x hx o _ => List.foldlRecOn (motive := t.SameButAgents) _ _ hx (fun y hy p _ => ?_))
  obtain ⟨regs, threads, rfl⟩ := hy
  dsimp only
  split <;> exact ⟨_, _, rfl⟩

theorem State.seen_ctx (s : State) (tid : Nat) (t : Team) : (s.seen tid t).ctx = t.ctx := by
  obtain ⟨_, _, h⟩ := s.seen_sameButAgents tid t
  rw [h]

theorem State.seen_hmode (s : State) (tid : Nat) (t : Team) : (s.seen tid t).lead.hmode = t.lead.hmode := by
  obtain ⟨_, _, h⟩ := s.seen_sameButAgents tid t
  rw [h]

/-- Where a lead thread issues, its environment is that of its team's lead thread. -/
theorem State.LeadIssues.env_eq {s : State} {msel : BitVec 4} {pclass : BitVec 2} {e : Env} (h : s.LeadIssues msel pclass e) :
    ∃ t, s.teams.look e.tid = some t
      ∧ e = { tid := e.tid, t := s.seen e.tid t, fid := none, w := noWarp, all := [], act := [], pc := t.lead.pc, idx := t.lead.idx,
              header := t.lead.header, core := t.core, pclass := pclass.toNat } := by
  obtain ⟨⟨he, -, -⟩, hfid⟩ := h
  unfold State.env at he
  split at he
  · obtain ⟨t, ht, rfl⟩ := Option.map_eq_some_iff.mp he
    exact ⟨t, ht, rfl⟩
  · split at he
    · cases he
    · obtain ⟨w, -, rfl⟩ := Option.map_eq_some_iff.mp he
      cases hfid
  · cases he

/-! ## Blocking a party -/

/-- A queued trap only puts its entry on the agenda (R82). -/
theorem State.trapNext_eq_soon (s : State) (tid : Nat) : ∃ l, s.trapNext tid = s.soon l := by
  unfold State.trapNext
  split
  · exact ⟨[], rfl⟩
  · split
    · exact ⟨_, rfl⟩
    · exact ⟨[], rfl⟩

@[simp] theorem State.trapNext_teams (s : State) (tid : Nat) : (s.trapNext tid).teams = s.teams := by
  obtain ⟨l, h⟩ := s.trapNext_eq_soon tid
  rw [h, State.soon_teams]
@[simp] theorem State.trapNext_launches (s : State) (tid : Nat) : (s.trapNext tid).launches = s.launches := by
  obtain ⟨l, h⟩ := s.trapNext_eq_soon tid
  rw [h, State.soon_launches]
@[simp] theorem State.trapNext_ctxs (s : State) (tid : Nat) : (s.trapNext tid).ctxs = s.ctxs := by
  obtain ⟨l, h⟩ := s.trapNext_eq_soon tid
  rw [h, State.soon_ctxs]

@[simp] theorem State.freePort_teams (s : State) (core p tid : Nat) (fid : Option Nat) : (s.freePort core p tid fid).teams = s.teams := rfl
@[simp] theorem State.releasePort_teams (s : State) (e : Env) : (s.releasePort e).teams = s.teams := rfl

@[simp] theorem State.block_launches (s : State) (e : Env) (why : Why) : (s.block e why).launches = s.launches := by
  unfold State.block
  dsimp only
  split
  · rw [State.trapNext_launches]; rfl
  · rfl

@[simp] theorem State.block_ctx (s : State) (e : Env) (why : Why) (c : Nat) : (s.block e why).ctx c = s.ctx c := by
  unfold State.block State.ctx
  dsimp only
  split
  · rw [State.trapNext_ctxs]; rfl
  · rfl

/-- A blocked lead thread stands at its instruction as it did. -/
theorem State.block_lead_look {s : State} {e : Env} {t : Team} (hfid : e.fid = none) (ht : s.teams.look e.tid = some t) (why : Why) :
    (s.block e why).teams.look e.tid = some { t with lead := { t.lead with run := .running (.blocked why) } } := by
  simp only [State.block, hfid, State.trapNext_teams, State.updLead, State.look_updTeam_same, State.releasePort_teams, ht, Option.map_some]

/-! ## Killing a launch -/

/-- A launch that is killed keeps its first cause (R71). -/
theorem State.killLaunch_look {s : State} {lid : Nat} {l : Launch} (hl : s.launches.look lid = some l) (code : Nat) :
    (s.killLaunch lid code).launches.look lid = some { l with killing := some (l.killing.getD code) } := by
  unfold State.killLaunch
  simp only [hl]
  cases hk : l.killing with
  | some c =>
    have kept : ({ l with killing := some c } : Launch) = l := by rw [← hk]
    simp [hl, kept]
  | none => simp [Tab.look_upd_same, hl]

/-! ## Entering the handler -/

/-- The handler finds s120 to s127 of the interrupted lead thread in the save registers (R83). -/
theorem Lead.enterHandler_saves (l : Lead) (tr : TrapRec) (base : Nat) {i : Nat} (hi : i < 8) :
    (l.enterHandler tr base).saves.get 0 i = l.regs.get 0 (120 + i) := by
  have hmem : i ∈ upFrom 0 8 := mem_upFrom.mpr ⟨by omega, by omega⟩
  exact (Tab.get_foldl_set 0 (fun i => l.regs.get 0 (120 + i)) i (upFrom 0 8) [] rfl).trans (if_pos hmem)

/-- A running lead thread's own fault returns to the faulting instruction; a header fault has no index (R82). -/
theorem Lead.enterHandler_own_return {l : Lead} {c : ClauseRun} (hr : l.run = .running c) {tr : TrapRec} (hl : tr.leadf = true)
    (hk : tr.kind = 0) (base : Nat) :
    (l.enterHandler tr base).retPc = tr.clause ∧ (l.enterHandler tr base).retIdx = if tr.index = 31 then 0 else tr.index := by
  simp [Lead.enterHandler, hr, hl, hk]

/-- Only an access that the lead thread is parked on can be abandoned (R82). -/
theorem State.abandonLead_of_no_access {s : State} {tid : Nat} {t : Team} (ht : s.teams.look tid = some t)
    (hr : ∀ id, t.lead.run ≠ .running (.blocked (.access id))) : s.abandonLead tid = s := by
  unfold State.abandonLead
  simp only [ht]

/-- With a handler, a lead thread that is parked on no access enters it. -/
theorem State.enterTrap_look {s : State} {tid : Nat} {t : Team} (ht : s.teams.look tid = some t) (hb : (s.ctx t.ctx).trapBase ≠ 0)
    (hr : ∀ id, t.lead.run ≠ .running (.blocked (.access id))) (tr : TrapRec) :
    (s.enterTrap tid tr).teams.look tid = some { t with lead := t.lead.enterHandler tr (s.ctx t.ctx).trapBase } := by
  unfold State.enterTrap
  simp only [ht, if_neg hb, State.abandonLead_of_no_access ht hr, State.updLead, State.look_updTeam_same, State.freePort_teams, Option.map_some]

/-- The lead thread's own trap enters at once (R82). -/
theorem State.deliverTrap_own {s : State} {tid : Nat} {t : Team} (ht : s.teams.look tid = some t) {tr : TrapRec} (hl : tr.leadf = true) :
    s.deliverTrap tid tr = s.enterTrap tid tr := by
  unfold State.deliverTrap
  simp only [ht, hl, Bool.true_or, if_true]

/-! ## Taking a trap -/

/-- What follows the log record of a trap, which changes no party and no handler: a faulting party is blocked, and the launch is killed or
the trap delivered (R81, R82). -/
theorem State.takeTrap_eq (s : State) (e : Env) (kind engine index : Nat) (r : Raise) :
    ∃ u elog elogNone, s.SameParties u ∧ s.takeTrap e kind engine index r =
      let v := if kind = 0 then u.block e .trap else u
      if (s.ctx e.t.ctx).trapBase = 0 then v.killLaunch e.t.launch (if kind = 2 then 0x14 else r.code)
      else if e.lead && e.t.lead.hmode then v.killLaunch e.t.launch r.code
      else v.deliverTrap e.tid { v.trapOf e kind index r with elog := elog, elogNone := elogNone } := by
  let logged := s.ctxLog e.t.ctx (s.logOf e kind (if kind = 2 then 0 else 2) engine index r)
  have same : s.SameParties (logged.1.showRecord e.t logged.2) :=
    (s.sameParties_ctxLog _ _).trans (State.sameParties_showRecord _ _ _)
  refine ⟨_, logged.2.getD 0, logged.2.isNone, same, ?_⟩
  have base : ((if kind = 0 then (logged.1.showRecord e.t logged.2).block e .trap else logged.1.showRecord e.t logged.2).ctx e.t.ctx).trapBase
      = (s.ctx e.t.ctx).trapBase := by
    rw [← same.trapBase]; split
    · rw [State.block_ctx]
    · rfl
  unfold State.takeTrap
  rw [← base]

/-- A fault that no handler takes kills the launch: there is none, or the lead thread is in it, or the fault is consumed poison (R71,
R81, R82). -/
theorem State.raise_kills {s : State} {e : Env} {l : Launch} (hl : s.launches.look e.t.launch = some l) (engine index : Nat) {r : Raise}
    (h : (s.ctx e.t.ctx).trapBase = 0 ∨ (e.fid = none ∧ e.t.lead.hmode = true) ∨ r.code = 0x0A) :
    (s.raise e engine index r).launches.look e.t.launch = some { l with killing := some (l.killing.getD r.code) } := by
  unfold State.raise
  split
  · next poison =>
    rw [poison]
    exact State.killLaunch_look (by rw [State.block_launches, hl]) _
  · next poison =>
    obtain ⟨u, elog, elogNone, same, eq⟩ := s.takeTrap_eq e 0 engine index r
    have kills : ((u.block e .trap).killLaunch e.t.launch r.code).launches.look e.t.launch
        = some { l with killing := some (l.killing.getD r.code) } :=
      State.killLaunch_look (by rw [State.block_launches, same.launches, hl]) _
    rw [eq]
    rcases h with base | ⟨hfid, hmode⟩ | code
    · simpa [base] using kills
    · simpa [Env.lead_of_none hfid, hmode] using kills
    · exact absurd code poison

/-- The lead thread's own fault outside the handler enters it, with a record of the fault, from the lead thread as it stood, parked
(R71, R82). -/
theorem State.raise_own_enters {s : State} {e : Env} {t : Team} (hfid : e.fid = none) (ht : s.teams.look e.tid = some t)
    (hctx : e.t.ctx = t.ctx) (hmode : e.t.lead.hmode = false) (hb : (s.ctx t.ctx).trapBase ≠ 0) (engine index : Nat) {r : Raise}
    (hc : r.code ≠ 0x0A) :
    ∃ (v : State) (elog : Nat) (elogNone : Bool), (s.raise e engine index r).teams.look e.tid = some { t with
      lead := ({ t.lead with run := .running (.blocked .trap) } : Lead).enterHandler
        { v.trapOf e 0 index r with elog := elog, elogNone := elogNone } (s.ctx t.ctx).trapBase } := by
  obtain ⟨u, elog, elogNone, same, eq⟩ := s.takeTrap_eq e 0 engine index r
  have blocked := State.block_lead_look (s := u) hfid (by rw [same.teams, ht]) .trap
  have base : ((u.block e .trap).ctx t.ctx).trapBase = (s.ctx t.ctx).trapBase := by rw [State.block_ctx, same.trapBase]
  refine ⟨u.block e .trap, elog, elogNone, ?_⟩
  rw [State.raise, if_neg hc, eq]
  simp only [hctx, hb, hmode, Bool.and_false, Bool.false_eq_true, if_true, if_false]
  rw [State.deliverTrap_own blocked (Env.lead_of_none hfid), State.enterTrap_look blocked (by rw [base]; exact hb) (fun id h => by cases h), base]

end Machine

end Sys2Proof
end

section
/-! The lead thread's faults (R71, R81 to R83). -/

namespace Sys2Proof.Machine

/-- Settles O31: the log record changes no party, the lead thread is blocked and enters the handler with the record of its fault, and what
no handler takes kills the launch. -/
theorem leadFaultsEnterTheHandlerOrKillTheLaunch : Obligations.LeadFaultsEnterTheHandlerOrKillTheLaunch := by
  unfold Obligations.LeadFaultsEnterTheHandlerOrKillTheLaunch
  refine ⟨fun s msel pclass e engine r h t₀ ht hmode hb hc => ?_, fun s msel pclass e engine r l _ hl h => State.raise_kills hl engine e.idx h⟩
  obtain ⟨t, ht', he⟩ := h.env_eq
  obtain rfl : t₀ = t := Option.some.inj (ht.symm.trans ht')
  have hctx : e.t.ctx = t₀.ctx := by rw [he]; exact s.seen_ctx e.tid t₀
  have hm : e.t.lead.hmode = false := by rw [he]; exact (s.seen_hmode e.tid t₀).trans hmode
  have hpclass : e.pclass = pclass.toNat := by rw [he]
  rw [hctx] at hb ⊢
  obtain ⟨v, elog, elogNone, entered⟩ := State.raise_own_enters h.2 ht hctx hm hb engine e.idx hc
  have own : e.lead = true := Env.lead_of_none h.2
  obtain ⟨atClause, atIndex⟩ := Lead.enterHandler_own_return (l := { t₀.lead with run := .running (.blocked .trap) }) rfl
    (tr := { v.trapOf e 0 e.idx r with elog := elog, elogNone := elogNone }) own rfl (s.ctx t₀.ctx).trapBase
  refine ⟨_, entered, rfl, ?_⟩
  exact ⟨rfl, rfl, rfl, rfl, rfl, rfl, own, rfl, rfl, if_pos own, rfl, rfl, hpclass, atClause, atIndex, rfl,
    fun i hi => Lead.enterHandler_saves _ _ _ hi, rfl, rfl, rfl⟩

end Sys2Proof.Machine
end

section
/-! SUPPORT. The values and the encoding checks of the scalar instructions (R47, R50, R51, R102). -/

namespace Sys2Proof

/-- The signed reading tells values of n bits apart. -/
theorem sext_inj {a b n : Nat} (ha : a < 2 ^ n) (hb : b < 2 ^ n) (h : sext a n = sext b n) : a = b := by
  unfold sext at h
  rw [Nat.mod_eq_of_lt ha, Nat.mod_eq_of_lt hb] at h
  dsimp only at h
  split at h <;> split at h <;> omega

theorem FmtA.nat0_iff (f : FmtA) : f.nat0 = true ↔ f.md.toNat % 2 = 1 := beq_iff_eq

/-! ## Encoding checks -/

/-- No check fails just where every check holds. -/
theorem firstBad_eq_none {l : List (Bool × Illegal)} : firstBad l = none ↔ ∀ c ∈ l, c.1 = true := by
  induction l with
  | nil => simp [firstBad]
  | cons c l ih =>
    obtain ⟨ok, why⟩ := c
    cases ok <;> simp [firstBad, ih]

/-- A well-formed instruction passes every check of its encoding (R47). -/
theorem wellFormed_checks {lead : Bool} {i : Instr} (h : wellFormed lead i = true) : ∀ c ∈ checks lead i, c.1 = true :=
  (List.forall_mem_cons.1 (firstBad_eq_none.1 (Option.isNone_iff_eq_none.1 h))).2

/-- A source that an instruction does not name is 0 and not replaced by a literal zero (R50, R51). -/
theorem srcOk_unused {z : Bool} {v : BitVec 9} {mult lim : Nat} (h : ∀ c ∈ srcOk false z v.toNat mult lim, c.1 = true) :
    v = 0 ∧ z = false := by
  simp only [srcOk, List.forall_mem_cons, Bool.false_or, Bool.not_eq_true', beq_iff_eq] at h
  obtain ⟨hz, -, hv, -⟩ := h
  exact ⟨BitVec.eq_of_toNat_eq hv, hz⟩

/-- What the checks of a scalar instruction of format A leave of its MOD bits and of the sources B and C (R102). -/
theorem chkLead_ok {f : FmtA} {a b c d ok : Bool} (h : ∀ x ∈ chkLead f a b c d ok, x.1 = true) :
    ok = true ∧ (c = false → f.c = 0 ∧ f.zc = false) ∧ (b = false → f.b = 0 ∧ f.zb = false) := by
  simp only [chkLead, chkA, List.forall_mem_append, List.forall_mem_singleton] at h
  obtain ⟨⟨⟨⟨⟨-, hmod⟩, -⟩, hb⟩, hc⟩, -⟩ := h
  exact ⟨hmod, fun unused => srcOk_unused (unused ▸ hc), fun unused => srcOk_unused (unused ▸ hb)⟩

/-- The row of the table of R102 that a well-formed scalar instruction of format A keeps: its number of MOD values and of sources. -/
theorem leadRow_of_wellFormed {f : FmtA} {i : Instr} {b c d ok : Bool} {mods sources : Nat}
    (checked : checks true i = chkLead f true b c d ok) (hm : ok = true → f.md.toNat < mods)
    (hc : sources < 3 → c = false) (hb : sources < 2 → b = false) (h : wellFormed true i = true) :
    f.md.toNat < mods ∧ (sources < 3 → f.c = 0 ∧ f.zc = false) ∧ (sources < 2 → f.b = 0 ∧ f.zb = false) := by
  obtain ⟨hmod, unusedC, unusedB⟩ := chkLead_ok (checked ▸ wellFormed_checks h)
  exact ⟨hm hmod, fun n => unusedC (hc n), fun n => unusedB (hb n)⟩

/-- The row of a well-formed instruction of two sources. -/
theorem twoSourceRow_of_wellFormed {f : FmtA} {i : Instr} {ok : Bool} {mods : Nat}
    (checked : checks true i = chkLead f true true false true ok) (hm : ok = true → f.md.toNat < mods) (h : wellFormed true i = true) :
    f.md.toNat < mods ∧ (2 < 3 → f.c = 0 ∧ f.zc = false) ∧ (2 < 2 → f.b = 0 ∧ f.zb = false) :=
  leadRow_of_wellFormed checked hm (fun _ => rfl) (fun lt => absurd lt (Nat.lt_irrefl 2)) h

/-- SLI names no register as source (R102). -/
theorem sli_wellFormed_a {f : FmtI} (h : wellFormed true (.sli f) = true) : f.a = 0 := by
  have checked : ∀ c ∈ chkI true false true true f, c.1 = true := wellFormed_checks h
  simp only [chkI, List.forall_mem_append, List.forall_mem_cons, Bool.false_eq_true, if_false, beq_iff_eq] at checked
  obtain ⟨-, ha, -⟩ := checked
  exact BitVec.eq_of_toNat_eq ha

namespace Machine

/-! ## Values -/

/-- A lead operand has 64 bits. -/
theorem Team.sop_lt (t : Team) (z : Bool) (n : Nat) : t.sop z n < 2 ^ 64 := by
  unfold Team.sop
  split
  · decide
  · exact BitVec.isLt _

/-- The value that a lead register takes counts modulo 2^64 (R102). -/
theorem State.leadWrote_congr (s : State) (e : Env) (d : Nat) {v w : Nat} (h : v % 2 ^ 64 = w % 2 ^ 64) :
    s.leadWrote e d v = s.leadWrote e d w := by
  unfold State.leadWrote State.setS
  rw [show BitVec.ofNat 64 v = BitVec.ofNat 64 w from BitVec.eq_of_toNat_eq (by simpa using h)]

theorem mulHigh_nat0 (f : FmtA) (a b : Nat) :
    mulHigh f.nat0 a b = if f.md.toNat % 2 = 1 then a * b / 2 ^ 64 else wrap (sext a 64 * sext b 64 / 2 ^ 64) 64 := by
  simp only [mulHigh, s64, f.nat0_iff]

theorem divTrunc_nat0 (f : FmtA) (a b : Nat) :
    divTrunc f.nat0 a b = if b = 0 then 2 ^ 64 - 1 else if f.md.toNat % 2 = 1 then a / b else wrap ((sext a 64).tdiv (sext b 64)) 64 := by
  simp only [divTrunc, s64, f.nat0_iff]

theorem remTrunc_nat0 (f : FmtA) (a b : Nat) :
    remTrunc f.nat0 a b = if b = 0 then a else if f.md.toNat % 2 = 1 then a % b else wrap ((sext a 64).tmod (sext b 64)) 64 := by
  simp only [remTrunc, s64, f.nat0_iff]

theorem sar64_eq (a k : Nat) : sar64 a k = wrap (sext a 64 / 2 ^ k) 64 := by
  simp only [sar64, s64, Int.natCast_pow, Int.cast_ofNat_Int]

theorem less64_nat0 (f : FmtA) (a b : Nat) :
    less64 f.nat0 a b = true ↔ if f.md.toNat % 2 = 1 then a < b else sext a 64 < sext b 64 := by
  unfold less64
  simp only [f.nat0_iff]
  split <;> exact decide_eq_true_iff

/-- SMIN takes its first operand where the two are equal. -/
theorem smin_value (f : FmtA) (a b : Nat) :
    (if less64 f.nat0 b a then b else a) =
      if f.md.toNat % 2 = 1 then min a b else if sext a 64 ≤ sext b 64 then a else b := by
  simp only [less64_nat0]
  split
  · simp only [← Nat.not_le, ite_not, Nat.min_def]
  · simp only [← Int.not_le, ite_not]

/-- SMAX may take either operand where the two are equal: 64-bit patterns that read as one number are one pattern. -/
theorem smax_value (f : FmtA) {a b : Nat} (ha : a < 2 ^ 64) (hb : b < 2 ^ 64) :
    (if less64 f.nat0 a b then b else a) =
      if f.md.toNat % 2 = 1 then max a b else if sext a 64 ≤ sext b 64 then b else a := by
  simp only [less64_nat0]
  split
  · rw [Nat.max_comm]
    simp only [← Nat.not_le, ite_not, Nat.max_def]
  · rcases Int.lt_trichotomy (sext a 64) (sext b 64) with lt | eq | gt
    · rw [if_pos lt, if_pos (Int.le_of_lt lt)]
    · obtain rfl := sext_inj ha hb eq
      rw [ite_self, ite_self]
    · rw [if_neg (Int.not_lt.2 (Int.le_of_lt gt)), if_neg (Int.not_le.2 gt)]

/-- The relations of SCMP, by MOD (R102). -/
theorem scmp_eq (m a b : Nat) : scmp m a b = match m with
    | 0 => decide (a = b)
    | 1 => decide (a ≠ b)
    | 2 => decide (sext a 64 < sext b 64)
    | 3 => decide (sext a 64 ≤ sext b 64)
    | 4 => decide (a < b)
    | _ => decide (a ≤ b) := by
  match m with
  | 0 | 2 | 4 => rfl
  | 1 => exact decide_not.symm
  | 3 => exact decide_not.symm.trans (decide_eq_decide.2 Int.not_lt)
  | _ + 5 => exact decide_not.symm.trans (decide_eq_decide.2 Nat.not_lt)

/-! ## Issue -/

/-- A scalar instruction writes its result, modulo 2^64, and goes on. -/
theorem exec_leadResult {s : State} {msel : BitVec 4} {pclass : BitVec 2} {e : Env} (h : s.LeadIssues msel pclass e) {i : Instr} {dst v : Nat}
    {val : Env → Nat} (runs : exec i s = .next (leadResult s msel.toNat pclass.toNat dst val)) (hv : val e % 2 ^ 64 = v % 2 ^ 64) :
    exec i s = .next (s.leadWrote e dst v) := by
  rw [runs, leadResult_eq h, s.leadWrote_congr e dst hv]

end Machine

end Sys2Proof
end

section
/-! The scalar instructions (R102). -/

namespace Sys2Proof.Machine

/-- Settles O9: an instruction of either format writes what its operation gives modulo 2^64, which is the value of its row; the MOD values and
sources of a row are those that the encoding checks allow. -/
theorem scalarInstructionsWriteTheirResult : Obligations.ScalarInstructionsWriteTheirResult := by
  unfold Obligations.ScalarInstructionsWriteTheirResult
  simp only [List.forall_mem_cons, List.not_mem_nil, false_implies, implies_true, and_true]
  have reduced : ∀ v, v % 2 ^ 64 = v % 2 ^ 64 % 2 ^ 64 := fun v => (Nat.mod_mod v _).symm
  have value : ∀ {v w : Nat}, v = w → v % 2 ^ 64 = w % 2 ^ 64 := congrArg (· % 2 ^ 64)
  refine ⟨fun f s e h => ?formatA, fun f s e h => ?formatI, fun f => ?rows, fun f => sli_wellFormed_a⟩
  case formatA =>
    refine ⟨?sadd, ?ssub, ?smul, ?smulh, ?sdiv, ?srem, ?sand, ?sor, ?sxor, ?sshl, ?sshr, ?ssar, ?smin, ?smax, ?scmp, ?smov, ?ssel⟩
    case sadd | ssub | smul | sshl => exact exec_leadResult h rfl (reduced _)
    case sand | sor | sxor | sshr | smov => exact exec_leadResult h rfl rfl
    case smulh => exact exec_leadResult h rfl (value (mulHigh_nat0 f _ _))
    case sdiv => exact exec_leadResult h rfl (value (divTrunc_nat0 f _ _))
    case srem => exact exec_leadResult h rfl (value (remTrunc_nat0 f _ _))
    case ssar => exact exec_leadResult h rfl (value (sar64_eq _ _))
    case smin => exact exec_leadResult h rfl (value (smin_value f _ _))
    case smax => exact exec_leadResult h rfl (value (smax_value f (e.t.sop_lt _ _) (e.t.sop_lt _ _)))
    case scmp => exact exec_leadResult h rfl (value (congrArg b2n (scmp_eq _ _ _)))
    case ssel => exact exec_leadResult h rfl (value (by simp only [bne_iff_ne]))
  case formatI =>
    refine ⟨?sadd, ?ssub, ?smul, ?sand, ?sor, ?sxor, ?sshl, ?sshr, ?ssar, ?sli, ?slih⟩
    case sadd | ssub | smul | sshl | slih => exact exec_leadResult h rfl (reduced _)
    case sand | sor | sxor | sshr | sli => exact exec_leadResult h rfl rfl
    case ssar => exact exec_leadResult h rfl (value (sar64_eq _ _))
  case rows =>
    have noMod : (f.md.toNat == 0) = true → f.md.toNat < 1 := fun z => Nat.lt_one_iff.2 (eq_of_beq z)
    refine ⟨?sadd, ?ssub, ?smul, ?smulh, ?sdiv, ?srem, ?sand, ?sor, ?sxor, ?sshl, ?sshr, ?ssar, ?smin, ?smax, ?scmp, ?smov, ?ssel⟩
    case sadd | ssub | smul | sand | sor | sxor | sshl | sshr | ssar => exact twoSourceRow_of_wellFormed rfl noMod
    case smulh | sdiv | srem | smin | smax | scmp => exact twoSourceRow_of_wellFormed rfl of_decide_eq_true
    case smov => exact leadRow_of_wellFormed rfl noMod (fun _ => rfl) (fun _ => rfl)
    case ssel => exact leadRow_of_wellFormed rfl noMod (fun lt => absurd lt (by decide)) (fun lt => absurd lt (by decide))

end Sys2Proof.Machine
end

section
/-! SUPPORT. Writes to several registers, threads or home warps at once, and what stays of a team while its threads move on (R40, R176,
R177). -/

namespace Sys2Proof

namespace Tab

variable {α β : Type}

/-- Entries that are changed in turn, each once, change by their own function. -/
theorem look_foldl_upd (f : Nat → α → α) (q : Nat) : ∀ (l : List Nat) (t : Tab α), l.Nodup →
    look (l.foldl (fun t k => t.upd k (f k)) t) q = if q ∈ l then (look t q).map (f q) else look t q
  | [], t, _ => by simp
  | k :: l, t, nodup => by
    obtain ⟨fresh, nodup⟩ := List.nodup_cons.1 nodup
    rw [List.foldl_cons, look_foldl_upd f q l _ nodup]
    by_cases hq : q = k
    · subst hq
      simp [fresh, look_upd_same]
    · simp [hq, look_upd_other]

variable [DecidableEq α]

theorem rising_set (d : α) (t : Tab α) (q : Nat) (x : α) (h : t.rising = true) : (t.set d q x).rising = true := by
  unfold set
  split
  · exact rising_del t q h
  · exact rising_put t q x h

/-- Values set at other keys leave the value of a key. -/
theorem get_foldl_set_other (d : α) (g : β → α) {q : Nat} : ∀ (l : List (Nat × β)) (t : Tab α), q ∉ l.map (·.1) →
    (l.foldl (fun m p => m.set d p.1 (g p.2)) t).get d q = t.get d q
  | [], _, _ => rfl
  | p :: l, t, hq => by
    obtain ⟨first, rest⟩ := not_or.1 (mt List.mem_cons.2 hq)
    rw [List.foldl_cons, get_foldl_set_other d g l _ rest, get_set_other d t _ first]

/-- Values set in turn, no key twice, read back. -/
theorem get_foldl_set_mem (d : α) (g : β → α) {p : Nat × β} : ∀ (l : List (Nat × β)) (t : Tab α), t.rising = true →
    (l.map (·.1)).Nodup → p ∈ l → (l.foldl (fun m p => m.set d p.1 (g p.2)) t).get d p.1 = g p.2
  | p' :: l, t, ht, nodup, hp => by
    obtain ⟨fresh, nodup⟩ := List.nodup_cons.1 nodup
    rw [List.foldl_cons]
    rcases List.mem_cons.1 hp with rfl | hp
    · rw [get_foldl_set_other d g l _ fresh, get_set_same d t _ _ ht]
    · exact get_foldl_set_mem d g l _ (rising_set d t _ _ ht) nodup hp

end Tab

namespace NatSet

theorem mem_ins {t : NatSet} {q x : Nat} : x ∈ ins t q ↔ x = q ∨ x ∈ t := by
  induction t with
  | nil => simp [ins]
  | cons k t ih =>
    simp only [ins]
    split
    · simp
    · split
      · next same => simp [same]
      · simp [ih, or_left_comm]

theorem pairwise_ins {t : NatSet} (h : t.Pairwise (· < ·)) (q : Nat) : (ins t q).Pairwise (· < ·) := by
  induction t with
  | nil => simp [ins]
  | cons k t ih =>
    have ⟨below, rest⟩ := List.pairwise_cons.1 h
    simp only [ins]
    split
    · next lt => exact List.pairwise_cons.2 ⟨List.forall_mem_cons.2 ⟨lt, fun x hx => Nat.lt_trans lt (below x hx)⟩, h⟩
    · split
      · exact h
      · refine List.pairwise_cons.2 ⟨fun x hx => ?_, ih rest⟩
        rcases mem_ins.1 hx with rfl | hx
        · omega
        · exact below x hx

end NatSet

/-! ## Bits -/

theorem bit_eq_testBit (x i : Nat) : bit x i = x.testBit i := by
  rw [Nat.testBit_eq_decide_div_mod_eq]
  rfl

theorem bit_mod_two_pow {n i : Nat} (h : i < n) (x : Nat) : bit (x % 2 ^ n) i = bit x i := by
  simp [bit_eq_testBit, h]

/-- One bit replaced, between the bits above it and those below. -/
theorem putBits_one (x i : Nat) (b : Bool) : putBits x i i (b2n b) = 2 ^ i * (2 * (x / 2 ^ i / 2) + b2n b) + x % 2 ^ i := by
  have parts : 2 ^ i * (2 * (x / 2 ^ i / 2)) + x / 2 ^ i % 2 * 2 ^ i + x % 2 ^ i = x := by
    rw [Nat.mul_comm (x / 2 ^ i % 2), ← Nat.mul_add, Nat.div_add_mod, Nat.div_add_mod]
  have small : b2n b % 2 = b2n b := by cases b <;> rfl
  rw [putBits, bits, Nat.add_sub_cancel_left, Nat.pow_one, small, Nat.mul_add, Nat.mul_comm (b2n b)]
  omega

theorem bit_putBits_one (x i j : Nat) (b : Bool) : bit (putBits x i i (b2n b)) j = if j = i then b else bit x j := by
  rw [putBits_one, bit_eq_testBit, bit_eq_testBit, Nat.testBit_two_pow_mul_add _ (Nat.mod_lt _ (Nat.two_pow_pos i))]
  rcases Nat.lt_trichotomy j i with below | rfl | above
  · simp [below, Nat.ne_of_lt below]
  · cases b <;> simp [b2n, Nat.testBit_zero]
  · obtain ⟨k, rfl⟩ : ∃ k, j = i + 1 + k := ⟨j - (i + 1), by omega⟩
    have half : (2 * (x / 2 ^ i / 2) + b2n b) / 2 = x / 2 ^ i / 2 := by cases b <;> simp [b2n, Nat.mul_add_div]
    rw [if_neg (by omega), if_neg (by omega), show i + 1 + k - i = k + 1 by omega, Nat.testBit_succ, half, ← Nat.testBit_succ,
      Nat.testBit_div_two_pow, show k + 1 + i = i + 1 + k by omega]

namespace Machine

/-! ## What an update of one team leaves -/

/-- A team that an update looks at and keeps. -/
theorem State.teamOnly_refl {s : State} {tid : Nat} {t : Team} (ht : s.teams.look tid = some t) : s.TeamOnly s tid t :=
  ⟨rfl, fun _ _ => rfl, ht, fun _ => rfl⟩

theorem State.TeamOnly.look {s u : State} {tid : Nat} {t : Team} (h : s.TeamOnly u tid t) : u.teams.look tid = some t := by
  obtain ⟨-, -, own, -⟩ := h
  exact own

theorem State.TeamOnly.trans {s u v : State} {tid : Nat} {t x : Team} (h : s.TeamOnly u tid t) (h' : u.TeamOnly v tid x) :
    s.TeamOnly v tid x := by
  obtain ⟨rest, others, -, cores⟩ := h
  obtain ⟨rest', others', own', cores'⟩ := h'
  exact ⟨rest'.trans (congrArg (fun u : State => { u with teams := v.teams, cores := v.cores, agenda := v.agenda }) rest),
    fun n hn => (others' n hn).trans (others n hn), own',
    fun c => (cores' c).trans (congrArg (fun k : Core => { k with ports := (v.core c).ports }) (cores c))⟩

theorem State.teamOnly_updTeam {s : State} {tid : Nat} {t : Team} (ht : s.teams.look tid = some t) (f : Team → Team) :
    s.TeamOnly (s.updTeam tid f) tid (f t) :=
  ⟨rfl, fun _ hn => s.look_updTeam_other f hn, by rw [State.look_updTeam_same, ht, Option.map_some], fun _ => rfl⟩

theorem State.teamOnly_releasePort {s : State} {e : Env} {tid : Nat} {t : Team} (ht : s.teams.look tid = some t) :
    s.TeamOnly (s.releasePort e) tid t := by
  refine ⟨rfl, fun _ _ => rfl, ht, fun c => ?_⟩
  unfold State.releasePort State.freePort
  by_cases hc : c = e.core
  · rw [hc, State.core_updCore_same]
  · rw [State.core_updCore_other _ _ hc]

/-- A team that keeps its scratchpad and its threads' own memory changes no byte of any level. -/
theorem State.TeamOnly.sameBytes {s u : State} {tid : Nat} {t x : Team} (h : s.TeamOnly u tid x) (ht : s.teams.look tid = some t)
    (scratch : x.scratch = t.scratch) (priv : ∀ th, (x.thread th).priv = (t.thread th).priv) : SameBytes s u := by
  obtain ⟨rest, others, own, -⟩ := h
  intro home a
  suffices space : u.space home = s.space home by rw [space]
  cases home with
  | priv n th =>
    by_cases hn : n = tid
    · subst hn; simp only [State.space, own, ht, priv]
    · simp only [State.space, others n hn]
  | scratch n =>
    by_cases hn : n = tid
    · subst hn; simp only [State.space, own, ht, scratch]
    · simp only [State.space, others n hn]
  | cluster | chip | glob | remote => rw [rest]; rfl

/-! ## Where threads stand -/

/-- A thread is another but for where it stands (R174, R178). -/
def Thread.SameButPlace (x y : Thread) : Prop :=
  y = { x with pc := y.pc, idx := y.idx, run := y.run, since := y.since, holdcnt := y.holdcnt }

theorem Thread.SameButPlace.refl (x : Thread) : x.SameButPlace x := rfl

theorem Thread.SameButPlace.trans {x y z : Thread} (h : x.SameButPlace y) (h' : y.SameButPlace z) : x.SameButPlace z :=
  Eq.trans h' (congrArg (fun y : Thread => { y with pc := z.pc, idx := z.idx, run := z.run, since := z.since, holdcnt := z.holdcnt }) h)

theorem Thread.arrive_sameButPlace (x : Thread) (pc clock : Nat) (header : Bool) : x.SameButPlace (x.arrive pc clock header) := by
  unfold Thread.arrive
  split <;> rfl

/-- A team is another but for its formed warps and where its threads stand. -/
def Team.SameButPlaces (t u : Team) : Prop :=
  u = { t with threads := u.threads, formed := u.formed } ∧ ∀ th, (t.thread th).SameButPlace (u.thread th)

theorem Team.SameButPlaces.trans {t u v : Team} (h : t.SameButPlaces u) (h' : u.SameButPlaces v) : t.SameButPlaces v :=
  let ⟨frame, places⟩ := h
  let ⟨frame', places'⟩ := h'
  ⟨frame'.trans (congrArg (fun u : Team => { u with threads := v.threads, formed := v.formed }) frame), fun th => (places th).trans (places' th)⟩

theorem Team.sameButPlaces_formed (t : Team) (formed : Tab Warp) : t.SameButPlaces { t with formed := formed } :=
  ⟨rfl, fun _ => Thread.SameButPlace.refl _⟩

theorem Team.sameButPlaces_updThread (t : Team) (th : Nat) {f : Thread → Thread} (hf : ∀ x : Thread, x.SameButPlace (f x)) :
    t.SameButPlaces { t with threads := t.threads.upd th f } := by
  refine ⟨rfl, fun q => ?_⟩
  unfold Team.thread Tab.get
  by_cases hq : q = th
  · subst hq
    rw [Tab.look_upd_same]
    cases t.threads.look q with
    | none => exact Thread.SameButPlace.refl _
    | some x => exact hf x
  · rw [Tab.look_upd_other _ _ hq]
    exact Thread.SameButPlace.refl _

/-- Where the threads of one team stand, its formed warps and the issue ports are all that has changed. -/
def State.Moves (s u : State) (tid : Nat) (t : Team) : Prop := ∃ x, s.TeamOnly u tid x ∧ t.SameButPlaces x

theorem State.TeamOnly.moves {s u v : State} {tid : Nat} {t : Team} (h : s.TeamOnly u tid t) (h' : u.Moves v tid t) : s.Moves v tid t := by
  obtain ⟨x, only, same⟩ := h'
  exact ⟨x, h.trans only, same⟩

theorem State.Moves.updTeam {s u : State} {tid : Nat} {t : Team} (h : s.Moves u tid t) {f : Team → Team}
    (hf : ∀ x : Team, x.SameButPlaces (f x)) : s.Moves (u.updTeam tid f) tid t := by
  obtain ⟨x, only, same⟩ := h
  exact ⟨f x, only.trans (State.teamOnly_updTeam only.look f), same.trans (hf x)⟩

theorem State.moves_refl {s : State} {tid : Nat} {t : Team} (ht : s.teams.look tid = some t) : s.Moves s tid t :=
  ⟨t, State.teamOnly_refl ht, t.sameButPlaces_formed _⟩

theorem State.dissolve_moves {s : State} {tid : Nat} {t : Team} (ht : s.teams.look tid = some t) (fid : Nat) (next : Nat → Option Nat) :
    s.Moves (s.dissolve tid fid next) tid t := by
  unfold State.dissolve
  simp only [ht]
  split
  · exact State.moves_refl ht
  · refine List.foldlRecOn (motive := fun u => s.Moves u tid t) _ _ ?_ (fun u hu th _ => ?_)
    · exact (State.moves_refl ht).updTeam (fun x => x.sameButPlaces_formed _)
    · split
      · refine hu.updTeam (fun x => x.sameButPlaces_updThread th (fun y => ?_))
        split
        · exact y.arrive_sameButPlace _ _ _
        · exact Thread.SameButPlace.refl y
      · exact hu

/-- A formed warp that goes on, or dissolves at the end of its clause, moves only its threads (R38, R177). -/
theorem State.advance_moves {s : State} {e : Env} {t : Team} (ht : s.teams.look e.tid = some t) (hfid : e.fid.isSome = true) (c : ClauseRun) :
    s.Moves (s.advance e c) e.tid t := by
  obtain ⟨fid, hfid⟩ := Option.isSome_iff_exists.1 hfid
  have port : s.TeamOnly (s.releasePort e) e.tid t := State.teamOnly_releasePort ht
  unfold State.advance
  simp only [hfid]
  split
  · exact port.moves (State.dissolve_moves port.look _ _)
  · split
    · exact (State.moves_refl ht).updTeam (fun x => x.sameButPlaces_formed _)
    · exact port.moves ((State.moves_refl port.look).updTeam (fun x => x.sameButPlaces_formed _))

/-! ## A formed warp's issue and its writes -/

/-- Where a formed warp issues, its environment is that of its team and of the warp. -/
theorem State.LaneIssues.env_eq {s : State} {msel : BitVec 4} {pclass : BitVec 2} {e : Env} (h : s.LaneIssues msel pclass e) :
    ∃ t fid w, s.teams.look e.tid = some t ∧ t.formed.look fid = some w
      ∧ e = { tid := e.tid, t := s.seen e.tid t, fid := some fid, w := w, all := w.threads, act := t.active w msel.toNat, pc := w.pc,
              idx := w.idx, header := w.header, core := t.coreOf w.quarter, pclass := pclass.toNat } := by
  obtain ⟨⟨he, -, -⟩, hfid⟩ := h
  unfold State.env at he
  split at he
  · obtain ⟨t, -, rfl⟩ := Option.map_eq_some_iff.mp he
    cases hfid
  · split at he
    · cases he
    · next t ht =>
      obtain ⟨w, hw, rfl⟩ := Option.map_eq_some_iff.mp he
      exact ⟨t, _, w, ht, hw, rfl⟩
  · cases he

/-- The active threads are threads of the formed warp (R13). -/
theorem State.LaneIssues.act_sublist {s : State} {msel : BitVec 4} {pclass : BitVec 2} {e : Env} (h : s.LaneIssues msel pclass e) :
    e.act.Sublist e.all := by
  obtain ⟨t, fid, w, -, -, he⟩ := h.env_eq
  rw [he]
  exact List.filter_sublist

theorem Thread.vreg_setRegs_other {x : Thread} {w : List (Nat × Nat)} {r : Nat} (h : r ∉ w.map (·.1)) (next : Nat) :
    (x.setRegs next w).vreg r = x.vreg r :=
  congrArg BitVec.toNat (Tab.get_foldl_set_other 0 (BitVec.ofNat 32) w x.regs h)

theorem Thread.vreg_setRegs_mem {x : Thread} {w : List (Nat × Nat)} {p : Nat × Nat} (hx : x.regs.rising = true) (nodup : (w.map (·.1)).Nodup)
    (hp : p ∈ w) (next : Nat) : (x.setRegs next w).vreg p.1 = p.2 % 2 ^ 32 :=
  (congrArg BitVec.toNat (Tab.get_foldl_set_mem 0 (BitVec.ofNat 32) w x.regs hx nodup hp)).trans (BitVec.toNat_ofNat _ _)

/-- Registers of some threads of a team are written, each thread once. -/
theorem State.teamOnly_setV {s : State} {tid : Nat} {t : Team} (ht : s.teams.look tid = some t) {act : List Nat} (nodup : act.Nodup)
    (w : Nat → List (Nat × Nat)) :
    ∃ x : Team, s.TeamOnly (s.setV tid (act.map (fun th => (th, w th)))) tid x ∧ x = { t with threads := x.threads }
      ∧ (∀ th, th ∉ act → x.thread th = t.thread th)
      ∧ ∀ th ∈ act, (t.threads.look th).isSome = true → x.thread th = (t.thread th).setRegs s.nextId (w th) := by
  refine ⟨_, State.teamOnly_updTeam ht _, rfl, fun th out => ?_, fun th hth listed => ?_⟩ <;>
    simp only [Team.thread, Tab.get, List.foldl_map, Tab.look_foldl_upd (fun th (x : Thread) => x.setRegs s.nextId (w th)) _ _ _ nodup]
  · rw [if_neg out]
  · obtain ⟨x, hx⟩ := Option.isSome_iff_exists.1 listed
    rw [if_pos hth, hx]
    rfl

/-! ## Masks (R176, R195) -/

theorem Team.mem_hwsOf {t : Team} {hw : Nat} (l : List Nat) : hw ∈ t.hwsOf l ↔ ∃ th ∈ l, t.hwOf th = hw := by
  suffices all : ∀ acc, hw ∈ l.foldl (fun acc th => NatSet.ins acc (t.hwOf th)) acc ↔ hw ∈ acc ∨ ∃ th ∈ l, t.hwOf th = hw by
    exact (all []).trans (by simp)
  induction l with
  | nil => simp
  | cons th l ih => intro acc; simp [ih, NatSet.mem_ins, eq_comm, or_assoc, or_left_comm]

theorem Team.hwsOf_nodup (t : Team) (l : List Nat) : (t.hwsOf l).Nodup := by
  have ascending : (t.hwsOf l).Pairwise (· < ·) :=
    List.foldlRecOn (motive := List.Pairwise (· < ·)) l _ .nil (fun acc h th _ => NatSet.pairwise_ins h _)
  exact ascending.imp Nat.ne_of_lt

/-- A bit of a mask word with the bits of some threads replaced: what all that stand at its lane write, or what it was. -/
theorem Team.bit_maskWith {t : Team} {i : Nat} {b : Bool} : ∀ (l : List (Nat × Bool)) (old : Nat), (∀ p ∈ l, t.laneOf p.1 = i → p.2 = b) →
    bit old i = b ∨ (∃ p ∈ l, t.laneOf p.1 = i) → bit (t.maskWith old l) i = b
  | [], _, _, h => h.resolve_right (by simp)
  | p :: l, old, agree, h => by
    obtain ⟨first, rest⟩ := List.forall_mem_cons.1 agree
    refine Team.bit_maskWith l _ rest ?_
    rw [bit_putBits_one]
    by_cases hp : t.laneOf p.1 = i
    · rw [if_pos hp.symm]
      exact .inl (first hp)
    · rw [if_neg (Ne.symm hp)]
      exact h.imp id (fun written => by simpa [hp] using written)

/-- A home warp with a mask register written. -/
def HomeWarp.withMask (h : HomeWarp) (k v : Nat) : HomeWarp := { h with masks := h.masks.set 0 k (BitVec.ofNat 64 v) }

theorem HomeWarp.mask_withMask_same {h : HomeWarp} (rising : h.masks.rising = true) (k v : Nat) : (h.withMask k v).mask k = v % 2 ^ 64 := by
  rw [HomeWarp.mask, HomeWarp.withMask, Tab.get_set_same 0 _ k _ rising, BitVec.toNat_ofNat]

theorem HomeWarp.mask_withMask_other {j k : Nat} (hj : j ≠ k) (h : HomeWarp) (v : Nat) : (h.withMask k v).mask j = h.mask j := by
  rw [HomeWarp.mask, HomeWarp.withMask, Tab.get_set_other 0 _ _ hj, HomeWarp.mask]

theorem State.look_foldl_setMask (tid k : Nat) (v : Nat → Nat) (t : Team) : ∀ (l : List Nat) (s : State) (warps : Tab HomeWarp),
    s.teams.look tid = some { t with warps := warps } →
      (l.foldl (fun s hw => s.setMask tid hw k (v hw)) s).teams.look tid =
        some { t with warps := l.foldl (fun ws hw => ws.upd hw (fun h => h.withMask k (v hw % 2 ^ t.width))) warps }
  | [], _, _, h => h
  | _ :: l, s, _, h => State.look_foldl_setMask tid k v t l _ _ ((s.look_updTeam_same tid _).trans (congrArg (Option.map _) h))

/-- The bits that an instruction writes in a mask of one home warp: those of its active threads (R195). -/
def Env.bitsOf (e : Env) (hw : Nat) (val : Nat → Bool) : List (Nat × Bool) :=
  (e.act.filter (fun th => e.t.hwOf th == hw)).map (fun th => (th, val th))

theorem Env.mem_bitsOf {e : Env} {hw : Nat} {val : Nat → Bool} {p : Nat × Bool} :
    p ∈ e.bitsOf hw val ↔ ∃ th ∈ e.act, e.t.hwOf th = hw ∧ p = (th, val th) := by
  simp [Env.bitsOf, and_assoc, eq_comm (a := p)]

/-- The home warp that a write of mask bits leaves: one that has an active thread gets its mask written, any other stays. -/
def Env.maskWritten (e : Env) (k : Nat) (val : Nat → Bool) (hw : Nat) (h : HomeWarp) : HomeWarp :=
  if hw ∈ e.hws then h.withMask k (e.t.maskWith (h.mask k) (e.bitsOf hw val) % 2 ^ e.t.width) else h

theorem Env.writeBits_look {e : Env} {s : State} {t : Team} (ht : s.teams.look e.tid = some t) (width : e.t.width = t.width)
    (warps : e.t.warps = t.warps) (k : Nat) (val : Nat → Bool) :
    ∃ ws : Tab HomeWarp, (e.writeBits s k val).teams.look e.tid = some { t with warps := ws }
      ∧ ∀ hw h, t.warps.look hw = some h → ws.look hw = some (e.maskWritten k val hw h) := by
  refine ⟨_, State.look_foldl_setMask e.tid k _ t e.hws s t.warps ht, fun hw h hh => ?_⟩
  rw [Tab.look_foldl_upd _ hw e.hws t.warps (e.t.hwsOf_nodup e.act), hh, warps, Tab.get, hh, ← width, Env.maskWritten, Env.bitsOf]
  split <;> rfl

theorem Env.maskWritten_frame (e : Env) (k : Nat) (val : Nat → Bool) (hw : Nat) (h : HomeWarp) :
    e.maskWritten k val hw h = { h with masks := (e.maskWritten k val hw h).masks } := by
  unfold Env.maskWritten
  split <;> rfl

theorem Env.maskWritten_mask_other {j k : Nat} (hj : j ≠ k) (e : Env) (val : Nat → Bool) (hw : Nat) (h : HomeWarp) :
    (e.maskWritten k val hw h).mask j = h.mask j := by
  unfold Env.maskWritten
  split
  · exact HomeWarp.mask_withMask_other hj h _
  · rfl

/-- A bit of the mask: what all active threads of that home lane write, or what it was. -/
theorem Env.bit_maskWritten {e : Env} {k hw lane n : Nat} {val : Nat → Bool} {h : HomeWarp} {b : Bool} (rising : h.masks.rising = true)
    (width : e.t.width = n) (hlane : lane < n) (hn : n ≤ 64) (agree : ∀ th ∈ e.act, th / n = hw → th % n = lane → val th = b)
    (given : bit (h.mask k) lane = b ∨ ∃ th ∈ e.act, th / n = hw ∧ th % n = lane) :
    bit ((e.maskWritten k val hw h).mask k) lane = b := by
  subst width
  unfold Env.maskWritten
  split
  · rw [HomeWarp.mask_withMask_same rising, bit_mod_two_pow (by omega), bit_mod_two_pow hlane]
    refine Team.bit_maskWith _ _ (fun p hp atLane => ?_) (given.imp id ?_)
    · obtain ⟨th, hth, home, rfl⟩ := Env.mem_bitsOf.1 hp
      exact agree th hth home atLane
    · rintro ⟨th, hth, home, atLane⟩
      exact ⟨_, Env.mem_bitsOf.2 ⟨th, hth, home, rfl⟩, atLane⟩
  · next absent =>
    exact given.resolve_right (fun ⟨th, hth, home, _⟩ => absent ((Team.mem_hwsOf _).2 ⟨th, hth, home⟩))

end Machine

end Sys2Proof
end

section
/-! What the instructions of the lane stream change (R135, R151, R176, R195). -/

namespace Sys2Proof.Machine

/-- The writes of a LANE instruction, then the move of its warp: the first change registers alone, the second where threads stand alone. -/
theorem State.laneWrote_changes {s : State} {msel : BitVec 4} {pclass : BitVec 2} {e : Env} (h : s.LaneIssues msel pclass e) {t₀ : Team}
    (ht : s.teams.look e.tid = some t₀) (listed : ∀ th ∈ e.all, (t₀.threads.look th).isSome = true) (nodup : e.all.Nodup)
    (w : Nat → Thread → List (Nat × Nat)) :
    ∃ t x : Team, s.TeamOnly (s.laneWrote e w) e.tid t ∧ x.SameButPlaces t ∧ x = { t₀ with threads := x.threads }
      ∧ (∀ th, th ∉ e.act → x.thread th = t₀.thread th)
      ∧ ∀ th ∈ e.act, x.thread th = (t₀.thread th).setRegs s.nextId (w th (e.t.thread th)) := by
  obtain ⟨x, wrote, frame, out, written⟩ := State.teamOnly_setV ht (nodup.sublist h.act_sublist) (fun th => w th (e.t.thread th))
  obtain ⟨t, moved, same⟩ := State.advance_moves wrote.look h.2 .issuing
  exact ⟨t, x, wrote.trans moved, same, frame, out, fun th hth => written th hth (listed th (h.act_sublist.subset hth))⟩

/-- Settles O17: the writes touch registers alone and the move of the warp only where threads stand; a mask word gets the bits of the active
threads of its home warp. -/
theorem laneResultsChangeOnlyDestinations : Obligations.LaneResultsChangeOnlyDestinations := by
  unfold Obligations.LaneResultsChangeOnlyDestinations
  refine ⟨fun s msel pclass e w h t₀ ht listed nodup => ?registers, fun s e k hw lane val t h ht he hhw rising _ hlane width _ _ => ?masks⟩
  case registers =>
    obtain ⟨t, x, only, ⟨moved, samePlace⟩, frame, out, written⟩ := s.laneWrote_changes h ht listed nodup w
    have regs : ∀ th, (t.thread th).regs = (x.thread th).regs := fun th => by rw [samePlace th]
    have vreg : ∀ th r, (t.thread th).vreg r = (x.thread th).vreg r := fun th r => by rw [Thread.vreg, regs, Thread.vreg]
    have kept : ∀ th, (t.thread th).meet = (t₀.thread th).meet ∧ (t.thread th).done = (t₀.thread th).done
        ∧ (t.thread th).pos = (t₀.thread th).pos ∧ (t.thread th).priv = (t₀.thread th).priv := fun th => by
      rw [samePlace th]
      by_cases hth : th ∈ e.act
      · rw [written th hth]; exact ⟨rfl, rfl, rfl, rfl⟩
      · rw [out th hth]; exact ⟨rfl, rfl, rfl, rfl⟩
    have frame : t = { t₀ with threads := t.threads, formed := t.formed } :=
      moved.trans (congrArg (fun x : Team => { x with threads := t.threads, formed := t.formed }) frame)
    refine ⟨t, only, frame, only.sameBytes ht (by rw [frame]) (fun th => (kept th).2.2.2), kept, fun th hth => ?_,
      fun th hth r hr => ?_, fun th hth hx distinct p hp => ?_⟩
    · rw [regs, out th hth]
    · rw [vreg, written th hth]; exact Thread.vreg_setRegs_other hr _
    · rw [vreg, written th hth]; exact Thread.vreg_setRegs_mem hx distinct hp _
  case masks =>
    obtain ⟨_, _, seen⟩ := s.seen_sameButAgents e.tid t
    have sameWidth : e.t.width = t.width := by rw [he, seen]
    obtain ⟨ws, now, look⟩ := Env.writeBits_look ht sameWidth (by rw [he, seen]) k val
    refine ⟨_, _, now, rfl, look hw h hhw, e.maskWritten_frame k val hw h, fun j hj => Env.maskWritten_mask_other hj e val hw h,
      fun th hth home atLane => ?_, fun clear => ?_⟩
    · refine Env.bit_maskWritten rising sameWidth hlane width (fun th' _ home' at' => congrArg val ?_) (.inr ⟨th, hth, home, atLane⟩)
      exact Nat.ext_div_mod (home'.trans home.symm) (at'.trans atLane.symm)
    · exact Env.bit_maskWritten rising sameWidth hlane width (fun th hth home atLane => absurd atLane (clear th hth home)) (.inl rfl)

end Sys2Proof.Machine
end

section
/-! SUPPORT. Bytes put at a home: what its space then holds, and which homes take them (R18, R336). -/

namespace Sys2Proof

@[simp] theorem bytesOf_length (n x : Nat) : (bytesOf n x).length = n := by
  induction n generalizing x with
  | zero => rfl
  | succ n ih => simp [bytesOf, ih]

/-- Two changes of one entry in turn are one change. -/
theorem Tab.upd_upd {α : Type} (t : Tab α) (q : Nat) (f g : α → α) : (t.upd q f).upd q g = t.upd q (fun x => g (f x)) := by
  induction t with
  | nil => rfl
  | cons p t ih =>
    obtain ⟨k, v⟩ := p
    by_cases hk : q = k <;> simp [upd, hk, ih]

namespace Machine

/-! ## One level -/

theorem Space.byte_write_inside {m : Space} (hm : m.wf = true) (a : Nat) {bs : List Byte} {i : Nat} {b : Byte} (hb : bs[i]? = some b) :
    (m.write a bs).byte (a + i) = b := writeCells_inside bs _ _ _ _ hm hb

theorem Space.byte_write_outside (m : Space) (a : Nat) (bs : List Byte) {x : Nat} (hx : x < a ∨ a + bs.length ≤ x) :
    (m.write a bs).byte x = m.byte x :=
  hx.elim (writeCells_before bs _ _ _) (writeCells_after bs _ _ _)

/-! ## The space of a home -/

/-- Two changes of one space in turn are one change. -/
theorem State.updSpace_updSpace (s : State) (h : Home) (f g : Space → Space) :
    (s.updSpace h f).updSpace h g = s.updSpace h (fun m => g (f m)) := by
  cases h with
  | priv tid th => simp [updSpace, updThread, updTeam, Tab.upd_upd]
  | scratch tid => simp [updSpace, updTeam, Tab.upd_upd]
  | cluster g => simp [updSpace, Tab.upd_upd]
  | chip k => simp [updSpace, Tab.upd_upd]
  | glob | remote p => rfl

/-- Spaces lie outside what a write leaves at monitors, tiles and protection modes. -/
@[simp] theorem State.space_setSadOpsModes (s : State) (sad : Saddle) (ops : Tab Op) (modes : Tab Nat) (h : Home) :
    State.space { s with sad := sad, ops := ops, modes := modes } h = s.space h := by
  cases h <;> rfl

theorem State.updSpace_setSadOpsModes (s : State) (sad : Saddle) (ops : Tab Op) (modes : Tab Nat) (h : Home) (f : Space → Space) :
    State.updSpace { s with sad := sad, ops := ops, modes := modes } h f = { s.updSpace h f with sad := sad, ops := ops, modes := modes } := by
  cases h <;> rfl

/-- Bytes that the home takes are written in its space; besides that, only monitors, tiles and protection modes note them. -/
theorem State.putHome_eq (s : State) (h : Home) (a : Nat) (bs : List Byte) (taken : (h = .glob && lostPlace a) = false) :
    ∃ sad ops modes, s.putHome h a bs = { s.updSpace h (fun m => m.write a bs) with sad := sad, ops := ops, modes := modes } := by
  unfold State.putHome
  rw [taken]
  by_cases hg : h = .glob <;> exact ⟨_, _, _, by simp only [hg]; rfl⟩

/-- Bytes put at a home that takes them and is there are written in its space. -/
theorem State.space_putHome {s : State} {h : Home} {a : Nat} (bs : List Byte) (taken : (h = .glob && lostPlace a) = false)
    (there : ∀ f, (s.updSpace h f).space h = f (s.space h)) : (s.putHome h a bs).space h = (s.space h).write a bs := by
  obtain ⟨sad, ops, modes, put⟩ := s.putHome_eq h a bs taken
  rw [put, space_setSadOpsModes, there]

/-- A home that is there is still there after bytes are put at it. -/
theorem State.space_updSpace_putHome {s : State} {h : Home} {a : Nat} (bs : List Byte) (taken : (h = .glob && lostPlace a) = false)
    (there : ∀ f, (s.updSpace h f).space h = f (s.space h)) (g : Space → Space) :
    ((s.putHome h a bs).updSpace h g).space h = g ((s.space h).write a bs) := by
  obtain ⟨sad, ops, modes, put⟩ := s.putHome_eq h a bs taken
  rw [put, updSpace_setSadOpsModes, space_setSadOpsModes, updSpace_updSpace, there]

/-- A place that stores nothing arrives poisoned (R336). -/
theorem State.taken_of_clean {s : State} {h : Home} {a n : Nat} (hn : 0 < n) (clean : s.poisonAt h a n = false) :
    (h = .glob && lostPlace a) = false := by
  have inRange : a ∈ upFrom a n := mem_upFrom.2 ⟨Nat.le_refl a, by omega⟩
  simp only [State.poisonAt, Bool.or_eq_false_iff, Bool.and_eq_false_iff, List.any_eq_false, Bool.not_eq_true] at clean
  obtain ⟨_, notGlob | stored⟩ := clean
  · rw [notGlob, Bool.false_and]
  · rw [(stored a inRange).1, Bool.and_false]

end Machine

end Sys2Proof
end

section
/-! Barrier objects (R220, R230, R232, R259). -/

namespace Sys2Proof.Machine

/-! ## The rule on an object's words -/

theorem Bar.finish_eq (x : Bar) : x.finish =
    if x.pending = 0 ∧ x.tx ≤ 0 then { x with err := x.err || decide (x.tx < 0), phase := !x.phase, pending := x.parts, tx := 0 } else x := by
  simp [Bar.finish]

theorem Bar.apply_drop_of_pos {x : Bar} (pending : 0 < x.pending) (parts : 0 < x.parts) :
    x.apply .drop = Bar.finish { x with pending := x.pending - 1, parts := x.parts - 1 } := by
  simp [Bar.apply, Nat.ne_of_gt pending, Nat.ne_of_gt parts]

theorem Bar.apply_drop_of_zero {x : Bar} (none : x.pending = 0 ∨ x.parts = 0) : x.apply .drop = Bar.finish { x with err := true } := by
  simp [Bar.apply, none]

@[simp] theorem Bar.bytes_length (x : Bar) : x.bytes.length = 8 := by simp [Bar.bytes]

/-! ## The update at the home -/

/-- What an update marks beside the bytes of its object: the scope of a BINIT, and that an engine has credited (R230, R259). -/
def BarUpd.mark (u : BarUpd) (a : Nat) (m : Space) : Space :=
  match u with
  | .init _ scope => { m with scopes := m.scopes.put a scope, credited := m.credited.rem a }
  | .credit _ _ _ => { m with credited := m.credited.ins a }
  | _ => m

@[simp] theorem BarUpd.mark_byte (u : BarUpd) (a : Nat) (m : Space) (x : Nat) : (u.mark a m).byte x = m.byte x := by
  cases u <;> rfl

theorem State.barUpdate_poisoned {s : State} {h : Home} {a : Nat} (u : BarUpd) (bad : (s.recall h a 16).poisonAt h a 16 = true) :
    s.barUpdate h a u = (s.recall h a 16, false, true) := by
  unfold State.barUpdate
  exact if_pos bad

theorem State.barUpdate_answer {s : State} {h : Home} {a : Nat} (u : BarUpd) (clean : (s.recall h a 16).poisonAt h a 16 = false) :
    (s.barUpdate h a u).2 = (((s.recall h a 16).barAt h a).phase, false) := by
  simp [State.barUpdate, clean]

/-- The space of the home after an update: the two words written, and the update's marks. -/
theorem State.barUpdate_space {s : State} {h : Home} {a : Nat} (u : BarUpd) (clean : (s.recall h a 16).poisonAt h a 16 = false)
    (there : ∀ f, ((s.recall h a 16).updSpace h f).space h = f ((s.recall h a 16).space h)) :
    (s.barUpdate h a u).1.space h =
      u.mark a (((s.recall h a 16).space h).write a (((s.recall h a 16).barAt h a).apply u).bytes) := by
  have taken := State.taken_of_clean (by decide) clean
  simp only [State.barUpdate, clean]
  cases u with
  | init | credit => exact State.space_updSpace_putHome _ taken there _
  | _ => exact State.space_putHome _ taken there

/-- Settles O42: the rule of R232 update by update, and the space of the home after one is the object's two words written in it. -/
theorem barrierObjectsFollowTheirRule : Obligations.BarrierObjectsFollowTheirRule := by
  unfold Obligations.BarrierObjectsFollowTheirRule
  refine ⟨fun x => ?rule, fun s h a u => ⟨State.barUpdate_poisoned u, fun clean wf there => ?home⟩⟩
  case rule =>
    exact ⟨fun _ _ => rfl, Bar.finish_eq _, fun _ => Bar.finish_eq _, fun _ => Bar.finish_eq _, fun _ _ _ => Bar.finish_eq _,
      fun pending parts => (Bar.apply_drop_of_pos pending parts).trans (Bar.finish_eq _),
      fun none => (Bar.apply_drop_of_zero none).trans (Bar.finish_eq _), rfl, rfl⟩
  case home =>
    have after := State.barUpdate_space u clean there
    refine ⟨State.barUpdate_answer u clean, fun i b hb => ?written, fun y hy => ?other, fun n k hu => ?scope, fun k p e hu => ?credited⟩
    case written => rw [after, BarUpd.mark_byte, Space.byte_write_inside wf a hb]
    case other => rw [after, BarUpd.mark_byte, Space.byte_write_outside _ _ _ (by rwa [Bar.bytes_length])]
    case scope => rw [after, hu]; exact Tab.look_put_same _ a k
    case credited => rw [after, hu]; simp [BarUpd.mark, NatSet.has_ins]

end Sys2Proof.Machine
end
